-- ==== Sys2Proof/Word.lean ====
section
/-! DEFINITION. The word types and the names of the units. -/

namespace Sys2Proof

abbrev Byte := BitVec 8
abbrev Word := BitVec 32

/-- A logical core, numbered GY × 256 + GX (R5). -/
abbrev CoreId := Fin 49152
/-- A logical cluster, by its index CI (R4). -/
abbrev ClusterId := Fin 768
/-- A logical tile, by its index PT (R3). -/
abbrev TileId := Fin 48
/-- A physical tile: 0 to 47, 48 for D0, 49 for D1 (R3). -/
abbrev PhysTile := Fin 50
/-- A port die PD0 to PD7 (R19). -/
abbrev DieId := Fin 8
/-- An Azram port AZ0 to AZ31 (R19). -/
abbrev PortId := Fin 32
/-- A command queue (R396). -/
abbrev QueueId := Fin 64
/-- A mailbox (R407). -/
abbrev MbxId := Fin 48
/-- A fan bay F0 to F7 (R528). -/
abbrev FanId := Fin 8
/-- A power-stage bay PS0 to PS11 (R528). -/
abbrev StageId := Fin 12
/-- A feed: 0 is A, 1 is B (R419). -/
abbrev FeedId := Fin 2
/-- An index of an S or V register (R53). -/
abbrev Reg := Fin 32

end Sys2Proof
end

