-- ==== Sys2Proof/Syntax.lean ====
section
/-! DEFINITION. The commands of the block: one constructor of `Instr` for each row of the opcode
table, with the operands that the row's event brings. -/

namespace Sys2Proof

/-- Format S of R53: scalar arithmetic. -/
structure ScalarF where
  sd : Reg
  sa : Reg
  sb : Reg
  imm : BitVec 32
  deriving DecidableEq, Repr

/-- Format L of R53: scalar and vector loads and stores; `d` is an S or a V register. -/
structure LoadF where
  d : Reg
  sa : Reg
  imm : BitVec 32
  deriving DecidableEq, Repr

/-- Format B of R53: branches. -/
structure BranchF where
  sa : Reg
  sb : Reg
  imm : BitVec 32
  deriving DecidableEq, Repr

/-- Format C of R53: core-local registers. -/
structure CsrF where
  sd : Reg
  sa : Reg
  csr : BitVec 12
  imm : BitVec 32
  deriving DecidableEq, Repr

/-- Format M of R53: MMA. -/
structure MmaF where
  acc : Fin 4
  fmtA : BitVec 4
  fmtB : BitVec 4
  sa : Reg
  sb : Reg
  ss : Reg
  za : Bool
  kg : BitVec 8
  deriving DecidableEq, Repr

/-- Format MA of R53: accumulator moves. -/
structure AccF where
  acc : Fin 4
  fmt : BitVec 4
  sa : Reg
  vx : Reg
  row : Fin 16
  deriving DecidableEq, Repr

/-- Format V of R53: vector operations. -/
structure VecF where
  vd : Reg
  va : Reg
  vb : Reg
  vc : Reg
  pm : Fin 8
  ty : BitVec 2
  rm : Bool
  ext : BitVec 30
  deriving DecidableEq, Repr

/-- Format Q of R53: messages. -/
structure SendF where
  stream : BitVec 6
  sa : Reg
  sl : Reg
  so : Reg
  sy : Reg
  sig : Bool
  deriving DecidableEq, Repr

/-- The format of R183: sync instructions. -/
structure SyncF where
  sd : Reg
  sa : Reg
  sb : Reg
  scope : BitVec 2
  imm : BitVec 16
  deriving DecidableEq, Repr

/-- The format of R214: DMA. -/
structure DmaF where
  sp : Reg
  sm : Reg
  sl : Reg
  sr : Reg
  deriving DecidableEq, Repr

/-- FILL and COPY of R131. FILL uses `sa` (address), `sl` and `sv`; COPY uses `sd`, `sa` (source) and `sl`. -/
structure FillF where
  sd : Reg
  sa : Reg
  sl : Reg
  sv : Reg
  deriving DecidableEq, Repr

/-- WOPEN and WCLOSE of R131. -/
structure WinF where
  w : Fin 8
  sa : Reg
  sb : Reg
  deriving DecidableEq, Repr

/-- The format of R268: sparse instructions. -/
structure SparseF where
  sd : Reg
  sa : Reg
  sb : Reg
  ss : Reg
  fmtA : BitVec 4
  fmtB : BitVec 4
  acc : Fin 4
  za : Bool
  bsp : Bool
  kg : BitVec 8
  deriving DecidableEq, Repr

/-- The two paths of the matrix unit (R60): the MAC array and the write-out path. -/
inductive MatrixPath where
  | mac
  | writeOut
  deriving DecidableEq, Repr

/-- A clock island (R149): a cluster, a port die, or the host die. -/
inductive Island where
  | cluster (ci : ClusterId)
  | die (d : DieId)
  | hostDie
  deriving DecidableEq, Repr

/-- A node of the stitch mesh: a router, or a port die at the edge (R157). -/
inductive MeshNode where
  | router (c : CoreId)
  | die (d : DieId)
  deriving DecidableEq, Repr

/-- A node of the tatting mesh (R186). -/
inductive TatNode where
  | core (c : CoreId)
  | router (c : CoreId)
  | cluster (ci : ClusterId)
  | tile (pt : TileId)
  | root
  | die (d : DieId)
  | shuttle (s : Fin 4)
  deriving DecidableEq, Repr

/-- A tatting packet as received: its six beats, the first received first. A beat has its 16 data bits in [15:0], VALID in bit 16 and PAR
in bit 17 (R187). -/
structure RxPacket where
  beats : Vector (BitVec 18) 6
  deriving DecidableEq, Repr

/-- The four sensors of one DRAM layer, one per quadrant, in 1/16 °C; `none` for a failed sensor
(R432, R433). -/
structure QuadTemp where
  q0 : Option Int
  q1 : Option Int
  q2 : Option Int
  q3 : Option Int
  deriving DecidableEq, Repr

/-- A message with a 64 B header (R228, R314, R350): byte k of the header is bits [8k+7:8k]. -/
structure Msg where
  hdr : BitVec 512
  payload : List Byte
  deriving DecidableEq, Repr

/-- A mesh message: the header flit of R66 and its payload flits; byte k of a flit is bits [8k+7:8k]. -/
structure MeshMsg where
  hdr : BitVec 256
  payload : List (BitVec 256)
  deriving DecidableEq, Repr

/-- The identity of a collective instance (R334). -/
inductive CollId where
  | queue (tag : BitVec 32)
  | bound (passSeq : BitVec 32) (entry : BitVec 16) (attempt : Nat)
  deriving DecidableEq, Repr

/-- What a shuttle's read of one descriptor returns (R404): its 128 bytes, byte k in bits [8k+7:8k],
or a failure (R398). -/
inductive FetchResult where
  | ok (d : BitVec 1024)
  | fail
  deriving DecidableEq, Repr

/-- The readings of one tile in a Loupe sample (R432, R447, R495): nine die diodes in the order
dy × 3 + dx and the sensors of both layers, in 1/16 °C, the 12 V current in units of 0.1 A, the
eFuse output in mV, and the rail energy since the last sample. -/
structure TileSample where
  t : PhysTile
  diodes : List (Option Int)
  mem0 : QuadTemp
  mem1 : QuadTemp
  current : Nat
  voltage : Nat
  energy : Nat
  deriving DecidableEq, Repr

/-- One fan reading: speed, and the speed that its duty calls for (R437). -/
structure FanSample where
  n : FanId
  rpm : Nat
  deriving DecidableEq, Repr

/-- What Loupe measures in one 1 ms sample (R424): the power of each feed in W, the feed voltages in
units of 0.1 V, the estimate P_rest in W, and the air and sink temperatures in 1/16 °C; and the levels of the module's pins then: PERST# of
HOST0 and HOST1, asserted or not (R531), and the speed in Mb/s of what is cabled to MGT0 and MGT1, 0 for nothing (R499). -/
structure TickSample where
  powerA : Nat
  powerB : Nat
  voltA : Nat
  voltB : Nat
  rest : Nat
  inlet : Int
  outlet : Int
  sink : Int
  fans : List FanSample
  tiles : List TileSample
  perst0 : Bool := false
  perst1 : Bool := false
  mgt0 : Nat := 1000
  mgt1 : Nat := 1000
  deriving DecidableEq, Repr

/-- Why a tile's eFuse opens (R423). -/
inductive TripCause where
  | short
  | overload
  | dieTemp
  deriving DecidableEq, Repr

/-- The fields of SetPowerLimits (R430, R502). -/
structure PowerLimits where
  rampUp : Option Nat
  rampDown : Option Nat
  cap : Option Nat
  deriving DecidableEq, Repr

/-- The outcome of one tile's tests in a wave (R455): the failed cores as (cluster CY × 4 + CX, row,
physical column), and whether the other tests passed. -/
structure TileTest where
  t : PhysTile
  failed : List (Fin 16 × Fin 8 × Fin 9)
  othersOk : Bool
  deriving DecidableEq, Repr

/-- The modes of StageConfiguration and of activation (R468, R502). -/
inductive StageMode where
  | stage
  | wait
  | drain
  deriving DecidableEq, Repr

/-- The components of a firmware bundle (R469), coded as FW_PEND.COMPONENT (R475). -/
inductive FwComponent where
  | core
  | shuttle
  | loupe
  deriving DecidableEq, Repr

/-- A firmware bundle as staged (R469): its version (R393), its three components, and its bytes, of
which the last 256 are the signature block (R511). -/
structure Bundle where
  version : BitVec 32
  loupe : List Byte
  shuttle : List Byte
  core : List Byte
  bytes : List Byte
  deriving DecidableEq, Repr

/-- One certificate of a chain that a client presents (R500), as Loupe's checks read it. -/
structure Cert where
  id : Nat
  issuer : Nat
  signatureOk : Bool
  notBefore : Nat
  notAfter : Nat
  deriving DecidableEq, Repr

/-- What CertificateService installs (R500, R502): a CA certificate, a CRL, or a TLS server certificate issued against the CSR of a number. -/
inductive CertItem where
  | ca (c : Cert)
  | crl (revoked : List Nat)
  | tlsServer (id : Nat) (csr : Nat)
  deriving DecidableEq, Repr

/-- What listens, or does not, on a management port (R499). -/
inductive MgmtService where
  | redfish
  | plainHttp
  | ssh
  | snmp
  | ipmi
  | other
  deriving DecidableEq, Repr

/-- The resources that Loupe serves (R502). -/
inductive Resource where
  | chassis
  | powerSubsystem
  | thermalSubsystem
  | manager
  | updateService
  | certificateService
  | componentIntegrity
  | eventService
  | logService
  | securityService
  deriving DecidableEq, Repr

/-- A request of a Redfish client that has no row of its own in the opcode table: the read of a resource, an attestation report or the
identity chain from ComponentIntegrity (R518, R519), a CSR (R500), and the opening of the stream of events (R503). -/
inductive Ask where
  | read (r : Resource)
  | report (nonce : List Byte)
  | chain
  | csr
  | stream
  deriving DecidableEq, Repr

/-- A connection of a client (R499, R500): its port, the service that it wants, what it offers, the certificate chain that it presents, its
own certificate first, and its requests. -/
structure Client where
  port : Fin 2
  service : MgmtService
  tls13 : Bool
  /-- TLS_AES_256_GCM_SHA384, brainpoolP384r1tls13 and ecdsa_brainpoolP384r1tls13_sha384 are among what it offers -/
  cipherOk : Bool
  groupOk : Bool
  signatureOk : Bool
  chain : List Cert
  asks : List Ask := []
  deriving DecidableEq, Repr

/-- What a PATCH of the Chassis resource sets (R502, R506). -/
structure ChassisSet where
  panelLock : Option Bool
  locate : Option Bool := none
  deriving DecidableEq, Repr

/-- A push that is made again: the subscription, and the event, by how many events ago it was the latest (R503). -/
structure PushOf where
  sub : Nat
  back : Nat := 0
  deriving DecidableEq, Repr

/-- A Redfish event (R503): a status code, or an event with no code, by its name. -/
inductive Event where
  | code (c : BitVec 16)
  | named (msg : String)
  deriving DecidableEq, Repr

/-- What the management store in the cartridge holds (R503): CA certificates, CRLs, the clock record, the subscriptions, and the event log,
the latest first. -/
structure Store where
  cas : List Cert := []
  crl : List Nat := []
  lastTime : Nat := 0
  subs : List Nat := []
  log : List Event := []
  deriving DecidableEq, Repr

/-- What Loupe reads of the cartridge's Basic Flash Parameter Table (R461): the density in bytes, the read command, and the address bytes. -/
structure Sfdp where
  density : Nat := 2097152
  readCmd : BitVec 8 := 0x03
  addrBytes : Nat := 3
  deriving DecidableEq, Repr

/-- The contents of a repair record (R493), by its fields: SEQ, TILE_MAP, DARN, EDGE and CORES. -/
structure RepairRecord where
  seq : BitVec 32
  tileMap : List Byte
  darn : List Byte
  edge : BitVec 640
  cores : List (BitVec 32)
  deriving DecidableEq, Repr

/-- The configuration cartridge (R461, R493, R503): its parameter table, if Loupe can read one, the two banks, of which bank 0 begins at 0 and
bank 1 at half the density, the space of the two copies of the repair record, as bytes, and the management store. -/
structure Cartridge where
  bank0 : List Byte
  bank1 : List Byte
  rec0 : List Byte
  rec1 : List Byte
  sfdp : Option Sfdp := some ⟨2097152, 0x03, 3⟩
  store : Store := ⟨[], [], 0, [], []⟩
  deriving DecidableEq, Repr

/-- A chunk that its decoder has staged (R239): its index, and the units of the loaders' DMAWR, by piece and unit, that fail link parity
(R222). -/
structure StagedChunk where
  index : BitVec 32
  bad : List (Nat × Nat)
  deriving DecidableEq, Repr

/-- A loss of lock of an ACTIVE port (R370, R375): for less than 10 µs, for 10 µs, or for 10 µs because the cable or module is removed. -/
inductive LockLoss where
  | short
  | long
  | removed
  deriving DecidableEq, Repr

/-- The end of an operation of a core's sparse unit, and the units of its transfers over the DMA port that fail link parity: the reads of
spilled records are numbered first, then the writes (R222, R270). -/
structure SparseEnd where
  core : CoreId
  badLinks : List Nat := []
  deriving DecidableEq, Repr

/-- A start mark: the link of a tatting error of it, named by its lower node, with the code (R202, R479); and, of a collective slice, the
units of what it moves that fail link parity: those of its writes are numbered first, then those of its reads (R222, R343). -/
structure StartMark where
  tatError : Option (TatNode × BitVec 16) := none
  links : List Nat := []
  deriving DecidableEq, Repr

/-- The limit of a WAIT_SYNC: its queue, and its place among those of the queue that run with a limit, the first started being 0 (R402). -/
structure WaitLimit where
  q : QueueId
  n : Nat := 0
  deriving DecidableEq, Repr

/-- How the transfers of a COPY or FILL went (R406): whether the host's accesses succeeded, and the units read from the window and those
written to it whose transfer fails link parity (R224). -/
structure CopyEnd where
  ok : Bool
  bad : List Nat
  dropped : List Nat
  deriving DecidableEq, Repr

/-- A value that a PATCH sets, and the ETag of its If-Match, if it carries one (R501). -/
structure Patch (α : Type) where
  v : α
  ifMatch : Option Nat
  deriving DecidableEq, Repr

/-- An aligned read of a register: of 32 bits, or of 64 with `wide` (R9). -/
structure ReadAt where
  off : BitVec 26
  wide : Bool
  deriving DecidableEq, Repr

/-- What a register counts while it is read and, in an aligned 64-bit read, what the next one does (R9, R13). -/
structure ReadEvents where
  low : Nat
  high : Option Nat
  deriving DecidableEq, Repr

/-- The word of an aligned register write, with the RW1C bits that an event sets in the same cycle (R13); in a 64-bit write, both also for
the next register (R9). -/
structure RegWrite where
  v : BitVec 32
  again : BitVec 32
  high : Option (BitVec 32 × BitVec 32)
  deriving DecidableEq, Repr

/-- The commands, one constructor for each row of the opcode table. -/
inductive Instr where
  /-- NOP (R54). -/
  | nop (c : CoreId)
  /-- ADD (R54). -/
  | add (c : CoreId) (f : ScalarF)
  /-- ADDI (R54). -/
  | addi (c : CoreId) (f : ScalarF)
  /-- SUB (R54). -/
  | sub (c : CoreId) (f : ScalarF)
  /-- SUBI (R54). -/
  | subi (c : CoreId) (f : ScalarF)
  /-- AND (R54). -/
  | and (c : CoreId) (f : ScalarF)
  /-- ANDI (R54). -/
  | andi (c : CoreId) (f : ScalarF)
  /-- OR (R54). -/
  | or (c : CoreId) (f : ScalarF)
  /-- ORI (R54). -/
  | ori (c : CoreId) (f : ScalarF)
  /-- XOR (R54). -/
  | xor (c : CoreId) (f : ScalarF)
  /-- XORI (R54). -/
  | xori (c : CoreId) (f : ScalarF)
  /-- SHL (R54). -/
  | shl (c : CoreId) (f : ScalarF)
  /-- SHLI (R54). -/
  | shli (c : CoreId) (f : ScalarF)
  /-- SHR (R54). -/
  | shr (c : CoreId) (f : ScalarF)
  /-- SHRI (R54). -/
  | shri (c : CoreId) (f : ScalarF)
  /-- SAR (R54). -/
  | sar (c : CoreId) (f : ScalarF)
  /-- SARI (R54). -/
  | sari (c : CoreId) (f : ScalarF)
  /-- MUL (R54). -/
  | mul (c : CoreId) (f : ScalarF)
  /-- MULI (R54). -/
  | muli (c : CoreId) (f : ScalarF)
  /-- MIN (R54). -/
  | min (c : CoreId) (f : ScalarF)
  /-- MINI (R54). -/
  | mini (c : CoreId) (f : ScalarF)
  /-- MAX (R54). -/
  | max (c : CoreId) (f : ScalarF)
  /-- MAXI (R54). -/
  | maxi (c : CoreId) (f : ScalarF)
  /-- SLT (R54). -/
  | slt (c : CoreId) (f : ScalarF)
  /-- SLTI (R54). -/
  | slti (c : CoreId) (f : ScalarF)
  /-- SLTU (R54). -/
  | sltu (c : CoreId) (f : ScalarF)
  /-- SLTUI (R54). -/
  | sltui (c : CoreId) (f : ScalarF)
  /-- LIH (R54). -/
  | lih (c : CoreId) (f : ScalarF)
  /-- LD (R54). -/
  | ld (c : CoreId) (f : LoadF)
  /-- LDW (R54). -/
  | ldw (c : CoreId) (f : LoadF)
  /-- ST (R54). -/
  | st (c : CoreId) (f : LoadF)
  /-- STW (R54). -/
  | stw (c : CoreId) (f : LoadF)
  /-- BEQ (R54). -/
  | beq (c : CoreId) (f : BranchF)
  /-- BNE (R54). -/
  | bne (c : CoreId) (f : BranchF)
  /-- BLT (R54). -/
  | blt (c : CoreId) (f : BranchF)
  /-- BGE (R54). -/
  | bge (c : CoreId) (f : BranchF)
  /-- BLTU (R54). -/
  | bltu (c : CoreId) (f : BranchF)
  /-- BGEU (R54). -/
  | bgeu (c : CoreId) (f : BranchF)
  /-- JAL (R54). -/
  | jal (c : CoreId) (f : BranchF)
  /-- JR (R54). -/
  | jr (c : CoreId) (f : BranchF)
  /-- CSRR (R71). -/
  | csrr (c : CoreId) (f : CsrF)
  /-- CSRW (R71). -/
  | csrw (c : CoreId) (f : CsrF)
  /-- FENCE (R51). -/
  | fence (c : CoreId) (imm : BitVec 32)
  /-- HALT (R70). -/
  | halt (c : CoreId)
  /-- HALT_COMPLETE (R70). -/
  | haltComplete (c : CoreId)
  /-- CORE_ILLEGAL_OP (R79). -/
  | coreIllegalOp (c : CoreId) (w : BitVec 64)
  /-- MMA (R56). -/
  | mma (c : CoreId) (f : MmaF)
  /-- ACCST (R60). -/
  | accst (c : CoreId) (f : AccF)
  /-- ACCRD (R60). -/
  | accrd (c : CoreId) (f : AccF)
  /-- ACCWR (R60). -/
  | accwr (c : CoreId) (f : AccF)
  /-- ACCZ (R60). -/
  | accz (c : CoreId) (f : AccF)
  /-- MATRIX_OP_START (R48). -/
  | matrixOpStart (c : CoreId) (u : MatrixPath)
  /-- MATRIX_OP_COMPLETE (R59). -/
  | matrixOpComplete (c : CoreId) (u : MatrixPath)
  /-- VLD (R54). -/
  | vld (c : CoreId) (f : LoadF)
  /-- VST (R54). -/
  | vst (c : CoreId) (f : LoadF)
  /-- VBCAST (R54). -/
  | vbcast (c : CoreId) (f : VecF)
  /-- VMOVS (R54). -/
  | vmovs (c : CoreId) (f : VecF)
  /-- VADD (R103). -/
  | vadd (c : CoreId) (f : VecF)
  /-- VSUB (R103). -/
  | vsub (c : CoreId) (f : VecF)
  /-- VMUL (R103). -/
  | vmul (c : CoreId) (f : VecF)
  /-- VFMA (R103). -/
  | vfma (c : CoreId) (f : VecF)
  /-- VMAX (R105). -/
  | vmax (c : CoreId) (f : VecF)
  /-- VMIN (R105). -/
  | vmin (c : CoreId) (f : VecF)
  /-- VCMP (R54). -/
  | vcmp (c : CoreId) (f : VecF)
  /-- VSEL (R54). -/
  | vsel (c : CoreId) (f : VecF)
  /-- VRCP (R104). -/
  | vrcp (c : CoreId) (f : VecF)
  /-- VRSQ (R104). -/
  | vrsq (c : CoreId) (f : VecF)
  /-- VEXP2 (R104). -/
  | vexp2 (c : CoreId) (f : VecF)
  /-- VLOG2 (R104). -/
  | vlog2 (c : CoreId) (f : VecF)
  /-- VCVT (R62). -/
  | vcvt (c : CoreId) (f : VecF)
  /-- VRED (R63). -/
  | vred (c : CoreId) (f : VecF)
  /-- VAND (R54). -/
  | vand (c : CoreId) (f : VecF)
  /-- VOR (R54). -/
  | vor (c : CoreId) (f : VecF)
  /-- VXOR (R54). -/
  | vxor (c : CoreId) (f : VecF)
  /-- SEND (R64). -/
  | send (c : CoreId) (f : SendF)
  /-- SENDWAIT (R54). -/
  | sendwait (c : CoreId) (f : SendF)
  /-- WAITRX (R68). -/
  | waitrx (c : CoreId) (f : SendF)
  /-- SADD (R184). -/
  | sadd (c : CoreId) (f : SyncF)
  /-- SSET (R184). -/
  | sset (c : CoreId) (f : SyncF)
  /-- STGT (R184). -/
  | stgt (c : CoreId) (f : SyncF)
  /-- SREAD (R184). -/
  | sread (c : CoreId) (f : SyncF)
  /-- SWAIT (R184). -/
  | swait (c : CoreId) (f : SyncF)
  /-- SWAITV (R184). -/
  | swaitv (c : CoreId) (f : SyncF)
  /-- BAR (R191). -/
  | bar (c : CoreId) (f : SyncF)
  /-- SABORT (R184). -/
  | sabort (c : CoreId) (f : SyncF)
  /-- DMARD (R215). -/
  | dmard (c : CoreId) (f : DmaF)
  /-- DMAWR (R215). -/
  | dmawr (c : CoreId) (f : DmaF)
  /-- DMARD2 (R215). -/
  | dmard2 (c : CoreId) (f : DmaF)
  /-- DMAWR2 (R215). -/
  | dmawr2 (c : CoreId) (f : DmaF)
  /-- DMA_UNIT_TRANSFER (R222). -/
  | dmaUnitTransfer (c : CoreId) (n : Nat) (linkOk : Bool)
  /-- DMA_COMPLETE (R216). -/
  | dmaComplete (c : CoreId) (n : Nat)
  /-- FILL (R135). -/
  | fill (c : CoreId) (f : FillF)
  /-- COPY (R135). -/
  | copy (c : CoreId) (f : FillF)
  /-- FILL_COPY_COMPLETE (R136). -/
  | fillCopyComplete (c : CoreId)
  /-- WOPEN (R132). -/
  | wopen (c : CoreId) (f : WinF)
  /-- WCLOSE (R132). -/
  | wclose (c : CoreId) (f : WinF)
  /-- SPACK (R271). -/
  | spack (c : CoreId) (f : SparseF)
  /-- SMMA (R272). -/
  | smma (c : CoreId) (f : SparseF)
  /-- HINIT (R276). -/
  | hinit (c : CoreId) (f : SparseF)
  /-- HADD (R277). -/
  | hadd (c : CoreId) (f : SparseF)
  /-- HMERGE (R279). -/
  | hmerge (c : CoreId) (f : SparseF)
  /-- FMASK (R287). -/
  | fmask (c : CoreId) (f : SparseF)
  /-- FCOUNT (R295). -/
  | fcount (c : CoreId) (f : SparseF)
  /-- SPARSE_OP_COMPLETE (R270). -/
  | sparseOpComplete (x : SparseEnd)
  /-- CORE_WATCHDOG (R79). -/
  | coreWatchdog (c : CoreId)
  /-- SEGMENT_WAKE_COMPLETE (R124). -/
  | segmentWakeComplete (c : CoreId) (seg : Fin 8)
  /-- MESSAGE_RECEIVE (R133). -/
  | messageReceive (c : CoreId) (flow : BitVec 16)
  /-- STITCH_FIRE (R145). -/
  | stitchFire (n : MeshNode)
  /-- FLIT_ARRIVE (R151). -/
  | flitArrive (n : MeshNode) (inp : Nat) (sb : BitVec 16) (flit : BitVec 256)
  /-- MESH_BRIDGE (R168). -/
  | meshBridge (n : MeshNode) (inp : Nat)
  /-- START_MARK (R161). `tatError` is a tatting error that fails it: the link on which it is found, named by its lower node, and the code
  (R202). -/
  | startMark (m : StartMark)
  /-- SETTLE_REQUEST (R162). -/
  | settleRequest (n : MeshNode)
  /-- TAT_ADD (R177). -/
  | tatAdd (at_ : TatNode) (p : RxPacket)
  /-- TAT_SET (R177). -/
  | tatSet (at_ : TatNode) (p : RxPacket)
  /-- TAT_TARGET (R177). -/
  | tatTarget (at_ : TatNode) (p : RxPacket)
  /-- TAT_READ (R177). -/
  | tatRead (at_ : TatNode) (p : RxPacket)
  /-- TAT_WAIT (R179). -/
  | tatWait (at_ : TatNode) (p : RxPacket)
  /-- TAT_WAKE (R184). -/
  | tatWake (at_ : TatNode) (p : RxPacket)
  /-- TAT_READ_REPLY (R184). -/
  | tatReadReply (at_ : TatNode) (p : RxPacket)
  /-- TAT_ARRIVE (R191). -/
  | tatArrive (at_ : TatNode) (p : RxPacket)
  /-- TAT_RELEASE (R191). -/
  | tatRelease (at_ : TatNode) (p : RxPacket)
  /-- TAT_ABORT (R196). -/
  | tatAbort (at_ : TatNode) (p : RxPacket)
  /-- TAT_ABORT_ACK (R197). -/
  | tatAbortAck (at_ : TatNode) (p : RxPacket)
  /-- TAT_LOCK (R194). -/
  | tatLock (at_ : TatNode) (p : RxPacket)
  /-- LAYER_PASS_CLOSE (R198). -/
  | layerPassClose
  /-- LAYER_BOUNDARY (R29). -/
  | layerBoundary
  /-- MESH_RELOCK (R167). -/
  | meshRelock (island : Island)
  /-- PASS_BOUNDARY (R31). -/
  | passBoundary
  /-- STEP_BOUNDARY (R481). -/
  | stepBoundary
  /-- DRAIN_BOUNDARY (R466). -/
  | drainBoundary
  /-- SYNC_CNT_WRITE (R199). -/
  | syncCntWrite (obj : BitVec 16) (v : BitVec 32)
  /-- SYNC_TGT_WRITE (R199). -/
  | syncTgtWrite (obj : BitVec 16) (v : BitVec 32)
  /-- SYNC_ADD_WRITE (R199). -/
  | syncAddWrite (obj : BitVec 16) (v : BitVec 32)
  /-- DRAM_TEMP_SAMPLE (R218). -/
  | dramTempSample (t : PhysTile) (layer : Fin 2) (q : QuadTemp)
  /-- REFRESH_RESTORE (R218). -/
  | refreshRestore (t : PhysTile) (layer : Fin 2)
  /-- CXL_MEM_READ (R224). -/
  | cxlMemRead (h : BitVec 36) (linkOk : Bool)
  /-- CXL_MEM_WRITE (R224). -/
  | cxlMemWrite (h : BitVec 36) (data : BitVec 512) (poisoned : Bool) (linkOk : Bool)
  /-- HOST_PATH_ERR_CLEAR (R224). -/
  | hostPathErrClear (again : Bool)
  /-- HOST_PATH_WDROP_CLEAR (R224). -/
  | hostPathWdropClear (again : Bool)
  /-- PD_MESH_ERR_CLEAR (R546). -/
  | pdMeshErrClear (d : DieId) (again : Bool)
  /-- CHUNK (R245). -/
  | chunk (d : DieId) (port : PortId) (m : Msg)
  /-- MANIFEST_PART (R238). -/
  | manifestPart (d : DieId) (port : PortId) (m : Msg)
  /-- NACK (R245). -/
  | nack (d : DieId) (port : PortId) (h : BitVec 512)
  /-- END (R250). -/
  | endMsg (d : DieId) (port : PortId) (h : BitVec 512)
  /-- CHUNK_REQ_RETRY (R245). -/
  | chunkReqRetry (d : DieId) (tag : BitVec 32)
  /-- WEIGHT_TIMEOUT (R245). -/
  | weightTimeout (d : DieId) (tag : BitVec 32)
  /-- BCAST_WAIT_EXPIRE (R250). -/
  | bcastWaitExpire
  /-- CHUNK_STAGE_COMPLETE (R239). -/
  | chunkStageComplete (d : DieId) (k : StagedChunk)
  /-- EPOCH_RELEASE (R255). -/
  | epochRelease (number : BitVec 16)
  /-- MASK_MESSAGE (R289). -/
  | maskMessage (d : DieId) (m : MeshMsg)
  /-- FOCUS_CTL_CLEAR (R299). -/
  | focusCtlClear
  /-- INTAKE_MESSAGE (R310). -/
  | intakeMessage (d : DieId) (m : MeshMsg)
  /-- GRANT (R316). -/
  | grant (d : DieId) (plane : Fin 2) (h : BitVec 512)
  /-- REFUSE (R317). -/
  | refuse (d : DieId) (h : BitVec 512)
  /-- RED_DATA (R319). -/
  | redData (d : DieId) (m : Msg)
  /-- RESULT (R324). -/
  | result (d : DieId) (h : BitVec 512)
  /-- RED_TIMEOUT (R326). -/
  | redTimeout (sk : Nat)
  /-- RED_SHARD_LOST (R326). -/
  | redShardLost
  /-- BARRIER (R336). -/
  | barrier (q : QueueId) (list : List (BitVec 16))
  /-- BROADCAST (R346). -/
  | broadcast (q : QueueId) (list : List (BitVec 16))
  /-- ALL_GATHER (R347). -/
  | allGather (q : QueueId) (list : List (BitVec 16))
  /-- REDUCE_SCATTER (R348). -/
  | reduceScatter (q : QueueId) (list : List (BitVec 16))
  /-- BIND (R339). -/
  | bind (q : QueueId) (list : List (BitVec 16))
  /-- UNBIND (R339). -/
  | unbind (q : QueueId) (list : List (BitVec 16))
  /-- COLL_DATA (R344). -/
  | collData (d : DieId) (m : Msg)
  /-- JOIN (R352). -/
  | join (d : DieId) (h : BitVec 512)
  /-- READY (R354). -/
  | ready (d : DieId) (h : BitVec 512)
  /-- COMMIT (R342). -/
  | commit (d : DieId) (h : BitVec 512)
  /-- COLL_ABORT_FRAME (R354). -/
  | collAbortFrame (d : DieId) (h : BitVec 512)
  /-- COLL_ABORT_ACK (R354). -/
  | collAbortAck (d : DieId) (h : BitVec 512)
  /-- DISPOSE (R355). -/
  | dispose (d : DieId) (h : BitVec 512)
  /-- ALREADY (R356). -/
  | already (d : DieId) (h : BitVec 512)
  /-- ESCALATE (R358). -/
  | escalate (d : DieId) (h : BitVec 512)
  /-- SYNC_UPDATE (R353). -/
  | syncUpdate (d : DieId) (h : BitVec 512)
  /-- COLL_TIMEOUT (R357). -/
  | collTimeout (id : CollId)
  /-- COLL_HALF_TIMEOUT (R358). -/
  | collHalfTimeout (id : CollId)
  /-- COLL_ABORTED_TIMEOUT (R354). -/
  | collAbortedTimeout (id : CollId)
  /-- LEADER_SILENCE_TIMEOUT (R360). -/
  | leaderSilenceTimeout (id : CollId)
  /-- COLL_ABORT (R356). -/
  | collAbort (tag : BitVec 32)
  /-- PORT_PRESENT (R375). -/
  | portPresent (p : PortId) (passive : Bool)
  /-- PORT_REMOVED (R375). -/
  | portRemoved (p : PortId)
  /-- MODULE_POWERED (R366). -/
  | modulePowered (p : PortId)
  /-- LINK_MODULE (R366). -/
  | linkModule (p : PortId)
  /-- TRAIN_LOCK (R370). -/
  | trainLock (p : PortId) (lanes : BitVec 8) (partnerFour : Bool)
  /-- TRAIN_TIMEOUT (R370). -/
  | trainTimeout (p : PortId)
  /-- HELLO (R372). -/
  | hello (p : PortId) (h : BitVec 512)
  /-- HELLO_RESEND (R372). -/
  | helloResend (p : PortId)
  /-- HELLO_TIMEOUT (R370). -/
  | helloTimeout (p : PortId)
  /-- LOCK_LOST (R370). -/
  | lockLost (p : PortId) (loss : LockLoss)
  /-- RETRAIN_TIMEOUT (R370). -/
  | retrainTimeout (p : PortId)
  /-- DOWN_RETRY (R370). -/
  | downRetry (p : PortId)
  /-- LANE_SER_WINDOW (R374). -/
  | laneSerWindow (p : PortId) (high : BitVec 8)
  /-- FLIT_RECEIVE (R379). -/
  | flitReceive (p : PortId) (flit : BitVec 2176) (uncorrectable : Bool)
  /-- FLIT_TRANSMIT (R359). -/
  | flitTransmit (p : PortId)
  /-- REPLAY_TIMEOUT (R379). -/
  | replayTimeout (p : PortId)
  /-- LEAVE (R380). -/
  | leave (p : PortId) (h : BitVec 512)
  /-- UNREACH (R380). -/
  | unreach (p : PortId) (h : BitVec 512)
  /-- REACH (R380). -/
  | reach (p : PortId) (h : BitVec 512)
  /-- AZ_CTL_WIDEN (R386). -/
  | azCtlWiden (p : PortId)
  /-- AZ_CTL_RETRAIN (R386). -/
  | azCtlRetrain (p : PortId)
  /-- AZ_CTL_DISABLE (R382). -/
  | azCtlDisable (p : PortId) (v : Bool)
  /-- AZ_CTL_LOCATE (R386). -/
  | azCtlLocate (p : PortId) (v : Bool)
  /-- LEAVE_TIMEOUT (R382). -/
  | leaveTimeout (p : PortId)
  /-- LOAD_PROGRAM (R88). -/
  | loadProgram (q : QueueId)
  /-- IMAGE_VALIDATION_DONE (R87). -/
  | imageValidationDone (bytes : List Byte)
  /-- RUN_PASS (R42). -/
  | runPass (q : QueueId) (table : List Byte)
  /-- SIGNAL_SYNC_ADD (R402). -/
  | signalSyncAdd (q : QueueId)
  /-- SIGNAL_SYNC_SET (R402). -/
  | signalSyncSet (q : QueueId)
  /-- SIGNAL_SYNC_TARGET (R402). -/
  | signalSyncTarget (q : QueueId)
  /-- WAIT_SYNC (R402). -/
  | waitSync (q : QueueId)
  /-- WAIT_TIMEOUT (R402). -/
  | waitTimeout (w : WaitLimit)
  /-- COPY_DESC (R406). -/
  | copyDesc (q : QueueId)
  /-- FILL_DESC (R406). -/
  | fillDesc (q : QueueId)
  /-- COPY_FILL_DONE (R406). -/
  | copyFillDone (n : Nat) (data : List Byte) (fin : CopyEnd)
  /-- EPOCH_SWITCH (R257). -/
  | epochSwitch (q : QueueId)
  /-- EPOCH_SWITCH_ADAPTER (R261). -/
  | epochSwitchAdapter (q : QueueId)
  /-- DESCRIPTOR_FETCH (R404). -/
  | descriptorFetch (q : QueueId) (r : FetchResult)
  /-- Q_TAIL_WRITE (R397). -/
  | qTailWrite (q : QueueId) (v : BitVec 32)
  /-- QUEUE_ENABLE (R398). -/
  | queueEnable (q : QueueId) (v : BitVec 32)
  /-- QUEUE_DISABLE (R398). -/
  | queueDisable (q : QueueId) (v : BitVec 32)
  /-- ABI_SEL_WRITE (R394). -/
  | abiSelWrite (v : BitVec 32)
  /-- MBX_DATA_WRITE (R409). -/
  | mbxDataWrite (m : MbxId) (v : BitVec 32)
  /-- MAILBOX_TAKE (R409). -/
  | mailboxTake (m : MbxId) (code : BitVec 16)
  /-- MAILBOX_POST (R409). -/
  | mailboxPost (m : MbxId) (v : BitVec 32)
  /-- MBX_FULL_CLEAR (R409). -/
  | mbxFullClear (m : MbxId)
  /-- MBX_REJ_CLEAR (R412). -/
  | mbxRejClear (m : MbxId) (again : Bool)
  /-- MAILBOX_DOMAIN_OFF (R411). -/
  | mailboxDomainOff (m : MbxId)
  /-- PING (R413). -/
  | ping (m : MbxId)
  /-- QUEUE_RESET (R413). -/
  | queueReset (m : MbxId)
  /-- DRAIN (R467). -/
  | drain (m : MbxId)
  /-- RESUME (R467). -/
  | resume (m : MbxId)
  /-- ABORT_PASS (R414). -/
  | abortPass (m : MbxId)
  /-- LOUPE_PING (R509). -/
  | loupePing
  /-- ATTEST (R509). -/
  | attest
  /-- GET_CERT (R509). -/
  | getCert
  /-- STAGE_CONFIG (R509). -/
  | stageConfig (bank : List Byte)
  /-- LOCATE (R509). -/
  | locate
  /-- CXL_RESET (R390). -/
  | cxlReset
  /-- CXL_LINK_DOWN (R491). -/
  | cxlLinkDown
  /-- MSIX_UNMASK (R395). -/
  | msixUnmask (v : Option (Fin 64))
  /-- UNSUPPORTED_ACCESS (R9). -/
  | unsupportedAccess (off : BitVec 26) (size : Nat) (write : Bool)
  /-- LOW_WORD_READ (R10). -/
  | lowWordRead (req : Nat) (r : ReadAt)
  /-- RC_COUNTER_READ (R13). -/
  | rcCounterRead (req : Nat) (off : BitVec 26) (events : ReadEvents)
  /-- REGISTER_WRITE (R12). -/
  | registerWrite (off : BitVec 26) (v : RegWrite)
  /-- LOUPE_TICK (R424). -/
  | loupeTick (t : TickSample)
  /-- DUTY_LAST_RESORT (R426). -/
  | dutyLastResort
  /-- FEED_VOLTAGE_CHANGE (R420). -/
  | feedVoltageChange (f : FeedId) (dV : Nat)
  /-- FEED_QUALIFIED (R420). -/
  | feedQualified (f : FeedId)
  /-- PWR_STAGE_FAULT (R422). -/
  | pwrStageFault (k : StageId)
  /-- STAGE_LATCH_OPEN (R422). -/
  | stageLatchOpen (k : StageId)
  /-- STAGE_JOIN (R422). -/
  | stageJoin (k : StageId)
  /-- EFUSE_TRIP (R423). -/
  | efuseTrip (t : PhysTile) (cause : TripCause)
  /-- THROTTLE_EVALUATION (R435). -/
  | throttleEvaluation
  /-- FAN_FAILURE (R437). -/
  | fanFailure (n : FanId)
  /-- FAN_LATCH_OPEN (R437). -/
  | fanLatchOpen (n : FanId)
  /-- FAN_INSERT (R540). -/
  | fanInsert (n : FanId)
  /-- COOLING_DEGRADED (R440). -/
  | coolingDegraded
  /-- COOLING_CLEAR (R440). -/
  | coolingClear
  /-- SET_POWER_LIMITS (R430). -/
  | setPowerLimits (l : PowerLimits)
  /-- CLEAR_POWER_LIMITS (R430). -/
  | clearPowerLimits
  /-- STANDBY_POWER_APPLIED (R449). -/
  | standbyPowerApplied
  /-- GRANT_PERMISSION (R450). -/
  | grantPermission (mgr : Fin 2)
  /-- REVOKE_PERMISSION (R450). -/
  | revokePermission (mgr : Fin 2)
  /-- WAVE_COMPLETE (R455). -/
  | waveComplete (r : List TileTest)
  /-- CALIBRATION_COMPLETE (R460). -/
  | calibrationComplete (failed : Option TileId)
  /-- DRAIN_ACTION (R467). -/
  | drainAction
  /-- RESUME_ACTION (R467). -/
  | resumeAction
  /-- COLD_RESTART (R448). -/
  | coldRestart
  /-- POWER_OFF (R473). -/
  | powerOff
  /-- FORCE_OFF (R473). -/
  | forceOff
  /-- POWER_DOWN_WAVE (R473). -/
  | powerDownWave
  /-- STAGE_CONFIGURATION (R465). -/
  | stageConfiguration (bank : List Byte) (mode : StageMode)
  /-- FIRMWARE_STAGE (R469). -/
  | firmwareStage (b : Bundle)
  /-- FIRMWARE_ACTIVATE (R468). -/
  | firmwareActivate (mode : StageMode)
  /-- FW_COMPONENT_READY (R470). -/
  | fwComponentReady (k : FwComponent)
  /-- FW_ACTIVATE (R471). -/
  | fwActivate (k : FwComponent)
  /-- DARNING_COLUMN_TEST_DONE (R482). -/
  | darningColumnTestDone (ci : ClusterId) (row : Fin 8) (pass : Bool)
  /-- DARNING_TILE_TEST_DONE (R484). -/
  | darningTileTestDone (d : Fin 2) (r : TileTest)
  /-- IMAGE_REREAD_DONE (R485). -/
  | imageRereadDone (t : TileId) (bytes : List Byte)
  /-- EFUSE_RESTORE_TIMER (R487). -/
  | efuseRestoreTimer (t : PhysTile)
  /-- LOUPE_WATCHDOG_EXPIRE (R491). -/
  | loupeWatchdogExpire
  /-- LOUPE_RECOVERY_TIMEOUT (R491). -/
  | loupeRecoveryTimeout
  /-- EARLY_BREAK (R492). -/
  | earlyBreak
  /-- EARLY_BREAK_POWER_OFF (R492). -/
  | earlyBreakPowerOff
  /-- SEATED_OPEN (R530). -/
  | seatedOpen
  /-- LEVER_CLOSE (R527). -/
  | leverClose (openMs : Nat) (seated : Bool)
  /-- CARTRIDGE_INSERT (R494). -/
  | cartridgeInsert (c : Cartridge)
  /-- LOCATE_PRESS (R506). -/
  | locatePress
  /-- LOCATE_HOLD (R517). -/
  | locateHold
  /-- DRAIN_PRESS (R506). -/
  | drainPress
  /-- DRAIN_HOLD (R506). -/
  | drainHold
  /-- PRESENCE_WINDOW_EXPIRE (R517). -/
  | presenceWindowExpire
  /-- ENROLL_KEY (R517). -/
  | enrollKey (slot : BitVec 8) (pub : List Byte)
  /-- REVOKE_KEY (R517). -/
  | revokeKey (slot : BitVec 8)
  /-- RAISE_OBJECT_VERSION (R513). -/
  | raiseObjectVersion (v : Nat)
  /-- SET_PANEL_LOCK (R506). -/
  | setPanelLock (v : Patch ChassisSet)
  /-- CLOCK_SET (R500). -/
  | clockSet (time : Patch Nat)
  /-- CLIENT_CONNECT (R500). -/
  | clientConnect (c : Client)
  /-- EVENT_PUSH_RETRY (R503). -/
  | eventPushRetry (sub : PushOf) (delivered : Bool)
  /-- STITCH_BANK_LOADED (R148). -/
  | stitchBankLoaded (n : MeshNode)
  /-- SYNC_UNIT_SEND (R184). -/
  | syncUnitSend (c : CoreId)
  /-- CARTRIDGE_REMOVE (R542). -/
  | cartridgeRemove
  /-- HOST_DIE_LOST (R491). -/
  | hostDieLost
  /-- LOUPE_RESTART_DONE (R491). -/
  | loupeRestartDone
  /-- MBX_DATA_READ (R411). -/
  | mbxDataRead (m : MbxId) (ack : Bool)
  /-- INSTALL_CERTIFICATE (R500). -/
  | installCertificate (k : CertItem)
  /-- EVENT_SUBSCRIPTION (R503). -/
  | eventSubscription (create : Bool) (sub : Nat)
  deriving DecidableEq, Repr

end Sys2Proof
end

