-- ==== Sys2Proof/Decode.lean ====
section
/-! DEFINITION. The table gives no row any bits, so no word of the table spells a command. What the spec itself encodes are the words of
a core's program: `decodeCore` reads the instruction that one spells (R52 to R54, R60, R64, R131, R183, R214, R268). -/

namespace Sys2Proof

/-- The command that a word spells by the table's bits: none, for no row of the table has bits. -/
def decodeTableWord (_nbits _w : Nat) : Option Instr := none

/-! ### The words of a core (R52, R53) -/

/-- The register field whose lowest bit is `lo`. -/
def regField (w : BitVec 64) (lo : Nat) : Reg := (w.extractLsb' lo 5).toFin

/-- Format S of R53. -/
def wordS (w : BitVec 64) : ScalarF := ⟨regField w 51, regField w 46, regField w 41, w.extractLsb' 0 32⟩

/-- Format L. -/
def wordL (w : BitVec 64) : LoadF := ⟨regField w 51, regField w 46, w.extractLsb' 0 32⟩

/-- Format B. -/
def wordB (w : BitVec 64) : BranchF := ⟨regField w 51, regField w 46, w.extractLsb' 0 32⟩

/-- Format C. -/
def wordC (w : BitVec 64) : CsrF := ⟨regField w 51, regField w 46, w.extractLsb' 32 12, w.extractLsb' 0 32⟩

/-- Format M. -/
def wordM (w : BitVec 64) : MmaF :=
  { acc := (w.extractLsb' 54 2).toFin, fmtA := w.extractLsb' 50 4, fmtB := w.extractLsb' 46 4, sa := regField w 41,
    sb := regField w 36, ss := regField w 31, za := w.getLsbD 30, kg := w.extractLsb' 21 8 }

/-- Format MA. -/
def wordMA (w : BitVec 64) : AccF :=
  ⟨(w.extractLsb' 54 2).toFin, w.extractLsb' 50 4, regField w 41, regField w 36, (w.extractLsb' 32 4).toFin⟩

/-- Format V. -/
def wordV (w : BitVec 64) : VecF :=
  { vd := regField w 51, va := regField w 46, vb := regField w 41, vc := regField w 36, pm := (w.extractLsb' 33 3).toFin,
    ty := w.extractLsb' 31 2, rm := w.getLsbD 30, ext := w.extractLsb' 0 30 }

/-- Format Q. -/
def wordQ (w : BitVec 64) : SendF :=
  ⟨w.extractLsb' 50 6, regField w 45, regField w 40, regField w 35, regField w 30, w.getLsbD 29⟩

/-- The format of R183. -/
def wordSync (w : BitVec 64) : SyncF :=
  ⟨regField w 51, regField w 46, regField w 41, w.extractLsb' 16 2, w.extractLsb' 0 16⟩

/-- The format of R214. -/
def wordDma (w : BitVec 64) : DmaF := ⟨regField w 51, regField w 46, regField w 41, regField w 36⟩

/-- FILL of R131; it has no SD. -/
def wordFill (w : BitVec 64) : FillF := ⟨0, regField w 51, regField w 46, regField w 41⟩

/-- COPY of R131; it has no SV. -/
def wordCopy (w : BitVec 64) : FillF := ⟨regField w 51, regField w 46, regField w 41, 0⟩

/-- WOPEN of R131. -/
def wordOpen (w : BitVec 64) : WinF := ⟨(w.extractLsb' 53 3).toFin, regField w 48, regField w 43⟩

/-- WCLOSE of R131; it has W alone. -/
def wordClose (w : BitVec 64) : WinF := ⟨(w.extractLsb' 53 3).toFin, 0, 0⟩

/-- The format of R268. -/
def wordSparse (w : BitVec 64) : SparseF :=
  { sd := regField w 51, sa := regField w 46, sb := regField w 41, ss := regField w 36, fmtA := w.extractLsb' 32 4,
    fmtB := w.extractLsb' 28 4, acc := (w.extractLsb' 26 2).toFin, za := w.getLsbD 25, bsp := w.getLsbD 24,
    kg := w.extractLsb' 16 8 }

/-! ### Opcodes (R54, R131, R183, R214, R268) -/

/-- The scalar opcodes, 0x01 to 0x3F. -/
def decodeScalar (c : CoreId) (w : BitVec 64) : Option Instr :=
  match (w.extractLsb' 56 8).toNat with
  | 0x01 => some (.nop c)
  | 0x10 => some (.add c (wordS w))
  | 0x11 => some (.addi c (wordS w))
  | 0x12 => some (.sub c (wordS w))
  | 0x13 => some (.subi c (wordS w))
  | 0x14 => some (.and c (wordS w))
  | 0x15 => some (.andi c (wordS w))
  | 0x16 => some (.or c (wordS w))
  | 0x17 => some (.ori c (wordS w))
  | 0x18 => some (.xor c (wordS w))
  | 0x19 => some (.xori c (wordS w))
  | 0x1A => some (.shl c (wordS w))
  | 0x1B => some (.shli c (wordS w))
  | 0x1C => some (.shr c (wordS w))
  | 0x1D => some (.shri c (wordS w))
  | 0x1E => some (.sar c (wordS w))
  | 0x1F => some (.sari c (wordS w))
  | 0x20 => some (.mul c (wordS w))
  | 0x21 => some (.muli c (wordS w))
  | 0x22 => some (.min c (wordS w))
  | 0x23 => some (.mini c (wordS w))
  | 0x24 => some (.max c (wordS w))
  | 0x25 => some (.maxi c (wordS w))
  | 0x26 => some (.slt c (wordS w))
  | 0x27 => some (.slti c (wordS w))
  | 0x28 => some (.sltu c (wordS w))
  | 0x29 => some (.sltui c (wordS w))
  | 0x2A => some (.lih c (wordS w))
  | 0x2C => some (.ld c (wordL w))
  | 0x2D => some (.ldw c (wordL w))
  | 0x2E => some (.st c (wordL w))
  | 0x2F => some (.stw c (wordL w))
  | 0x30 => some (.beq c (wordB w))
  | 0x31 => some (.bne c (wordB w))
  | 0x32 => some (.blt c (wordB w))
  | 0x33 => some (.bge c (wordB w))
  | 0x34 => some (.bltu c (wordB w))
  | 0x35 => some (.bgeu c (wordB w))
  | 0x36 => some (.jal c (wordB w))
  | 0x37 => some (.jr c (wordB w))
  | 0x38 => some (.csrr c (wordC w))
  | 0x39 => some (.csrw c (wordC w))
  | 0x3C => some (.fence c (w.extractLsb' 0 32))
  | 0x3D => some (.halt c)
  | _ => none

/-- The matrix and vector opcodes, 0x40 to 0x68. -/
def decodeVector (c : CoreId) (w : BitVec 64) : Option Instr :=
  match (w.extractLsb' 56 8).toNat with
  | 0x40 => some (.mma c (wordM w))
  | 0x41 => some (.accst c (wordMA w))
  | 0x42 => some (.accrd c (wordMA w))
  | 0x43 => some (.accwr c (wordMA w))
  | 0x44 => some (.accz c (wordMA w))
  | 0x50 => some (.vld c (wordL w))
  | 0x51 => some (.vst c (wordL w))
  | 0x52 => some (.vbcast c (wordV w))
  | 0x53 => some (.vmovs c (wordV w))
  | 0x58 => some (.vadd c (wordV w))
  | 0x59 => some (.vsub c (wordV w))
  | 0x5A => some (.vmul c (wordV w))
  | 0x5B => some (.vfma c (wordV w))
  | 0x5C => some (.vmax c (wordV w))
  | 0x5D => some (.vmin c (wordV w))
  | 0x5E => some (.vcmp c (wordV w))
  | 0x5F => some (.vsel c (wordV w))
  | 0x60 => some (.vrcp c (wordV w))
  | 0x61 => some (.vrsq c (wordV w))
  | 0x62 => some (.vexp2 c (wordV w))
  | 0x63 => some (.vlog2 c (wordV w))
  | 0x64 => some (.vcvt c (wordV w))
  | 0x65 => some (.vred c (wordV w))
  | 0x66 => some (.vand c (wordV w))
  | 0x67 => some (.vor c (wordV w))
  | 0x68 => some (.vxor c (wordV w))
  | _ => none

/-- The opcodes of the units, 0x80 to 0xC6. -/
def decodeUnits (c : CoreId) (w : BitVec 64) : Option Instr :=
  match (w.extractLsb' 56 8).toNat with
  | 0x80 => some (.send c (wordQ w))
  | 0x81 => some (.sendwait c (wordQ w))
  | 0x82 => some (.waitrx c (wordQ w))
  | 0x88 => some (.sadd c (wordSync w))
  | 0x89 => some (.sset c (wordSync w))
  | 0x8A => some (.stgt c (wordSync w))
  | 0x8B => some (.sread c (wordSync w))
  | 0x8C => some (.swait c (wordSync w))
  | 0x8D => some (.swaitv c (wordSync w))
  | 0x8E => some (.bar c (wordSync w))
  | 0x8F => some (.sabort c (wordSync w))
  | 0x90 => some (.dmard c (wordDma w))
  | 0x91 => some (.dmawr c (wordDma w))
  | 0x92 => some (.dmard2 c (wordDma w))
  | 0x93 => some (.dmawr2 c (wordDma w))
  | 0x98 => some (.fill c (wordFill w))
  | 0x99 => some (.copy c (wordCopy w))
  | 0x9A => some (.wopen c (wordOpen w))
  | 0x9B => some (.wclose c (wordClose w))
  | 0xC0 => some (.spack c (wordSparse w))
  | 0xC1 => some (.smma c (wordSparse w))
  | 0xC2 => some (.hinit c (wordSparse w))
  | 0xC3 => some (.hadd c (wordSparse w))
  | 0xC4 => some (.hmerge c (wordSparse w))
  | 0xC5 => some (.fmask c (wordSparse w))
  | 0xC6 => some (.fcount c (wordSparse w))
  | _ => none

/-- The instruction that a core's word spells, by its opcode and fields: a word with another opcode spells none. Which field values R54
allows is `Machine.decodable`; a word that it refuses is the event CORE_ILLEGAL_OP. -/
def decodeCore (c : CoreId) (w : BitVec 64) : Option Instr :=
  ((decodeScalar c w).or (decodeVector c w)).or (decodeUnits c w)

end Sys2Proof
end

