-- ==== Sys2Proof/Config.lean ====
section
/-! DEFINITION. What an implementation fixes, and the free values: constants with no body, so that nothing
can be proved of their values. Each is applied to the counter `free` of the state, or to what it depends on. -/

namespace Sys2Proof

/-- A byte that the spec calls undefined (R124, R139, R209). -/
opaque Config.freeByte : Nat → Byte

/-- A 32-bit value that the spec leaves open. -/
opaque Config.freeWord : Nat → Word

/-- A number of cycles that a timing the model does not hold has taken (R48, R119). -/
opaque Config.freeCycles : Nat → Nat

/-- The unit of region 0 at which the CONST share of a cluster begins: the engine chooses it (R205). -/
opaque Config.constPlace : Nat → Nat

/-- The KEY_ID of a Jalretan firmware key 0 to 3, in ROM (R510). -/
opaque Config.romKey : Nat → List Byte

/-- What the spec leaves open of a certificate of the module's chain, 0 identity, 1 manufacturing CA, 2 root CA, in DER: its serial number,
its validity, and its extensions (R518). -/
opaque Config.certSerial : Nat → List Byte
opaque Config.certValidity : Nat → List Byte
opaque Config.certExtensions : Nat → List Byte

/-- The 96-byte public value of a CA of the chain: 1 manufacturing CA, 2 root CA (R518). -/
opaque Config.caKey : Nat → List Byte

/-- The DER signature that the key of a certificate's issuer makes over it: 1 manufacturing CA, 2 root CA (R518). -/
opaque Config.caSign : Nat → List Byte → List Byte

/-- The FRU data that the module answers on SMBus (R531). -/
opaque Config.fru : List Byte

/-- The module's serial number in ASCII (R519). -/
opaque Config.serial : List Byte

/-- The 96-byte public value of the module's identity key (R510, R511). -/
opaque Config.identityKey : List Byte

/-- The signature that a Device ID key makes over a measurement report (R519). -/
opaque Config.attestSign : List Byte → List Byte

/-- The bank from which the first task after an install runs (R76). -/
opaque Config.firstBank : Nat → Bool

/-- The temperature in 1/16 °C by which a tile or DRAM layer counts all of whose sensors have failed (R433). -/
opaque Config.lostSensors : Nat → Int

end Sys2Proof
end

