-- ==== Sys2Proof/Machine/State.lean ====
section
/-! DEFINITION. The state of the module as plain data, its reset, and the reasons a step can stop.
The default of a field is its value at reset; where the spec gives none, entry 3 of the assumption log
names the value. -/

namespace Sys2Proof.Machine

open Sys2Proof

/-- A sparse table: entries in rising order of key. What an unlisted key reads as is said by the
accessor of the table. -/
abbrev Tab (α : Type) := List (Nat × α)

/-! ### The core (chapters 02, 04, 06, 07, 09) -/

/-- What a core is doing: no task; running its layer program; in HALT, waiting for the conditions of R70;
arrived at the layer-end barrier; stopped by a fault or by an abort (R80, R197). -/
inductive Run where
  | idle
  | running
  | halting
  | halted
  | stopped
  deriving DecidableEq, Repr

/-- The power state of a scratchpad segment (R124). -/
inductive SegState where
  | off
  | waking
  | on
  deriving DecidableEq, Repr

/-- An operation of the matrix queue, with the register values it took at issue (R48, R60, R270). `ord` is the number of
instructions issued before it, by which R80 finds the earlier of two faults. -/
inductive MxOp where
  | mma (f : MmaF) (a b : Nat) (sa sb : Nat) (pc : BitVec 11)
  | smma (f : SparseF) (a b : Nat) (sb : Nat) (pc : BitVec 11) (ord : BitVec 64)
  | accst (f : AccF) (a : Nat) (pc : BitVec 11)
  | accrd (f : AccF)
  | accwr (f : AccF) (v : BitVec 1024)
  | accz (f : AccF)
  deriving DecidableEq, Repr

/-- The MMA or SMMA that the MAC array runs, with the operand bytes it read (R59): A (one list for an
MMA, one for each strip of an SMMA), B, and both scale tables. -/
structure MacRun where
  op : MxOp
  a : List (List Byte)
  b : List Byte
  sa : List Byte
  sb : List Byte
  deriving DecidableEq, Repr

/-- A message of the send queue (R64, R66). -/
structure SendMsg where
  stream : BitVec 6
  src : Nat
  len : Nat
  off : BitVec 32
  syncId : BitVec 16
  syncInc : BitVec 16
  sig : Bool
  deriving DecidableEq, Repr

/-- A message being sent: the flits sent so far, the header flit included, and its SEQ (R65, R66). -/
structure Sending where
  msg : SendMsg
  sent : Nat
  seq : BitVec 16
  deriving DecidableEq, Repr

/-- A DMA operation (R215) with the number of its units that have moved. -/
structure DmaOp where
  write : Bool
  sp : Nat
  region : Nat
  off : Nat
  len : Nat
  rows : Nat
  stride : Nat
  next : Nat
  deriving DecidableEq, Repr

/-- An operation of the fill-and-copy queue (R135). -/
inductive FcOp where
  | fill (addr len : Nat) (pat : Word)
  | copy (dst src len : Nat)
  deriving DecidableEq, Repr

/-- The operations of the sparse queue (R270). -/
inductive SpKind where
  | spack
  | hinit
  | hadd
  | hmerge
  | fmask
  deriving DecidableEq, Repr

/-- An operation of the sparse queue with the register values it took at issue, and the number of instructions issued before it. -/
structure SpOp where
  kind : SpKind
  f : SparseF
  d : BitVec 64
  a : BitVec 64
  b : BitVec 64
  ss : BitVec 64
  pc : BitVec 11
  ord : BitVec 64
  deriving DecidableEq, Repr

/-- An entry of the sync unit's queue: a packet (R188), or the counts of an FCOUNT (R270, R295). -/
inductive SyncItem where
  | pkt (p : BitVec 96)
  | fcount (misses active : Word)
  deriving DecidableEq, Repr

/-- What the core waits for in the sync unit (R184, R191). -/
inductive SyncWait where
  | sread (id : BitVec 16) (sd : Reg)
  | swait (id : BitVec 16)
  | swaitv (id : BitVec 16) (v : Word)
  | bar (scope : BitVec 2) (k : BitVec 16)
  deriving DecidableEq, Repr

/-- The hash accumulator (R276–R278): table address, spill OFFSET and capacity, the records spilled and
those not yet written as a whole unit, and the entries that hold a key. -/
structure HashAcc where
  table : Nat
  spillOff : Nat
  cap : Nat
  spilled : Nat
  pend : List (BitVec 64)
  live : Nat
  deriving DecidableEq, Repr

/-- A remote-write window (R128, R142) with its received byte count. -/
structure Window where
  opened : Bool := false
  edge : Bool := false
  srcAny : Bool := false
  base : BitVec 20 := 0
  limit : BitVec 21 := 0
  gxLo : BitVec 8 := 0
  gxHi : BitVec 8 := 0
  gyLo : BitVec 8 := 0
  gyHi : BitVec 8 := 0
  rx : Word := 0
  deriving DecidableEq, Repr

/-- A stream of the core's stream table (R86). -/
structure StreamDesc where
  flow : BitVec 16
  dstGx : BitVec 8
  dstGy : BitVec 8
  win : Fin 8
  deriving DecidableEq, Repr

/-- A message whose header a core has judged and whose payload is still arriving (R67, R133): its header, whether the header passed,
the window and the base address that it had then, and the payload flits taken of those that the message has. -/
structure Accept where
  hdr : BitVec 256
  taken : Bool
  base : Nat
  done : Nat
  total : Nat
  deriving DecidableEq, Repr

/-- The registers a program sees (R47). -/
structure CoreRegs where
  s : Vector (BitVec 64) 32 := Vector.replicate 32 0
  pc : BitVec 11 := 0
  v : Vector (BitVec 1024) 32 := Vector.replicate 32 0
  p : Vector (BitVec 64) 8 := (Vector.replicate 8 0).set 0 (BitVec.allOnes 64)
  acc : Vector (Vector (BitVec 1024) 16) 4 := Vector.replicate 4 (Vector.replicate 16 0)
  deriving DecidableEq, Repr

/-- The queues and running operations of the core's units (R46, R48). -/
structure CoreUnits where
  mxQ : List MxOp := []
  mac : Option MacRun := none
  move : Option MxOp := none
  sendQ : List SendMsg := []
  sending : List Sending := []
  seqs : Tab (BitVec 16) := []
  dmaQ : List DmaOp := []
  dmaRun : List DmaOp := []
  fcQ : List FcOp := []
  fcRun : Option FcOp := none
  spQ : List SpOp := []
  spRun : Option SpOp := none
  syncQ : List SyncItem := []
  wait : Option SyncWait := none
  /-- the READ with which an SWAITV tests again waits for room in the queue (R184) -/
  readDue : Bool := false
  hash : Option HashAcc := none
  deriving DecidableEq, Repr

/-- The fault and error records of a core (R76, R107, R142, R171, R200, R226). `faultOrd` is the number of instructions issued before
the one whose fault is recorded (R80). -/
structure CoreRec where
  fault : Word := 0
  faultOrd : BitVec 64 := 0
  faultPc : Word := 0
  faultAddr : Word := 0
  numStatus : Word := 0
  perr : Word := 0
  perrMask : Word := 0
  winFault : Word := 0
  meshErr : Word := 0
  syncErr : Word := 0
  memErr : Word := 0
  memErrAddr : Word := 0
  deriving DecidableEq, Repr

/-- The counters of a core (R71, R141, R170, R200, R226, R298). -/
structure CoreCnt where
  cycle : BitVec 64 := 0
  instret : BitVec 64 := 0
  mxBusy : BitVec 64 := 0
  vxBusy : BitVec 64 := 0
  txBytes : BitVec 64 := 0
  idleSlots : Word := 0
  stale : Word := 0
  stallRd : Word := 0
  stallWr : Word := 0
  stallDma : Word := 0
  dmaYield : Word := 0
  flits : Vector Word 4 := Vector.replicate 4 0
  bars : Vector (BitVec 8) 3 := Vector.replicate 3 0
  barNext : Vector (BitVec 16) 3 := Vector.replicate 3 0
  tatStale : Word := 0
  /-- the packets that the router dropped for their LPASS, and its ALREADY_COMMITTED answers (R189, R196) -/
  routerStale : Word := 0
  routerLate : Word := 0
  waitCycles : Word := 0
  tatLate : Word := 0
  memStall : Word := 0
  memBytes : BitVec 64 := 0
  hspill : Word := 0
  spCycles : Word := 0
  spMatched : Word := 0
  spGroups : Word := 0
  spProbes : Word := 0
  deriving DecidableEq, Repr

/-- The task that a core runs: what the core entry of R86 gave it, the instruction-buffer bank it runs from (R76), and the
scratchpad carry of R126: `prevInstall` is the install whose image the last task ran from, 0 for a slice's. -/
structure Task where
  lpass : BitVec 32 := 0
  seg : BitVec 8 := 0
  streams : List StreamDesc := []
  bank : Bool := false
  carryValid : Bool := false
  carried : BitVec 8 := 0
  prevInstall : Nat := 0
  prevCommitted : Bool := false
  /-- the last task committed, so the segments that the next one does not use go OFF (R124) -/
  segsDue : Bool := false
  tauP : Word := 0
  tau : Word := 0
  emin : BitVec 8 := 0
  deriving DecidableEq, Repr

/-- The scratchpad of a core: the cells written since their segment entered ON, the halfwords whose stored
parity disagrees (word index and mask; R138), and the segment states. -/
structure Spad where
  cells : List Host.Cell := []
  upset : Tab (BitVec 16) := []
  segs : Vector SegState 8 := Vector.replicate 8 .off
  deriving DecidableEq, Repr

/-- A flit held at a router or port-die input with its TAG (R151). -/
structure Held where
  tag : BitVec 6
  flit : BitVec 256
  deriving DecidableEq, Repr

/-- A router (R145–R151, R170): its two stitch banks, the running slot count, the hold queues of N, E, S, W
and LOCAL, and their largest occupancies. -/
structure Router where
  table : List (BitVec 64) := []
  next : Option (List (BitVec 64)) := none
  loaded : Bool := false
  slot : Nat := 0
  running : Bool := false
  settled : Bool := false
  hold : Vector (List Held) 5 := Vector.replicate 5 []
  holdMax : Vector Nat 5 := Vector.replicate 5 0
  deriving DecidableEq, Repr

/-- A logical core with its router. -/
structure Core where
  run : Run := .idle
  regs : CoreRegs := {}
  units : CoreUnits := {}
  recs : CoreRec := {}
  cnt : CoreCnt := {}
  task : Task := {}
  wins : Vector Window 8 := Vector.replicate 8 {}
  latch : Tab Word := []
  spad : Spad := {}
  ibuf0 : List (BitVec 64) := []
  ibuf1 : List (BitVec 64) := []
  rx : List (BitVec 16 × BitVec 256) := []
  /-- the messages under way, by their flow -/
  accepts : Tab Accept := []
  router : Router := {}
  status : List Word := []
  deriving DecidableEq, Repr

/-! ### Clusters, sync objects and the tatting mesh (chapters 06, 07) -/

/-- An entry of an object's wait list (R176, R189): the requester's coordinates, the LPASS recorded, and whether the entry stands in
the sync spill because the home's pool was full. -/
structure Waiter where
  gx : BitVec 8
  gy : BitVec 8
  lpass : BitVec 8
  spill : Bool := false
  deriving DecidableEq, Repr

/-- A sync object (R174). -/
structure SyncObj where
  count : Word := 0
  target : Word := 0
  waiters : List Waiter := []
  deriving DecidableEq, Repr

/-- A hub or the root as a gatherer (R191, R192, R197): one bit for each child, per kind of arrival. `num` and
`arr` are the barrier awaited and its arrivals, for scopes cluster, tile and engine. -/
structure Hub where
  halted : BitVec 64 := 0
  settled : BitVec 64 := 0
  acks : BitVec 64 := 0
  acksR : BitVec 64 := 0
  locks : BitVec 64 := 0
  num : Vector (BitVec 16) 3 := Vector.replicate 3 0
  arr : Vector (BitVec 64) 3 := Vector.replicate 3 0
  stale : Word := 0
  /-- the ALREADY_COMMITTED answers that the hub has received (R196) -/
  late : Word := 0
  deriving DecidableEq, Repr

/-- Stacked memory of one cluster (R203–R210): the cells that differ from what an unlisted address reads as; the
address ranges [lo, hi) whose contents R209 calls lost, and those written since the tile was powered up; the units that fail the stored
check, and those of which a DMA has found it since they were last written (R223). -/
structure StackMem where
  cells : List Host.Cell := []
  lost : List (Nat × Nat) := []
  written : List (Nat × Nat) := []
  bad : List Nat := []
  failed : List Nat := []
  deriving DecidableEq, Repr

/-- A cluster: stacked memory, CONST share (region 7), the 64 sync objects, the hub, and the throttle ladder. -/
structure Cluster where
  mem : StackMem := {}
  consts : List Byte := []
  objs : Tab SyncObj := []
  hub : Hub := {}
  rung : Nat := 0
  hotMs : Nat := 0
  coolMs : Nat := 0
  /-- ms at rung 3 or below without a break (R440) -/
  lowMs : Nat := 0
  clock : BitVec 2 := 0
  deriving DecidableEq, Repr

/-- The decision on a layer pass or a collective instance (R196, R342, R354). -/
inductive Decision where
  | opened
  | prepared
  | aborted
  | committed
  | closed
  deriving DecidableEq, Repr

/-- The abort classes of R195. -/
inductive AbortClass where
  | hardware
  | external
  | program
  deriving DecidableEq, Repr

/-- What layer pass runs (R26, R247, R343). -/
inductive LpKind where
  | work
  | load
  | coll
  deriving DecidableEq, Repr

/-- Where a hardware error arose (R476). -/
inductive Site where
  | core (c : CoreId)
  | slice (ci : ClusterId) (slice layer : Nat)
  | link (c : CoreId) (inp : Nat)
  | bridge (c : CoreId) (inp : Nat)
  /-- the tatting link between a node and the node above it -/
  | tatLink (n : TatNode)
  | edge (d : DieId) (link : Nat)
  | none
  deriving DecidableEq, Repr

/-- The mode of a focus layer pass (R283), coded as SP_FOCUS.MODE. -/
inductive FocusMode where
  | exact
  | bounded
  | full
  deriving DecidableEq, Repr

/-- The layer pass in flight (R161, R196, R477). -/
structure LayerPass where
  kind : LpKind
  entry : Nat
  number : BitVec 32
  started : Bool := false
  markFails : Nat := 0
  decision : Decision := .opened
  first : BitVec 16 := 0
  hw : Option (BitVec 16) := none
  ext : Option (BitVec 16) := none
  prog : Option (BitVec 16) := none
  site : Site := .none
  held : List (BitVec 16 × Word) := []
  heldFocus : List (Word × Word) := []
  settling : Bool := false
  slip : Bool := false
  runs : Nat := 1
  fmode : FocusMode := .full
  sampled : Bool := false
  escalated : Bool := false
  masked : Bool := false
  /-- the manifest of a load slice and the chunks assigned to it (R247) -/
  loadOf : Option (Bool × BitVec 16) := none
  chunks : List (BitVec 32) := []
  /-- of those, the ones written in this run -/
  wrote : List (BitVec 32) := []
  inst : Option CollId := none
  /-- the units that failed their stored check in an earlier run, in this one, and in both with no write between (R223): cluster, region,
  offset -/
  memPrev : List (ClusterId × Nat × Nat) := []
  memNow : List (ClusterId × Nat × Nat) := []
  memAgain : List (ClusterId × Nat × Nat) := []
  /-- of a collective slice, the results and the chunks of the contribution that it moves (R343) -/
  moves : Nat × Nat := (0, 0)
  /-- DISPOSE of the leader for a bound instance (R342, R355): the code, or `none` for a re-run. -/
  dispose : Option (Option (BitVec 16)) := none
  /-- every ABORT_ACK has been gathered (R196) -/
  acked : Bool := false
  /-- a run of this layer pass has started: a later one is a re-run from the same bank (R76) -/
  began : Bool := false
  /-- the value of `runtimeRuns` in every run of this layer pass: its re-runs take the bank of the first (R76) -/
  bankRun : Nat := 0
  /-- the number of the first run, and the site of the error of the run before this one (R480) -/
  ident : BitVec 32 := 0
  prevSite : Site := .none
  deriving DecidableEq, Repr

/-- A packet on a link of the tatting mesh (R187): the nodes at the link's two ends, the node that first sent the packet, and its 96 bits.
`site` is the site of the error for which an ABORT was raised: it stands for the records that Loupe reads (R476). -/
structure Flight where
  dst : TatNode
  src : TatNode
  sender : TatNode
  bits : BitVec 96
  site : Site := .none
  deriving DecidableEq, Repr

/-- The root on the host die (R186, R196), with the objects 0xC000–0xFFFF that it homes (R175). -/
structure Tat where
  hub : Hub := {}
  dieSettled : BitVec 8 := 0
  dieAcks : BitVec 8 := 0
  tiles : Tab Hub := []
  objs : Tab SyncObj := []
  flight : List Flight := []
  stale : Word := 0
  late : Word := 0
  relock : Bool := false
  /-- the port dies that have reported lock (R194) -/
  dieLocks : BitVec 8 := 0
  /-- the replies of READ that reached a shuttle -/
  shuttleReplies : List (BitVec 16 × Word) := []
  /-- the packets that the shuttles dropped for their LPASS, and their ALREADY_COMMITTED answers (R189, R196) -/
  shuttleStale : Vector Word 4 := Vector.replicate 4 0
  shuttleLate : Vector Word 4 := Vector.replicate 4 0
  /-- the site and the code of a tatting error that came between layer passes: it fails the next start mark (R202) -/
  markErr : Option (Site × BitVec 16) := none
  deriving DecidableEq, Repr

/-! ### The program image (chapters 02, 05, 07, 09) -/

/-- A layer entry (R85). -/
structure LayerEntry where
  layerId : Nat := 0
  dir : Nat := 0
  flags : BitVec 8 := 0
  chunks : Nat := 0
  cycles : Nat := 0
  energy : Nat := 0
  wdog : Nat := 0
  plan : Nat := 0
  rank : Nat := 0
  focusIndex : Nat := 0
  deriving DecidableEq, Repr

/-- A core entry with its program, stream table and window descriptors (R86, R130). -/
structure CoreProg where
  place : Nat
  layer : Nat
  core : Nat
  text : List (BitVec 64)
  seg : BitVec 8
  streams : List StreamDesc
  wins : List (BitVec 128)
  deriving DecidableEq, Repr

/-- A flow of a stitch plan (R156). -/
structure Flow where
  srcGx : Nat
  srcGy : Nat
  delivery : Nat
  coreDests : Nat
  edgeDests : Nat
  flags : BitVec 8
  srcSlots : Nat
  deriving DecidableEq, Repr

/-- A stitch plan (R155–R158): router tables by core and edge tables by port die; a table that is not listed
is empty. -/
structure Plan where
  place : Nat
  index : Nat
  period : Nat
  flows : List Flow
  routers : Tab (List (BitVec 64))
  edges : Tab (List (BitVec 64))
  total : Nat
  maxDelivery : Nat
  deriving DecidableEq, Repr

/-- The region sizes of one cluster in MiB (R206). -/
structure Layout where
  act : Nat := 0
  resid : Nat := 0
  spill : Nat := 0
  wAll : Nat := 0
  wMixed : Nat := 0
  deriving DecidableEq, Repr

/-- A predictor record (R284). -/
structure FocusRec where
  entry : Nat
  mode : Nat
  sampleN : Nat
  missLimit : Nat
  deriving DecidableEq, Repr

/-- A program image (R82–R86, R206, R284, R545), parsed. A core entry, layout or CONST share that is not listed
is empty. -/
structure Image where
  format : Nat
  minAbi : BitVec 16
  places : BitVec 4
  training : Bool
  span : List (BitVec 16)
  buildId : BitVec 64
  tableDigest : List Byte
  size : Nat
  layers : List LayerEntry
  progs : List CoreProg
  plans : List Plan
  layouts : Tab Layout
  consts : Tab (List Byte)
  focus : List FocusRec
  deriving DecidableEq, Repr

/-! ### Port dies (chapters 01, 05, 08, 09, 10) -/

/-- A chunk request outstanding (R244, R245): the tag, the manifest, the chunk index or manifest part, the shard, the
OBJECT, the row mask (R292), the failures so far, and whether it waits out the 1 ms after a NACK. -/
structure ChunkReq where
  tag : BitVec 32
  number : BitVec 16
  adapter : Bool
  index : BitVec 32
  part : Bool
  shard : BitVec 16
  object : BitVec 64
  mask : Option (BitVec 16)
  fails : Nat
  waiting : Bool
  deriving DecidableEq, Repr

/-- A chunk in the fetch buffer (R239): its manifest, its index, its payload, and the failures it has had (R245). -/
structure ChunkBuf where
  number : BitVec 16
  adapter : Bool
  index : BitVec 32
  lace : Bool
  mask : Option (BitVec 16)
  wire : List Byte
  fails : Nat
  deriving DecidableEq, Repr

/-- A chunk after re-quantisation: element data and scale bytes (R241). -/
structure LensChunk where
  index : BitVec 32
  elems : List Byte
  scales : List Byte
  mask : Option (BitVec 16)
  deriving DecidableEq, Repr

/-- A message that a port die injects on a flow (R242): its flits, the next first, and the chunk it is of. -/
structure Inject where
  flow : BitVec 16
  chunk : Option (BitVec 32)
  flits : List (BitVec 256)
  deriving DecidableEq, Repr

/-- An intake range of a layer pass (R310, R340) with the bytes received. -/
structure IntakeRange where
  lo : Nat
  len : Nat
  sketch : Option Nat
  tag : BitVec 32
  got : Nat
  deriving DecidableEq, Repr

/-- A port die (R18). -/
structure Die where
  table : List (BitVec 64) := []
  next : Option (List (BitVec 64)) := none
  loaded : Bool := false
  slot : Nat := 0
  running : Bool := false
  settled : Bool := false
  hold : Tab (List Held) := []
  rx : List (BitVec 16 × BitVec 256) := []
  inject : List Inject := []
  seqs : Tab (BitVec 16) := []
  meshErr : Word := 0
  meshSlot : Word := 0
  fetch : List ChunkBuf := []
  /-- the chunks that stay in the fetch buffer until their relays have been sent (R251) -/
  relays : List ChunkBuf := []
  lens : List LensChunk := []
  /-- the chunks still to be injected in the layer pass that runs, in order, with their row masks -/
  due : List (BitVec 32 × Option (BitVec 16)) := []
  reqs : List ChunkReq := []
  nextTag : BitVec 32 := 0
  wiStale : BitVec 8 := 0
  wiRetries : BitVec 8 := 0
  wiIdle : Word := 0
  checkErrs : Nat := 0
  maskMain : List Byte := []
  maskCatch : List Byte := []
  mainMsgs : Nat := 0
  catchMsgs : Nat := 0
  mainDone : Bool := false
  catchDone : Bool := false
  ranges : List IntakeRange := []
  intake : List Host.Cell := []
  rot : Nat := 0
  inbox : List (PortId × BitVec 2 × List Byte) := []
  /-- the packets that the die dropped for their LPASS, and its ALREADY_COMMITTED answers (R189, R196) -/
  tatStale : Word := 0
  tatLate : Word := 0
  deriving DecidableEq, Repr

/-! ### Weights (chapter 08) -/

/-- A layer entry of a manifest (R234). -/
structure ManLayer where
  entry : Nat
  streamFirst : Nat
  streamCount : Nat
  resFirst : Nat
  resCount : Nat
  deriving DecidableEq, Repr

/-- A chunk entry (R235). -/
structure ManChunk where
  shard : BitVec 16
  flags : BitVec 8
  pieces : Nat
  firstPiece : Nat
  object : BitVec 64
  wireLen : Nat
  decLen : Nat
  decCrc : BitVec 32
  die : Nat
  formats : BitVec 8
  deriving DecidableEq, Repr

/-- A piece entry (R236). -/
structure ManPiece where
  sel : Nat
  dest : Nat
  target : Nat
  srcOff : Nat
  rowBytes : Nat
  srcStride : Nat
  rows : Nat
  dstOff : Nat
  win : Nat
  flags : BitVec 8
  syncId : BitVec 16
  syncInc : BitVec 16
  deriving DecidableEq, Repr

/-- An adapter slot entry of a manifest (R259). -/
structure ManSlot where
  slot : Nat
  rank : Nat
  off : Nat
  size : Nat
  deriving DecidableEq, Repr

/-- A sketch entry of a scale table (R307). -/
structure SketchEntry where
  entry : Nat
  layerId : BitVec 16
  mside : BitVec 8
  die : Nat
  shard : BitVec 16
  rows : Nat
  cols : Nat
  e0 : Int
  e1 : Int
  e2 : Int
  intakeOff : Nat
  chunks : Nat
  deriving DecidableEq, Repr

/-- A scale table (R305–R307). -/
structure ScaleTable where
  group : BitVec 16
  levels : Nat
  primary : Nat
  control : BitVec 16
  members : List (BitVec 14 × Nat)
  sketches : List SketchEntry
  deriving DecidableEq, Repr

/-- A row-group entry (R286). -/
structure RowGroup where
  chunk : Nat
  decLen : Nat
  decCrc : BitVec 32
  firstPiece : Nat
  pieces : Nat
  deriving DecidableEq, Repr

/-- A focus header of a manifest (R285) with its row groups and codes. -/
structure FocusHdr where
  entry : Nat
  sketchDie : Nat
  sketchWin : Nat
  sketchFlow : Nat
  emin : BitVec 8
  sketchDst : Nat
  mainEchoDst : Nat
  catchEchoDst : Nat
  maskMsgs : List Nat
  catchMsgs : List Nat
  groups : List RowGroup
  codes : List Byte
  deriving DecidableEq, Repr

/-- A manifest (R233–R236), parsed. -/
structure Manifest where
  version : Nat
  kind : Nat
  number : BitVec 16
  baseEpoch : BitVec 16
  buildId : BitVec 64
  layers : List ManLayer
  chunks : List ManChunk
  pieces : List ManPiece
  slots : List ManSlot
  scale : Option ScaleTable
  focus : List FocusHdr
  deriving DecidableEq, Repr

/-- A live epoch (R255), CURRENT or DRAINING, with the weight slot that it holds, if it holds one (R207). -/
structure Epoch where
  number : BitVec 16
  slot : Option Nat
  man : Manifest
  deriving DecidableEq, Repr

/-- The states of a load (R255, R264). -/
inductive LoadState where
  | fetching
  | waiting
  | loading
  | complete
  deriving DecidableEq, Repr

/-- The load under way of an EPOCH_SWITCH (R250, R255, R257). -/
structure Load where
  q : QueueId
  ticket : Nat
  adapter : Bool
  number : BitVec 16
  role : BitVec 8
  shard : BitVec 16
  group : BitVec 16
  bcastMs : Nat
  st : LoadState
  parts : Tab (List Byte)
  size : Nat
  man : Option Manifest
  slot : Option Nat
  loaded : List (BitVec 32)
  relayed : List (BitVec 8 × BitVec 32)
  /-- the chunks that a READER has sent to its group (R250) -/
  sent : List (BitVec 32) := []
  ended : Bool
  /-- the adapter slots that its manifest names have become LOADING (R261) -/
  marked : Bool := false
  /-- the failures of each chunk within the load (R263) -/
  fails : Tab Nat := []
  deriving DecidableEq, Repr

/-- A chunk to be fetched again (R249), with its failures so far (R263). -/
structure Refetch where
  number : BitVec 16
  adapter : Bool
  index : BitVec 32
  fails : Nat := 0
  deriving DecidableEq, Repr

/-- The states of an adapter slot (R260). -/
inductive SlotState where
  | empty
  | loading
  | ready
  deriving DecidableEq, Repr

/-- An adapter slot: its directory entry (R260). -/
structure Adapter where
  st : SlotState := .empty
  man : BitVec 16 := 0
  rank : Nat := 0
  baseEpoch : BitVec 16 := 0
  off : Nat := 0
  size : Nat := 0
  gen : BitVec 16 := 0
  deriving DecidableEq, Repr

/-- Epochs, the load under way, adapters, and the ingress registers (R264). -/
structure Weights where
  current : Option Epoch := none
  draining : Option Epoch := none
  load : Option Load := none
  refetch : List Refetch := []
  adapters : Tab Adapter := []
  adapterMans : List Manifest := []
  /-- the CURRENT epoch was released for a waiting one, and passes are held (R255) -/
  held : Bool := false
  err : Word := 0
  errIndex : Word := 0
  deriving DecidableEq, Repr

/-! ### Reduction (chapter 10) -/

/-- The states of a sketch (R325). -/
inductive SketchState where
  | intake
  | claim
  | tree
  | ring
  | done
  | ended
  deriving DecidableEq, Repr

/-- A partial sum or result of one chunk on the ring (R319): scale index, level, the values, OVF, the blocks
substituted and the contributions. -/
structure RedSum where
  k : Nat
  level : Nat
  seq : Nat
  twin : Bool
  vals : List Int
  ovf : Bool
  nfs : Bool
  blocks : Nat
  contrib : Nat
  deriving DecidableEq, Repr

/-- A sketch of a step (R311, R325, R330): its FP32 elements as bit patterns once its layer pass has committed, and, for the
ring, what has arrived too early and this member's level-1 outputs. -/
structure Sketch where
  index : Nat
  ent : SketchEntry
  step : BitVec 32
  elems : List (BitVec 32) := []
  st : SketchState := .intake
  k : Nat := 0
  retries : Nat := 0
  refused : Bool := false
  nfsSeen : Bool := false
  sampled : Bool := false
  nfsBlocks : Nat := 0
  status : BitVec 16 := 0
  path : Nat := 2
  claimed : BitVec 2 := 0
  granted : BitVec 2 := 0
  asked : Bool := false
  early : List RedSum := []
  lvl1 : List RedSum := []
  deriving DecidableEq, Repr

/-! ### Collectives (chapter 11) -/

/-- A binding (R339): the layer entry, the TAG and the descriptor that made it. -/
structure Binding where
  entry : Nat
  tag : BitVec 32
  desc : BitVec 1024
  deriving DecidableEq, Repr

/-- A chunk that a port die holds for an instance (R344): the TAG of its operation, the member index that sent it (`none` for this
member's own contribution), the block, the offset, the contributions summed, whether the values are FP32 sums, and the data. -/
structure CollChunk where
  tag : BitVec 32
  src : Option Nat
  block : Nat
  off : Nat
  contrib : Nat
  wide : Bool
  data : List Byte
  deriving DecidableEq, Repr

/-- A collective instance on this engine (R334, R354): the member's decision `st` and, on the leader, the decision `lead` with the
first code and the first of each class. One that this engine has not started holds what frames brought to the leader (R357).
`joins` are the DIGEST and EPOCH by member index; `ready` and `acks` are member indexes. `held` are the chunks a port die
has, `results` those not yet written to DST, `resDone` the result bytes written or injected. `sent` counts the chunks of the
contribution that slices have moved to the port dies, and `moved` says that they have moved them all. `ahead` are chunks of the next
attempt that came before this member's DISPOSE. -/
structure Inst where
  id : CollId
  members : List (BitVec 14) := []
  me : Nat := 0
  desc : BitVec 1024 := 0
  binds : List Binding := []
  started : Bool := false
  st : Decision := .opened
  lead : Decision := .opened
  epoch : BitVec 16 := 0
  digest : BitVec 32 := 0
  attempt : Nat := 0
  first : BitVec 16 := 0
  hw : Option (BitVec 16) := none
  ext : Option (BitVec 16) := none
  prog : Option (BitVec 16) := none
  joins : List (Nat × BitVec 32 × BitVec 16) := []
  ready : List Nat := []
  acks : List Nat := []
  esc : Bool := false
  sentReady : Bool := false
  q : Option (QueueId × Nat) := none
  held : List CollChunk := []
  results : List CollChunk := []
  resDone : Nat := 0
  moved : Bool := false
  sent : Nat := 0
  ahead : List CollChunk := []
  deriving DecidableEq, Repr

/-- Collectives: instances, bindings, the lost list, and the registers (R363). -/
structure Coll where
  insts : List Inst := []
  bindings : List Binding := []
  binds : List (Bool × Binding × QueueId × Nat) := []
  lost : List (BitVec 14) := []
  /-- the span of the installed image has lost a member (R35, R361) -/
  spanGone : Bool := false
  /-- members lost to the group of the CURRENT epoch (R361) -/
  groupGone : List (BitVec 14) := []
  lastLost : BitVec 14 := 0
  err : Word := 0
  errId : Word := 0
  late : Word := 0
  escs : Word := 0
  timeouts : Word := 0
  stale : Word := 0
  deriving DecidableEq, Repr

/-! ### Azram ports (chapter 12) -/

/-- The states of a port (R370), coded as AZ_STAT.STATE. -/
inductive PortState where
  | dark
  | detect
  | train
  | negotiate
  | active
  | retrain
  | down
  | leaving
  deriving DecidableEq, Repr

/-- A frame to be sent: its context (VC0, VC1, VC2, VC2 with ESC, VC3 as 0 to 4; R377), ROUTE word and bytes. -/
structure Frame where
  ctx : Fin 5
  route : BitVec 32
  bytes : List Byte
  deriving DecidableEq, Repr

/-- A data flit in the replay buffer (R379). -/
structure TxFlit where
  fseq : BitVec 16
  ctx : Fin 5
  sof : Bool
  eof : Bool
  last : BitVec 8
  route : BitVec 32
  payload : BitVec 2048
  deriving DecidableEq, Repr

/-- The negotiated link and status registers of a port (R386). `wide` is a training that may use 8 lanes (R374), `relayOff` a port
whose partner has left (R380), and `roleWas` the role with which a port leaves while another is configured (R367, R382). -/
structure PortLink where
  version : BitVec 2 := 0
  lanes : Nat := 0
  half : Bool := false
  lastCode : BitVec 16 := 0
  peerNode : Bool := false
  peerId : BitVec 15 := 0
  peerPort : BitVec 16 := 0
  fabricF : BitVec 16 := 0
  plane : Bool := false
  pversions : BitVec 3 := 0
  features : BitVec 4 := 0
  partner : Option (BitVec 16) := none
  serHigh : BitVec 8 := 0
  failed : BitVec 8 := 0
  inUse : BitVec 8 := 0
  err : Word := 0
  wide : Bool := true
  relayOff : Bool := false
  roleWas : Option Nat := none
  deriving DecidableEq, Repr

/-- The counters of a port (R385). -/
structure PortCnt where
  fecCorr : Word := 0
  fecUncorr : Word := 0
  crcErr : Word := 0
  replays : Word := 0
  retrains : Word := 0
  downs : Word := 0
  lost : Word := 0
  xdie : Word := 0
  refused : Word := 0
  txf : Vector Word 4 := Vector.replicate 4 0
  rxf : Vector Word 4 := Vector.replicate 4 0
  deriving DecidableEq, Repr

/-- The transmitter and receiver of a port (R359, R376–R379). `begun` holds each frame of which a flit was sent and not
every flit is acknowledged, with the FSEQ of its last flit once that is sent. -/
structure PortXfer where
  txq : Vector (List Frame) 5 := Vector.replicate 5 []
  begun : List (Frame × Option (BitVec 16)) := []
  /-- the VC2 flits sent and the VC2 credits returned since link up, and the VC2 frames sent whole, each with the first of these counts at
  its last flit: it is acknowledged once as many credits have come back (R342) -/
  vc2Sent : Nat := 0
  vc2Back : Nat := 0
  owed : List (Frame × Nat) := []
  sentOf : Vector Nat 5 := Vector.replicate 5 0
  deficit : Vector Nat 3 := Vector.replicate 3 0
  turn : Nat := 0
  credits : Vector Nat 4 := Vector.replicate 4 0
  lastCred : Vector (BitVec 12) 4 := Vector.replicate 4 0
  replay : List TxFlit := []
  resend : List TxFlit := []
  nextSeq : BitVec 16 := 0
  expSeq : BitVec 16 := 0
  nakSent : Bool := false
  nakDue : Bool := false
  freed : Vector (BitVec 12) 4 := Vector.replicate 4 0
  credTurn : Nat := 0
  replaySeq : BitVec 16 := 0
  replayRuns : Nat := 0
  rxAsm : Vector (List Byte) 5 := Vector.replicate 5 []
  rxRoute : Vector (BitVec 32) 5 := Vector.replicate 5 0
  deriving DecidableEq, Repr

/-- An Azram port. -/
structure Port where
  st : PortState := .dark
  present : Bool := false
  passive : Bool := false
  modulePower : Bool := false
  disable : Bool := false
  locate : Bool := false
  capped : Bool := true
  /-- the port is still to be widened after full calibration (R460) -/
  widenDue : Bool := false
  link : PortLink := {}
  cnt : PortCnt := {}
  xfer : PortXfer := {}
  deriving DecidableEq, Repr

/-! ### Passes and configuration (chapters 01, 13, 15) -/

/-- The configuration fields of a bank (R463); the defaults are those of the table. -/
structure Cfg where
  engineId : BitVec 14 := 0
  cxlWidth : Nat := 0
  rackPosition : Nat := 0
  memMode : Nat := 0
  window : Bool := false
  adapterMib : Nat := 0
  weightTimeoutMs : Nat := 200
  redTimeoutMs : Nat := 2000
  portRole : BitVec 64 := 0
  vcWeight0 : Nat := 8
  vcWeight1 : Nat := 4
  vcWeight2 : Nat := 4
  rampUpW : Nat := 1500
  rampDownW : Nat := 1500
  powerCapW : Nat := 20000
  ballastBudgetKj : Nat := 120
  ballastReserve : Bool := true
  rotate : Bool := true
  deferMax : Nat := 4
  deferMs : Nat := 200
  focusPolicy : Nat := 0
  nonfinitePolicy : Nat := 0
  relayHopsMax : Nat := 4
  relayMask : BitVec 32 := 0
  loadSliceUs : Nat := 20000
  loadShare : Nat := 25
  deriving DecidableEq, Repr

/-- A request of a serving pass (R262, R402, R405). -/
structure Request where
  id : Word
  slot : BitVec 16
  status : BitVec 16
  tokFirst : Word
  tokCount : Word
  deriving DecidableEq, Repr

/-- The pass in flight (R42, R256, R405). -/
structure Pass where
  q : QueueId
  ticket : Nat
  desc : BitVec 1024
  epoch : BitVec 16
  placement : Nat
  todo : List Nat
  reruns : Nat := 0
  advisory : BitVec 16 := 0
  reqs : List Request := []
  resets : Nat := 0
  /-- the layer entries that were escalated at admission (R283, R296) -/
  esc : List Nat := []
  /-- a cluster has entered rung 1 in this pass (R435) -/
  throttled : Bool := false
  /-- the first external cause that the shuttles have raised for this pass: it starts no further layer pass (R414) -/
  ended : Option (BitVec 16) := none
  /-- the span of the pass has lost a member: the pass commits no further (R35) -/
  spanLost : Bool := false
  deriving DecidableEq, Repr

/-- A step whose reduction has not ended (R324, R329): its scale table, the policy at admission (R322), whether this member
sends nothing more for it, its outcome, and its RUN_PASS with the code of the pass once that has ended. -/
structure RedStep where
  step : BitVec 32
  epoch : BitVec 16
  table : ScaleTable
  policy : Nat
  muted : Bool := false
  outcome : Option (BitVec 16) := none
  decider : BitVec 16 := 0xFFFF
  done : Option (Pass × BitVec 16) := none
  deriving DecidableEq, Repr

/-- The reduction units and registers (R332). -/
structure Reduction where
  steps : List RedStep := []
  sketches : List Sketch := []
  err : Word := 0
  errStep : Word := 0
  retries : Word := 0
  refused : Word := 0
  nfs : Word := 0
  twin : Word := 0
  stale : Word := 0
  deriving DecidableEq, Repr

/-- A COPY or FILL that runs (R404, R406). -/
structure CopyJob where
  q : QueueId
  ticket : Nat
  fill : Bool
  dir : Nat
  len : Nat
  src : Nat
  dst : Nat
  pat : Word
  deriving DecidableEq, Repr

/-- The LOAD_PROGRAM under way (R88): fetched, validated with an image to install, or waiting. -/
structure ImgLoad where
  q : QueueId
  ticket : Nat
  addr : BitVec 64
  size : Nat
  image : Option Image
  deriving DecidableEq, Repr

/-- The drains under way (R467): begun by a command (with the mailbox that awaits its answer), by the button, by
Redfish, or by an activation. -/
structure Drains where
  cmd : Bool := false
  cmdMbx : Option MbxId := none
  button : Bool := false
  redfish : Bool := false
  activation : Bool := false
  power : Bool := false
  reached : Bool := false
  deriving DecidableEq, Repr

/-- Passes, the image and what waits for a boundary (R29, R31). -/
structure Engine where
  cfg : Cfg := {}
  image : Option Image := none
  imageAddr : BitVec 64 := 0
  installs : Nat := 0
  imageLost : Bool := false
  imgLoad : Option ImgLoad := none
  pass : Option Pass := none
  lp : Option LayerPass := none
  /-- a layer pass whose re-run waits until weight chunks have been fetched again (R223, R249) -/
  parked : Option LayerPass := none
  passNo : BitVec 32 := 0
  training : Bool := false
  /-- the ABORT_PASS commands that wait for their answer (R413, R414) -/
  abortReq : List MbxId := []
  slotRate : BitVec 2 := 3
  nextRate : BitVec 2 := 3
  placement : Nat := 0
  score : Int := 0
  weights : List Nat := []
  energy : List Nat := []
  duty : Nat := 16
  drains : Drains := {}
  copies : List CopyJob := []
  /-- the deferred candidates of R444: queue, ticket, deferrals so far, and when each first became the candidate -/
  deferred : List (QueueId × Nat × Nat × Nat) := []
  /-- the passes at the head of a queue that wait for adapter bytes which they read (R249): queue, ticket -/
  bytesHeld : List (QueueId × Nat) := []
  focusEsc : List Nat := []
  focusLast : Nat := 0
  focusSample : Word := 0
  /-- the focus counters of each layer entry, misses and active (R295) -/
  focusCnt : Tab (Nat × Nat) := []
  runtimeRuns : Nat := 0
  /-- the core record that the last task of a SPARSE layer wrote for a core with no program (R417), and whether the last
  task of every core committed (R126) -/
  idleRecord : List Word := []
  lastCommitted : Bool := false
  /-- R126 for a core that is not listed: its last task ran from the image in force and committed -/
  carry : Bool := false
  /-- the residual units reset in the forward pass of the step that is open (R329) -/
  stepResets : Nat := 0
  deriving DecidableEq, Repr

/-! ### The host interface (chapter 13) -/

/-- The states of a queue (R398). -/
inductive QState where
  | disabled
  | active
  | flushing
  deriving DecidableEq, Repr

/-- A fetched descriptor with its ring index, and the number of its fetch: a ring index is free for a later descriptor once it has been
fetched, and may run beside it (R397, R404). -/
structure Fetched where
  index : BitVec 16
  ticket : Nat
  d : BitVec 1024
  deriving DecidableEq, Repr

/-- A command queue (R396). -/
structure Queue where
  baseLo : BitVec 20 := 0
  baseHi : Word := 0
  enable : Bool := false
  prio : BitVec 2 := 0
  log2 : BitVec 5 := 0
  tail : BitVec 16 := 0
  head : BitVec 16 := 0
  st : QState := .disabled
  err : Bool := false
  code : BitVec 16 := 0
  done : Word := 0
  waiting : List Fetched := []
  running : List Fetched := []
  /-- the descriptors fetched so far -/
  fetches : Nat := 0
  rung : Nat := 0
  resetBy : Option MbxId := none
  errFlush : Bool := false
  deriving DecidableEq, Repr

/-- A mailbox (R408). -/
structure Mbx where
  data : Word := 0
  ackValid : Bool := false
  ackCode : BitVec 16 := 0
  full : Bool := false
  rej : Bool := false
  mode : Bool := true
  deriving DecidableEq, Repr

/-- The host-path error registers (R224). -/
structure HostPath where
  err : Word := 0
  off : Word := 0
  wdrop : Word := 0
  woff : Word := 0
  deriving DecidableEq, Repr

/-- MSI-X state (R395): Enable, Function Mask, the Mask and Pending bit of each vector, and the words of the table
(message addresses and data). -/
structure Msix where
  enable : Bool := false
  fmask : Bool := false
  mask : BitVec 64 := BitVec.allOnes 64
  pend : BitVec 64 := 0
  table : Tab Word := []
  deriving DecidableEq, Repr

/-- The host interface. -/
structure HostIf where
  linkUp : Bool := false
  /-- PERST# is asserted on HOST0, and on HOST1 (R531, R532) -/
  perst0 : Bool := false
  perst1 : Bool := false
  hostDie : Bool := true
  abi : BitVec 16 := 0
  queues : Vector Queue 64 := Vector.replicate 64 {}
  rings : Nat := 0
  mbx : Vector Mbx 48 := Vector.replicate 48 {}
  dbStat : Word := 0
  dbMask : Word := BitVec.allOnes 32
  mbxErr : Word := 0
  /-- DB_STAT and DB_MASK of each receiver on the module's side, which lie outside BAR0 (R408) -/
  loupeDb : Word := 0
  loupeMask : Word := BitVec.allOnes 32
  shuttleDb : Vector Word 4 := Vector.replicate 4 0
  shuttleMask : Vector Word 4 := Vector.replicate 4 (BitVec.allOnes 32)
  loupeOff : Bool := false
  shuttleOff : BitVec 4 := 0
  shuttleCmd : Option MbxId := none
  path : HostPath := {}
  msix : Msix := {}
  latch : List (Nat × BitVec 26 × Word) := []
  edgeSel : Word := 0
  advisoryNf : Bool := false
  deriving DecidableEq, Repr

/-! ### Power and cooling (chapter 14) -/

/-- The states of a feed (R420), coded as PT_FEED.STATE. -/
inductive FeedState where
  | lost
  | qualifying
  | inService
  deriving DecidableEq, Repr

/-- A feed (R420, R447): voltage in units of 0.1 V, power in W. -/
structure Feed where
  st : FeedState := .lost
  volt : Nat := 0
  power : Nat := 0
  deriving DecidableEq, Repr

/-- A power stage (R422). -/
structure Stage where
  present : Bool := true
  inService : Bool := false
  fault : Bool := false
  deriving DecidableEq, Repr

/-- The states of a fan (R447). -/
inductive FanState where
  | absent
  | running
  | failed
  deriving DecidableEq, Repr

/-- A fan (R437). Loupe reports one that is fitted as running once it has booted. -/
structure Fan where
  fitted : Bool := true
  st : FanState := .absent
  rpm : Nat := 0
  deriving DecidableEq, Repr

/-- Power, thermal limits and their registers. Powers are in W, energies in mJ, temperatures in 1/16 °C. -/
structure Power where
  feeds : Vector Feed 2 := Vector.replicate 2 {}
  stages : Vector Stage 12 := Vector.replicate 12 {}
  fans : Vector Fan 8 := Vector.replicate 8 {}
  fanDuty : Nat := 0
  p1 : Nat := 0
  /-- P1 of the last ten samples, and of the last 60 s, the latest first -/
  last10 : List Nat := []
  last60 : List Nat := []
  rest : Nat := 0
  /-- F and the ramp limit of C in mW, the rack manager's limit as approached, the thermal limit, and C -/
  floorMw : Nat := 0
  rampMw : Nat := 20000000
  capMw : Nat := 20000000
  thermMw : Nat := 20000000
  ceilMw : Nat := 0
  bind : Nat := 0
  /-- ballast power in mW as Loupe last set it -/
  ballast : Nat := 0
  /-- of that, what each cluster is to draw in cycles that are idle already, and the power in mW that each cluster's ballast duty arms
  (R427) -/
  nows : Tab Nat := []
  arms : Tab Nat := []
  /-- the ballast energy in mJ of each ms of the last 3,600 s, the latest first -/
  drawn : List Nat := []
  /-- ms out of the bounds of R431, and ms back within them -/
  outMs : Nat := 0
  inMs : Nat := 0
  rampRecorded : Bool := false
  /-- ms for which the ramp limits do not apply yet (R421) -/
  exemptMs : Nat := 0
  /-- ms for which D_ENG has stood at 1 -/
  dutyMs : Nat := 0
  lastResort : Bool := false
  rampUp : Option Nat := none
  rampDown : Option Nat := none
  cap : Option Nat := none
  /-- ms for which the thermal limit has bound C, and ms free of both causes of R440 -/
  thermMs : Nat := 0
  freeMs : Nat := 0
  degraded : Bool := false
  inlet : Int := 0
  outlet : Int := 0
  sink : Int := 0
  event : BitVec 16 := 0
  rampEvents : Word := 0
  throttleEvents : Word := 0
  deferrals : Word := 0
  deriving DecidableEq, Repr

/-! ### Tiles and repairs (chapter 16) -/

/-- The state of a physical tile (R416), coded as TILE_STATE.STATE. -/
inductive TileState where
  | off
  | selftest
  | service
  | throttled
  | retired
  | spare
  deriving DecidableEq, Repr

/-- The eFuse of a tile (R423, R495), coded as TILE_REPAIR.EFUSE. A fuse that no cause has opened reads 0, closed, whether or not the tile
is powered. -/
inductive Efuse where
  | closed
  | short
  | overload
  | dieTemp
  | memTemp
  | retired
  deriving DecidableEq, Repr

/-- One DRAM layer (R218, R432): its sensors, doubled refresh, and the report of a hot tile. -/
structure DramLayer where
  temp : QuadTemp := ⟨some 0, some 0, some 0, some 0⟩
  doubled : Bool := false
  hot : Bool := false
  /-- ms at or above 95 °C since the layer was reported hot (R432) -/
  hotMs : Nat := 0
  deriving DecidableEq, Repr

/-- A physical tile. `rows` is CLUSTER_ROWS, 4 bits for each row of each cluster; `opens` are the
openings of its eFuse with their time in ms (R487). -/
structure PTile where
  st : TileState := .off
  powered : Bool := false
  fuse : Efuse := .closed
  opens : List (Efuse × Nat) := []
  test : Nat := 0
  rows : Vector (BitVec 32) 16 := Vector.replicate 16 (BitVec.allOnes 32)
  /-- the failed physical columns of a row with two failures, by cluster × 8 + row: CLUSTER_ROWS does not say which they are (R489) -/
  pairs : Tab (BitVec 9) := []
  diodes : List (Option Int) := List.replicate 9 (some 0)
  layer0 : DramLayer := {}
  layer1 : DramLayer := {}
  current : Nat := 0
  voltage : Nat := 0
  deriving DecidableEq, Repr

/-- A repair scheduled (R480–R484). -/
inductive Repair where
  | shift (ci : ClusterId) (row : Nat) (pcol : Nat) (tested : Bool)
  | relocate (t : TileId) (darn : Fin 2) (tested : Bool)
  | restore (t : TileId) (tested : Bool)
  | edge (d : DieId) (link : Nat)
  /-- a tile or a row that no repair can serve (R489) -/
  | loseTile (t : TileId)
  | loseRow (ci : ClusterId) (row : Nat) (cols : BitVec 9)
  deriving DecidableEq, Repr

/-- What a site is physically, whatever logical core or tile it serves at the time: the physical tile, the number of the cluster in it (16 for
none), and the part. An edge link is counted with the tile whose grid-edge router terminates it; a site in no tile has none (R476). -/
structure PhysSite where
  tile : Option PhysTile
  cluster : Nat
  part : List Nat
  deriving DecidableEq, Repr

/-- An error attributed to a site (R476, R480): its code, the layer pass and the time in ms. -/
structure SiteErr where
  site : PhysSite
  code : BitVec 16
  ident : BitVec 32
  ms : Nat
  deriving DecidableEq, Repr

/-- Repairs, the repair record and the fault registers (R493, R496). -/
structure Faults where
  tileMap : Vector (BitVec 8) 48 := Vector.ofFn fun i => BitVec.ofNat 8 i.val
  darn : Vector (BitVec 2) 2 := Vector.replicate 2 0
  edge : BitVec 640 := 0
  sites : List SiteErr := []
  repairs : List Repair := []
  /-- why each tile was condemned: `none` for the tile as a whole, or a row with its failed physical columns (R481, R489) -/
  cases : List (TileId × Option (ClusterId × Nat × BitVec 9)) := []
  /-- the units that were rewritten after they had failed their check again (R223, R480) -/
  rewritten : List (ClusterId × Nat × Nat) := []
  rereads : List TileId := []
  /-- relocations and restorations of each logical tile -/
  moves : Vector Nat 48 := Vector.replicate 48 0
  stagingLost : Bool := false
  err : Word := 0x3F000000
  repairReg : Word := 0
  hw : Word := 0
  reruns : Word := 0
  limit : Word := 0
  shifts : Word := 0
  relocs : Word := 0
  recSeq : BitVec 32 := 0
  resets : Nat := 0
  deriving DecidableEq, Repr

/-! ### Start-up and management (chapters 15, 17, 18) -/

/-- ENGINE_STATE (R393, R454). -/
inductive EngState where
  | bringup
  | reduced
  | full
  | degraded
  | draining
  deriving DecidableEq, Repr

/-- A firmware bundle in the store (R469, R515). `factory` is the bundle that the module came with, of whose bytes the spec gives nothing:
its signature stands (DESIGN CHOICE, log entry 3). -/
structure Slot where
  bundle : Bundle
  secVersion : Nat
  failed : Bool := false
  factory : Bool := false
  deriving DecidableEq, Repr

/-- What activation does (R470): its step, 0 when none runs. -/
structure Activation where
  step : Nat := 0
  shuttles : Nat := 0
  deriving DecidableEq, Repr

/-- Start-up, configuration and firmware. `phase` is the step of R449 that Loupe has reached. -/
structure Boot where
  standby : Bool := false
  phase : Nat := 0
  recovery : Bool := false
  wave : Nat := 0
  wavesEnded : Nat := 0
  extraWave : List PhysTile := []
  calibrated : Bool := false
  /-- the time in ms at which permission was granted -/
  granted : Option Nat := none
  eng : EngState := .bringup
  leftState : EngState := .bringup
  inService : BitVec 48 := 0
  entering : BitVec 48 := 0
  failedWave : BitVec 48 := 0
  /-- bring-up resumed after the loss of the power stages: the tiles are restored (R491) -/
  restoring : Bool := false
  cart : Option Cartridge := some { bank0 := [], bank1 := [], rec0 := [], rec1 := [] }
  /-- a cartridge is fitted into which Loupe has not written its record yet (R494, R542) -/
  recordDue : Bool := false
  bank : Option Bool := none
  bankBytes : List Byte := []
  bankSeq : BitVec 32 := 0
  bankFormat : Nat := 3
  pendBank : Option (List Byte) := none
  pendMode : StageMode := .stage
  coldPending : Bool := false
  livePending : Bool := false
  cfgErr : Bool := false
  cfgCode : BitVec 16 := 0
  fwInForce : Option Slot := some ⟨⟨0, [], [], [], []⟩, 0, false, true⟩
  /-- the other slot of the firmware store, and whether it is staged for activation -/
  fwOther : Option Slot := none
  fwPending : Bool := false
  fwMode : StageMode := .stage
  act : Activation := {}
  fwErr : Bool := false
  fwComp : BitVec 2 := 0
  fwCode : BitVec 16 := 0
  powerDown : Nat := 0
  restart : Bool := false
  earlyBreak : Bool := false
  /-- the early-break switch has opened, or SEATED has, and the lever has not been closed since as R527 asks -/
  leverOpen : Bool := false
  loupeDown : Bool := false
  bootCount : Nat := 0
  deriving DecidableEq, Repr

/-- An event subscription (R503), with the events of which a push has failed: the number of the event, the event, and the retries that it
has had. One that has been delivered, or dropped, is kept with three. -/
structure Sub where
  id : Nat
  failed : List (Nat × Event × Nat) := []
  deriving DecidableEq, Repr

/-- One measurement of the attestation report (R520). -/
structure Measure where
  ty : Nat
  sec : Nat
  id : BitVec 64
  digest : List Byte
  deriving DecidableEq, Repr

/-- Loupe's management, keys and front panel. -/
structure Mgmt where
  permit : Bool := false
  locate : Bool := false
  panelLock : Bool := false
  safe : Bool := false
  links : BitVec 2 := 0
  presence : Bool := false
  secStat : BitVec 16 := 0
  secValid : Bool := false
  keyIds : Vector (List Byte) 8 := Vector.replicate 8 []
  opRevoked : BitVec 8 := 0
  fwRevoked : BitVec 4 := 0
  ctrLoupe : Nat := 0
  ctrShuttle : Nat := 0
  ctrCore : Nat := 0
  ctrObject : Nat := 0
  /-- Loupe's clock in s, once set, as it stood at the time `clockAt` in ms -/
  clock : Option Nat := none
  clockAt : Nat := 0
  lastTime : Nat := 0
  cas : List Cert := []
  crl : List Nat := []
  /-- the CSRs that Loupe has given out (R500) -/
  csrs : Nat := 0
  tlsCert : Option Nat := none
  clients : Nat := 0
  subs : List Sub := []
  /-- the streams of events that are open, and the events so far (R503) -/
  streams : Nat := 0
  events : Nat := 0
  /-- the last 4,096 events, the latest first (R503) -/
  log : List Event := []
  eventQ : List (BitVec 16) := []
  eventLost : Bool := false
  /-- the result of a Loupe command that waits for mailbox 25: RES0 to RES5 and RESULT (R508) -/
  result : Option (List Word × Word) := none
  measures : List Measure := []
  uptime : Nat := 0
  panelCode : BitVec 16 := 0
  panelCount : Nat := 0
  /-- the ETags of the Chassis and Manager resources, as counts of their changes (R501) -/
  tagChassis : Nat := 0
  tagManager : Nat := 0
  deriving DecidableEq, Repr

/-! ### What leaves the module -/

/-- What the module puts out. -/
inductive Out where
  /-- MSI-X message on a vector (R395) -/
  | msix (v : Nat)
  /-- posted CXL.io write to host memory -/
  | hostWrite (addr : Nat) (bytes : List Byte)
  /-- data returned for a register or memory read -/
  | readData (bytes : List Byte)
  /-- Unsupported Request (R9) -/
  | unsupported
  /-- Completer Abort (R411) -/
  | completerAbort
  /-- Advisory Non-Fatal Error, ERR_COR (R410) -/
  | advisoryNonFatal
  /-- a flit sent on a port -/
  | flit (p : PortId) (bits : BitVec 2176)
  /-- a Redfish event to one subscription (R503) -/
  | push (sub : Nat) (e : Event)
  /-- a Redfish event on every open stream (R503) -/
  | stream (e : Event)
  /-- the content of a resource, by the names of its properties, and of LogService, the events (R502, R503) -/
  | resource (r : Resource) (fields : List (String × Int))
  | events (log : List Event)
  /-- an attestation report, the identity chain, and a CSR by its number (R500, R518, R519) -/
  | report (bytes : List Byte)
  | chain (certs : List (List Byte))
  | csr (n : Nat)
  /-- a status code sent to the rack managers (R431, R492) -/
  | rack (code : BitVec 16)
  /-- the outcome of a Redfish action or a TLS connection -/
  | redfish (ok : Bool)
  deriving DecidableEq, Repr

/-! ### The state -/

/-- A flit on a link of the stitch mesh: the node and the input that it goes to, its sideband and its 256 bits (R143, R144). -/
structure Wire where
  dst : MeshNode
  inp : Nat
  sb : BitVec 16
  flit : BitVec 256
  deriving DecidableEq, Repr

/-- The state of the module. `pending` is the queue of commands, first in first out; `free` counts the free values
that steps have taken (the model's own field); `out` is what has left the module, the latest first; `wires` is what is on the links of the stitch mesh, the oldest first. -/
structure State where
  pending : List Instr := []
  free : Nat := 0
  out : List Out := []
  cores : Tab Core := []
  clusters : Tab Cluster := []
  tat : Tat := {}
  dies : Vector Die 8 := Vector.replicate 8 {}
  ports : Vector Port 32 := Vector.replicate 32 {}
  eng : Engine := {}
  wts : Weights := {}
  red : Reduction := {}
  coll : Coll := {}
  host : HostIf := {}
  pwr : Power := {}
  tiles : Vector PTile 50 := Vector.replicate 50 {}
  flt : Faults := {}
  boot : Boot := {}
  mgmt : Mgmt := {}
  wires : List Wire := []
  deriving DecidableEq, Repr

/-- The module before standby power is applied: every register at the reset value of its table, every
queue and buffer empty, the command queue empty. -/
def State.reset : State := {}

/-- The reasons for which the model stops. -/
inductive Fault where
  /-- Raised by CXL_MEM_READ and CXL_MEM_WRITE while the module claims no CXL.mem address (R212): the access is to an
  address that does not exist. Safe: the model stops where the hardware does not answer. -/
  | unclaimedAddress
  deriving DecidableEq, Repr

/-- The reasons for which a command is refused. -/
inductive Refusal where
  /-- Raised by the dispatcher for a command that has no meaning yet. Safe: nothing is claimed of it. -/
  | notModelled (mnemonic : String)
  deriving DecidableEq, Repr

end Sys2Proof.Machine
end

