-- ==== Sys2Proof/Machine/Ops.lean ====
section
/-! DEFINITION. The operations that the meanings share: sparse tables, bytes, cells of memory, the parts of the
state, what leaves the module, aborts, the scratchpad, and the issue of a core instruction. -/

namespace Sys2Proof.Machine

open Sys2Proof

abbrev Res := Host.Outcome State Fault Refusal

/-! ### Sparse tables -/

/-- The entry of key `k`, if listed. -/
def tabFind {α : Type} : Tab α → Nat → Option α
  | [], _ => none
  | (k', v) :: t, k => if k = k' then some v else tabFind t k

/-- The entry of key `k`, or `d`. -/
def tabGet {α : Type} (d : α) (t : Tab α) (k : Nat) : α := (tabFind t k).getD d

/-- The table with `v` at key `k`. -/
def tabSet {α : Type} : Tab α → Nat → α → Tab α
  | [], k, v => [(k, v)]
  | (k', v') :: t, k, v =>
    if k = k' then (k, v) :: t else if k < k' then (k, v) :: (k', v') :: t else (k', v') :: tabSet t k v

/-- The table without key `k`. -/
def tabErase {α : Type} (t : Tab α) (k : Nat) : Tab α := t.filter fun e => e.1 != k

/-! ### Bytes and bits -/

/-- Bytes as a number, the least significant byte first (R8). -/
def leNat : List Byte → Nat
  | [] => 0
  | b :: t => b.toNat + 256 * leNat t

/-- The `n` bytes of a number, the least significant byte first (R8). -/
def leBytes : Nat → Nat → List Byte
  | 0, _ => []
  | n + 1, v => BitVec.ofNat 8 v :: leBytes n (v / 256)

/-- `n` bytes from offset `o` of a byte string, as a number; bytes past its end count as zero. -/
def fieldAt (bs : List Byte) (o n : Nat) : Nat := leNat ((bs.drop o).take n)

/-- Bits [hi:lo] of a number. -/
def bits (v hi lo : Nat) : Nat := (v >>> lo) % 2 ^ (hi + 1 - lo)

/-- Whether bit `i` of a number is 1. -/
def bitOf (v i : Nat) : Bool := v.testBit i

/-- 1 or 0. -/
def b2n (b : Bool) : Nat := if b then 1 else 0

/-- A number with `v` put in at bit `lo`. -/
def put (v lo : Nat) : Nat := v <<< lo

/-- The signed value of the low `w` bits of a number. -/
def signedOf (w v : Nat) : Int := (BitVec.ofNat w v).toInt

/-- Whether the number of ones in the low `n` bits is even. -/
def evenOnes : Nat → Nat → Bool
  | 0, _ => true
  | n + 1, v => (v % 2 == 0) == evenOnes n (v / 2)

/-- A counter of 32 bits that wraps. -/
def incW (w : Word) (n : Nat := 1) : Word := w + BitVec.ofNat 32 n

/-- A count of `w` bits held in bits [lo+w-1:lo] of a register, incremented and saturating. -/
def satField (r : Word) (lo w : Nat) : Word :=
  let c := bits r.toNat (lo + w - 1) lo
  if c = 2 ^ w - 1 then r else r + BitVec.ofNat 32 (2 ^ lo)

/-! ### Cells of memory -/

/-- The byte at an address, if listed. -/
def cellGet : List Host.Cell → Nat → Option Byte
  | [], _ => none
  | (a', b) :: t, a => if a = a' then some b else cellGet t a

/-- Bytes as cells at rising addresses. -/
def cellsOf (a : Nat) : List Byte → List Host.Cell
  | [] => []
  | b :: t => (a, b) :: cellsOf (a + 1) t

/-- The cells with `new` in place of those of addresses `lo` to `hi` − 1. -/
def cellSplice (cs : List Host.Cell) (lo hi : Nat) (new : List Host.Cell) : List Host.Cell :=
  cs.filter (fun c => decide (c.1 < lo)) ++ new ++ cs.filter fun c => decide (hi ≤ c.1)

/-- Strictly rising addresses. -/
def cellsRise : List Host.Cell → Bool
  | [] => true
  | [_] => true
  | (a, _) :: (a', b') :: t => decide (a < a') && cellsRise ((a', b') :: t)

/-- `n` bytes from address `a`; a byte that `look` does not give is a free value, and the count of free values taken
is returned. -/
def readBytes (look : Nat → Option Byte) : Nat → Nat → Nat → List Byte × Nat
  | _, 0, f => ([], f)
  | a, n + 1, f =>
    match look a with
    | some b => let r := readBytes look (a + 1) n f; (b :: r.1, r.2)
    | none => let r := readBytes look (a + 1) n (f + 1); (Config.freeByte f :: r.1, r.2)

/-! ### Positions (R3 to R5) -/

/-- GX of a core. -/
def gxOf (c : CoreId) : Nat := c.val % 256

/-- GY of a core. -/
def gyOf (c : CoreId) : Nat := c.val / 256

/-- The core at (GX, GY). -/
def coreAt (gx gy : Nat) : Option CoreId :=
  if h : gx < 256 ∧ gy < 192 then some ⟨gy * 256 + gx, by omega⟩ else none

/-- PT of the tile of a core. -/
def ptOf (c : CoreId) : TileId := ⟨gyOf c / 32 * 8 + gxOf c / 32, by unfold gyOf gxOf; omega⟩

/-- CI of the cluster of a core (R4, R5). -/
def ciOf (c : CoreId) : ClusterId :=
  ⟨(ptOf c).val * 16 + gyOf c / 8 % 4 * 4 + gxOf c / 8 % 4, by have := (ptOf c).isLt; omega⟩

/-- The number of a core among the 64 of its cluster: row × 8 + column. -/
def inCluster (c : CoreId) : Nat := gyOf c % 8 * 8 + gxOf c % 8

/-- PT of the tile of a cluster. -/
def tileOfCi (ci : ClusterId) : TileId := ⟨ci.val / 16, by omega⟩

/-- The core of a cluster by its number among the 64. -/
def coreOf (ci : ClusterId) (k : Nat) : Option CoreId :=
  let pt := ci.val / 16
  let gx := pt % 8 * 32 + ci.val % 4 * 8 + k % 8
  let gy := pt / 8 * 32 + ci.val % 16 / 4 * 8 + k / 8
  if k < 64 then coreAt gx gy else none

/-- The program that a core runs, in its instruction-buffer bank (R46, R76). -/
def Core.text (k : Core) : List (BitVec 64) := if k.task.bank then k.ibuf1 else k.ibuf0

/-- Every logical core. -/
def allCores : List CoreId := List.finRange 49152

/-! ### Parts of the state -/

/-- The layer entry that runs, if the layer pass in flight is one of a pass. -/
def runningEntry (s : State) : Option LayerEntry :=
  match s.eng.lp, s.eng.image with
  | some lp, some im => if lp.kind = .work then im.layers[lp.entry]? else none
  | _, _ => none

/-- The stitch plan that runs. -/
def runningPlan (s : State) : Option Plan :=
  match runningEntry s, s.eng.image with
  | some e, some im => im.plans.find? fun p => p.place == s.eng.placement && p.index == e.plan
  | _, _ => none

/-- A core that no command has touched: its program is empty, and its router runs the plan in force. -/
def idleCore (s : State) (c : CoreId) : Core :=
  let table := match runningPlan s with | some p => tabGet [] p.routers c.val | none => []
  let on := match s.eng.lp with | some l => l.started | none => false
  { ({} : Core) with
    task := { lpass := s.eng.passNo, prevCommitted := s.eng.carry, prevInstall := s.eng.installs },
    router := { table := table, running := on }, status := s.eng.idleRecord }

/-- A core; one that is not listed is an idle core. -/
def State.core (s : State) (c : CoreId) : Core :=
  match tabFind s.cores c.val with
  | some k => k
  | none => idleCore s c

/-- The state with a core changed. -/
def State.setCore (s : State) (c : CoreId) (k : Core) : State := { s with cores := tabSet s.cores c.val k }

/-- A cluster; a cluster that is not listed is as at reset. -/
def State.cluster (s : State) (ci : ClusterId) : Cluster := tabGet {} s.clusters ci.val

/-- The state with a cluster changed. -/
def State.setCluster (s : State) (ci : ClusterId) (k : Cluster) : State :=
  { s with clusters := tabSet s.clusters ci.val k }

/-- A tile hub (R186). -/
def State.tileHub (s : State) (pt : TileId) : Hub := tabGet {} s.tat.tiles pt.val

/-- The state with a tile hub changed. -/
def State.setTileHub (s : State) (pt : TileId) (h : Hub) : State :=
  { s with tat := { s.tat with tiles := tabSet s.tat.tiles pt.val h } }

/-- The state with a port die changed. -/
def State.setDie (s : State) (d : DieId) (x : Die) : State := { s with dies := s.dies.set d.val x }

/-- The state with a port changed. -/
def State.setPort (s : State) (p : PortId) (x : Port) : State := { s with ports := s.ports.set p.val x }

/-- The state with a queue changed. -/
def State.setQueue (s : State) (q : QueueId) (x : Queue) : State :=
  { s with host := { s.host with queues := s.host.queues.set q.val x } }

/-- The state with a mailbox changed. -/
def State.setMbx (s : State) (m : MbxId) (x : Mbx) : State :=
  { s with host := { s.host with mbx := s.host.mbx.set m.val x } }

/-- The state with a physical tile changed. -/
def State.setTile (s : State) (t : PhysTile) (x : PTile) : State := { s with tiles := s.tiles.set t.val x }

/-- The state with something more put out. -/
def State.emit (s : State) (o : Out) : State := { s with out := o :: s.out }

/-- The first element that a test finds, taken out of a list. -/
def takeFirst {α : Type} (t : α → Bool) : List α → Option (α × List α)
  | [] => none
  | x :: xs => if t x then some (x, xs) else (takeFirst t xs).map fun r => (r.1, x :: r.2)

/-- A flit is driven on a link of the stitch mesh (R143). -/
def State.drive (s : State) (w : Wire) : State := { s with wires := s.wires ++ [w] }

/-- A posted write to host memory; with the CXL link down it is lost (R491). -/
def State.hostWrite (s : State) (addr : Nat) (bs : List Byte) : State :=
  if s.host.linkUp then s.emit (.hostWrite addr bs) else s

/-- The state with `n` more free values taken. -/
def State.took (s : State) (n : Nat := 1) : State := { s with free := s.free + n }

/-- `n` bytes of which nothing is known. -/
def freeBytes (f : Nat) : Nat → List Byte
  | 0 => []
  | n + 1 => Config.freeByte f :: freeBytes (f + 1) n

/-- The layer pass in flight changed. -/
def State.setLp (s : State) (p : Option LayerPass) : State := { s with eng := { s.eng with lp := p } }

/-- The physical tile that serves a logical one (R22). -/
def physOf (s : State) (pt : TileId) : PhysTile :=
  let p := (s.flt.tileMap[pt.val]).toNat
  if h : p < 50 then ⟨p, h⟩ else ⟨pt.val, by omega⟩

/-! ### Status codes (R418) -/

/-- The abort class of a code; a code with no class of its own is program class (R195). -/
def classOf (code : BitVec 16) : AbortClass :=
  let n := code.toNat
  if n ∈ [0x0301, 0x0302, 0x0303, 0x0304, 0x0306, 0x0307, 0x0401, 0x0402, 0x0403, 0x0807] then .hardware
  else if n ∈ [0x020D, 0x0420, 0x0501, 0x0507, 0x0508, 0x0801, 0x0802, 0x0804, 0x0A05] then .external
  else .program

/-- Whether R418 calls a code a step outcome (R331). -/
def stepCode (code : BitVec 16) : Bool := code.toNat ∈ [0x0702, 0x0711, 0x0712, 0x0713, 0x0715, 0x0716, 0x0717]

/-! ### Interrupts and events -/

/-- An event of an MSI-X vector: sent, held pending while it is masked, or lost while MSI-X is off (R395). -/
def msix (v : Nat) (s : State) : State :=
  let m := s.host.msix
  if m.enable then
    if m.fmask || m.mask.getLsbD v then
      { s with host := { s.host with msix := { m with pend := m.pend ||| (1#64 <<< v) } } }
    else s.emit (.msix v)
  else s

/-- The subscriptions to which a push is made, latest first. -/
def pushAll (e : Event) : List Sub → List Out
  | [] => []
  | b :: t => pushAll e t ++ [.push b.id e]

/-- What an event puts out: one push for each subscription, and one on the streams where one is open. -/
def eventOut (e : Event) (m : Mgmt) : List Out := (if m.streams = 0 then [] else [.stream e]) ++ pushAll e m.subs

/-- A Redfish event: logged, of the last 4,096, and sent to every subscription and on the streams that are open (R503). -/
def logEvent (e : Event) (s : State) : State :=
  let m := s.mgmt
  { s with
    mgmt := { m with log := (e :: m.log).take 4096, events := m.events + 1 },
    out := eventOut e m ++ s.out }

/-- An event that carries no status code, by its name: a change of ENGINE_STATE, a sensor's failure, a departure, a wave's result
(R503). -/
def logNamed (msg : String) (s : State) : State := logEvent (.named msg) s

/-- The codes that the front panel shows: link, power and thermal, configuration and boot, security (R504). -/
def panelClass (code : BitVec 16) : Bool := decide (9 ≤ code.toNat / 256) && decide (code.toNat / 256 ≤ 12)

/-- A status code as a Redfish event, and on the panel (R503, R504). -/
def logCode (code : BitVec 16) (s : State) : State :=
  let m := s.mgmt
  logEvent (.code code) { s with mgmt := { m with
    panelCode := if panelClass code then code else m.panelCode,
    panelCount := m.panelCount + b2n (panelClass code) } }

/-! ### The tatting mesh: packets and aborts -/

/-- A packet of R188 by its fields. -/
def packet (ty scope id gx gy dgx dgy lpass value : Nat) : BitVec 96 :=
  BitVec.ofNat 96 (put (ty % 16) 92 + put (scope % 4) 90 + put (id % 65536) 72 + put (gx % 256) 64
    + put (gy % 256) 56 + put (dgx % 256) 48 + put (dgy % 256) 40 + put (lpass % 256) 32 + value % 4294967296)

def pktType (p : BitVec 96) : Nat := bits p.toNat 95 92
def pktScope (p : BitVec 96) : Nat := bits p.toNat 91 90
def pktRsvd (p : BitVec 96) : Nat := bits p.toNat 89 88
def pktId (p : BitVec 96) : Nat := bits p.toNat 87 72
def pktGx (p : BitVec 96) : Nat := bits p.toNat 71 64
def pktGy (p : BitVec 96) : Nat := bits p.toNat 63 56
def pktDgx (p : BitVec 96) : Nat := bits p.toNat 55 48
def pktDgy (p : BitVec 96) : Nat := bits p.toNat 47 40
def pktLpass (p : BitVec 96) : Nat := bits p.toNat 39 32
def pktValue (p : BitVec 96) : Nat := bits p.toNat 31 0

/-- CORE_LPASS of the current layer pass, or of the last one. -/
def State.lpass (s : State) : Nat := s.eng.passNo.toNat

/-- The node above a node of the tree (R186). -/
def above : TatNode → TatNode
  | .core c => .cluster (ciOf c)
  | .router c => .cluster (ciOf c)
  | .cluster ci => .tile (tileOfCi ci)
  | .tile _ => .root
  | .die _ => .root
  | .shuttle _ => .root
  | .root => .root

/-- The next node on the way from one node to another: down into the branch that holds the other, else up. -/
def nextHop (n dst : TatNode) : TatNode :=
  if above dst = n then dst
  else if above (above dst) = n then above dst
  else if above (above (above dst)) = n then above (above dst)
  else above n

/-- Whether two packets are on the same link, in the same direction. -/
def sameLink (f g : Flight) : Bool := f.src == g.src && f.dst == g.dst

/-- Barrier, release and abort packets, which take precedence at every link over others that wait (R187). -/
def urgent (f : Flight) : Bool := decide (8 ≤ pktType f.bits) && decide (pktType f.bits ≤ 11)

/-- A packet that takes precedence put before the packets that wait on its link and that do not: not before the first, which has started,
nor before another that takes precedence. `started` says that the first of the link has been passed. -/
def putAhead (f : Flight) (started : Bool) : List Flight → List Flight
  | [] => [f]
  | g :: t =>
    if sameLink f g && started && !((g :: t).any fun h => sameLink f h && urgent h) then f :: g :: t
    else g :: putAhead f (started || sameLink f g) t

/-- A packet queued on its link: an ARRIVE behind all that its sender queued before it, a release or abort packet ahead of others that wait
(R187). -/
def enqueue (f : Flight) (q : List Flight) : List Flight :=
  if urgent f && pktType f.bits != 8 then putAhead f false q else q ++ [f]

/-- The packets on the links once a node has sent one more towards another. -/
def sent (src dst : TatNode) (p : BitVec 96) (site : Site) (q : List Flight) : List Flight :=
  enqueue { dst := nextHop src dst, src := src, sender := src, bits := p, site := site } q

/-- A packet sent by one node of the tatting mesh towards another (R187). -/
def State.send (s : State) (src dst : TatNode) (p : BitVec 96) (site : Site := .none) : State :=
  { s with tat := { s.tat with flight := sent src dst p site s.tat.flight } }

/-- ABORT with its code as a node raises it (R188, R195): a core and its router tag it with the task's LPASS. DESIGN CHOICE (log entry 76): a
hub and the root put 0 into SRC_GX, as R188 gives it for a node that is not a core, and 0 into SRC_GY, which R188 does not give for
them. -/
def abortPkt (n : TatNode) (code : BitVec 16) (s : State) : BitVec 96 :=
  let p (gx gy lp : Nat) : BitVec 96 := packet 10 0 0 gx gy 0 0 lp code.toNat
  match n with
  | .core c => p (gxOf c) (gyOf c) (s.core c).task.lpass.toNat
  | .router c => p (gxOf c) (gyOf c) (s.core c).task.lpass.toNat
  | .die d => p 0 (0xC0 + d.val) s.lpass
  | .shuttle k => p 0 (0xD0 + k.val) s.lpass
  | _ => p 0 0 s.lpass

/-- ABORT raised by a node, for an error at a site (R195, R476). -/
def abortFrom (n : TatNode) (code : BitVec 16) (site : Site) (s : State) : State := s.send n .root (abortPkt n code s) site

/-- ABORT raised by a core. -/
def coreAbort (c : CoreId) (code : BitVec 16) (s : State) : State := abortFrom (.core c) code .none s

/-- A hardware abort raised at a core, with the site of the error. -/
def coreHwAbort (c : CoreId) (code : BitVec 16) (site : Site) (s : State) : State := abortFrom (.core c) code site s

/-- ABORT raised by port die PDn. -/
def dieAbort (d : DieId) (code : BitVec 16) (s : State) : State := abortFrom (.die d) code .none s

/-- The pass in flight has been ended from outside, by the first such cause: it starts no further layer pass (R325, R414). -/
def endPassBy (code : BitVec 16) (s : State) : State :=
  { s with eng := { s.eng with pass := s.eng.pass.map fun p => { p with ended := p.ended.or (some code) } } }

/-- An external cause of the shuttles is noted for the pass in flight, which it ends whether or not its ABORT finds a layer pass
OPEN at the root (R325, R414, R423). -/
def notePassEnd (code : BitVec 16) (s : State) : State :=
  if classOf code ≠ .external ∧ !stepCode code then s else endPassBy code s

/-- ABORT raised by the shuttles (R195). -/
def shuttleAbort (code : BitVec 16) (s : State) : State := abortFrom (.shuttle 0) code .none (notePassEnd code s)

/-! ### The scratchpad (chapter 04) -/

/-- Whether `n` bytes from `a` lie below 0x10_0000 and in segments of SEG_MASK (R123). -/
def spadIn (seg : BitVec 8) (a n : Nat) : Bool :=
  decide (a + n ≤ 0x100000) &&
  (List.range 8).all fun i =>
    seg.getLsbD i || decide (n = 0) || decide (a + n ≤ i * 0x20000) || decide ((i + 1) * 0x20000 ≤ a)

/-- The halfwords of a word that `n` bytes from `a` touch, as a mask. -/
def halfMask (word a n : Nat) : BitVec 16 :=
  BitVec.ofNat 16 ((List.range 16).foldl (fun m h =>
    let lo := word * 32 + 2 * h
    if decide (a < lo + 2) && decide (lo < a + n) then m + 2 ^ h else m) 0)

/-- The upset words with the halfwords of a write given fresh parity (R139). -/
def freshParity (u : Tab (BitVec 16)) (a n : Nat) : Tab (BitVec 16) :=
  (u.map fun e => (e.1, e.2 &&& ~~~(halfMask e.1 a n))).filter fun e => e.2 != 0

/-- A write of bytes into the scratchpad. -/
def Core.spadPut (k : Core) (a : Nat) (bs : List Byte) : Core :=
  { k with spad := { k.spad with
      cells := cellSplice k.spad.cells a (a + bs.length) (cellsOf a bs),
      upset := freshParity k.spad.upset a bs.length } }

/-- The record of parity errors found by reading words `lo` to `hi` (R140, R142). -/
def Core.parity (k : Core) (unit lo hi : Nat) : Core × Bool :=
  match k.spad.upset.filter (fun e => decide (lo ≤ e.1) && decide (e.1 ≤ hi)) with
  | [] => (k, false)
  | (w, m) :: t =>
    let r := k.recs
    let old := bits r.perr.toNat 26 20
    let count := Nat.min 127 (old + t.length + 1)
    let head := if bitOf r.perr.toNat 31 then r.perr.toNat - put old 20 else put 1 31 + put unit 27 + put w 5
    ({ k with recs := { r with
        perr := BitVec.ofNat 32 (head + put count 20),
        perrMask := if bitOf r.perr.toNat 31 then r.perrMask else m.setWidth 32 } }, true)

/-- What a read of the scratchpad gives: the bytes, the core with its parity record, the free values taken, and
whether a parity error was found (R139, R140). -/
structure SpadRead where
  bytes : List Byte
  core : Core
  free : Nat
  bad : Bool

/-- A read of `n` bytes by a unit: every word it touches is checked whole. -/
def Core.spadGet (k : Core) (unit a n free : Nat) : SpadRead :=
  let r := readBytes (cellGet k.spad.cells) a n free
  let p := if n = 0 then (k, false) else k.parity unit (a / 32) ((a + n - 1) / 32)
  ⟨r.1, p.1, r.2, p.2⟩

/-! ### Issue of a core instruction (R48, R49, R80) -/

/-- What an instruction does on its attempt to issue: it stalls; it faults with a unit, a code and an address; or
it issues, with the core as it leaves it, the next PC, the cycles of issue, the free values taken, and whether a
scratchpad read failed parity. -/
inductive Act where
  | stall
  | fault (unit : Nat) (code : BitVec 16) (addr : Nat)
  | go (k : Core) (pc cost free : Nat) (bad : Bool)

/-- The queues emptied, with what their units run kept (R80). -/
def dropQueues (u : CoreUnits) : CoreUnits :=
  { u with mxQ := [], sendQ := [], dmaQ := [], fcQ := [], spQ := [], syncQ := [], wait := none, readDue := false }

/-- The fault record of R76, unless it holds the fault of an instruction that is not later in program order: `ord` is the number of
instructions issued before the one that faults (R80). -/
def recordFault (k : Core) (ord : BitVec 64) (unit : Nat) (code : BitVec 16) (pc : BitVec 11) (addr : Nat) : Core :=
  if bitOf k.recs.fault.toNat 31 && decide (k.recs.faultOrd.toNat ≤ ord.toNat) then k
  else { k with recs := { k.recs with
      fault := BitVec.ofNat 32 (put 1 31 + put unit 16 + code.toNat),
      faultOrd := ord,
      faultPc := BitVec.ofNat 32 (put (b2n k.task.bank) 11 + pc.toNat),
      faultAddr := BitVec.ofNat 32 addr } }

/-- A program fault (R80) of the instruction that `ord` others were issued before: the core stops and discards its queues, the record
is written, the abort is raised. -/
def coreFaultAt (ord : BitVec 64) (c : CoreId) (unit : Nat) (code : BitVec 16) (pc : BitVec 11) (addr : Nat) (s : State) : State :=
  let k := recordFault (s.core c) ord unit code pc addr
  coreAbort c code (s.setCore c { k with run := .stopped, units := dropQueues k.units })

/-- A program fault of the instruction that the core issues next. -/
def coreFault (c : CoreId) (unit : Nat) (code : BitVec 16) (pc : BitVec 11) (addr : Nat) (s : State) : State :=
  coreFaultAt (s.core c).cnt.instret c unit code pc addr s

/-- Whether a queued operation will still write S register `r` (R49, R270). -/
def busyS (u : CoreUnits) (r : Reg) : Bool :=
  let w (o : SpOp) : Bool := (o.kind == .hmerge || o.kind == .fmask) && o.f.sd == r
  u.spQ.any w || (match u.spRun with | some o => w o | none => false)

/-- Whether a queued operation will still write V register `r` (R49, R60). -/
def busyV (u : CoreUnits) (r : Reg) : Bool :=
  let w : MxOp → Bool
    | .accrd f => f.vx == r
    | _ => false
  u.mxQ.any w || (match u.move with | some o => w o | none => false)

/-- One attempt to issue an instruction that uses S registers `ss` and V registers `vs`. A core that is not running,
or that waits, or a register not ready, leaves all as it is. A PC at which the program ends, or that leaves it, faults
with CORE_ILLEGAL_OP (R70). -/
def issue (c : CoreId) (ss vs : List Reg) (f : State → Core → Act) (s : State) : Res :=
  let k := s.core c
  if k.run != .running || k.units.wait.isSome || ss.any (busyS k.units) || vs.any (busyV k.units) then .next s
  else if k.text.length ≤ k.regs.pc.toNat then .next (coreFault c 0 0x0230 k.regs.pc 0 s)
  else match f s k with
    | .stall => .next s
    | .fault unit code addr => .next (coreFault c unit code k.regs.pc addr s)
    | .go k' pc cost used bad =>
      let n := k'.cnt
      let k'' : Core := { k' with
        regs := { k'.regs with pc := BitVec.ofNat 11 pc },
        cnt := { n with cycle := n.cycle + BitVec.ofNat 64 (cost + Config.freeCycles (s.free + used)),
                        instret := n.instret + 1 } }
      let s1 := (s.setCore c k'').took (used + 1)
      let s2 := if bad then coreHwAbort c 0x0401 (.core c) s1 else s1
      .next (if k'.run == .running && decide (k.text.length ≤ pc)
        then coreFault c 0 0x0230 k.regs.pc 0 s2 else s2)

/-- An instruction that issues in one cycle, takes no free value and goes on at PC + 1. -/
def Act.one (k : Core) : Act := .go k (k.regs.pc.toNat + 1) 1 0 false

/-- S register `r`; S0 reads zero (R47). -/
def Core.sreg (k : Core) (r : Reg) : BitVec 64 := if r = 0 then 0 else k.regs.s[r.val]

/-- A write of S register `r`; a write of S0 is ignored (R47). -/
def Core.setS (k : Core) (r : Reg) (v : BitVec 64) : Core :=
  if r = 0 then k else { k with regs := { k.regs with s := k.regs.s.set r.val v } }

/-- V register `r`. -/
def Core.vreg (k : Core) (r : Reg) : BitVec 1024 := k.regs.v[r.val]

/-- A write of V register `r`. -/
def Core.setV (k : Core) (r : Reg) (v : BitVec 1024) : Core :=
  { k with regs := { k.regs with v := k.regs.v.set r.val v } }

/-- A write of P register `n`; P0 is not writable (R47). -/
def Core.setP (k : Core) (n : Fin 8) (v : BitVec 64) : Core :=
  if n = 0 then k else { k with regs := { k.regs with p := k.regs.p.set n.val v } }

/-- Flags of NUM_STATUS set (R107); they are sticky. -/
def Core.flag (k : Core) (f : Word) : Core :=
  { k with recs := { k.recs with numStatus := k.recs.numStatus ||| f } }

end Sys2Proof.Machine
end

