-- ==== Sys2Proof/Machine/Stacked.lean ====
section
/-! DEFINITION. Stacked memory (chapter 07): its contents, and the regions of a cluster. -/

namespace Sys2Proof.Machine

open Sys2Proof

/-! ### Contents -/

/-- What an address holds: the cell, a free value in a range whose contents R209 calls lost, or else the zero of the
fill at power-up (R210). -/
def memLook (m : StackMem) (a : Nat) : Option Byte :=
  match cellGet m.cells a with
  | some b => some b
  | none => if m.lost.any (fun r => decide (r.1 ≤ a) && decide (a < r.2)) then none else some 0

/-- The canonical form: rising addresses, and no cell equal to what an unlisted address reads as. -/
abbrev Memory.wf (m : StackMem) : Bool :=
  cellsRise m.cells && m.cells.all fun c => c.2 != 0 || m.lost.any (fun r => decide (r.1 ≤ c.1) && decide (c.1 < r.2))

/-- Ranges without the addresses from `lo` to `hi` − 1. -/
def cutRanges (lo hi : Nat) : List (Nat × Nat) → List (Nat × Nat)
  | [] => []
  | (a, b) :: t =>
    (if a < min b lo then [(a, min b lo)] else []) ++ (if max a hi < b then [(max a hi, b)] else [])
      ++ cutRanges lo hi t

/-- The parts of ranges that lie from `lo` to `hi` − 1. -/
def rangesIn (lo hi : Nat) (rs : List (Nat × Nat)) : List (Nat × Nat) :=
  (rs.map fun r => (max r.1 lo, min r.2 hi)).filter fun r => decide (r.1 < r.2)

/-- Ranges with the addresses from `lo` to `hi` − 1 among them. -/
def addRange (lo hi : Nat) (rs : List (Nat × Nat)) : List (Nat × Nat) :=
  if lo < hi then cutRanges lo hi rs ++ [(lo, hi)] else rs

/-- Of some units, those that do not meet the addresses from `lo` to `hi` − 1. -/
def unitsBut (lo hi : Nat) (us : List Nat) : List Nat :=
  us.filter fun u => decide (u * 64 + 64 ≤ lo) || decide (hi ≤ u * 64)

/-- The units that the addresses from `lo` to `hi` − 1 meet are written with a valid check. -/
def StackMem.checked (m : StackMem) (lo hi : Nat) : StackMem :=
  { m with bad := unitsBut lo hi m.bad, failed := unitsBut lo hi m.failed }

/-- Bytes written from an address on, with a valid check. -/
def StackMem.put (m : StackMem) (a : Nat) (bs : List Byte) : StackMem :=
  let hi := a + bs.length
  { m.checked a hi with
    cells := cellSplice m.cells a hi ((cellsOf a bs).filter fun c => c.2 != 0),
    lost := cutRanges a hi m.lost, written := addRange a hi m.written }

/-- The addresses from `lo` to `hi` − 1 have undefined contents. -/
def StackMem.lose (m : StackMem) (lo hi : Nat) : StackMem :=
  if lo < hi then
    { m with cells := cellSplice m.cells lo hi [], lost := addRange lo hi m.lost, written := addRange lo hi m.written }
  else m

/-- The contents of the addresses from `lo` to `hi` − 1 are lost (R209): of what nothing has written since power-up there is nothing to lose,
and it goes on reading as zeros (R210). -/
def StackMem.drop (m : StackMem) (lo hi : Nat) : StackMem :=
  if lo < hi then
    { m with cells := cellSplice m.cells lo hi [], lost := cutRanges lo hi m.lost ++ rangesIn lo hi (m.written ++ m.lost) }
  else m

/-- The addresses from `lo` to `hi` − 1 are set to zero with a valid check. -/
def StackMem.zero (m : StackMem) (lo hi : Nat) : StackMem :=
  { m.checked lo hi with
    cells := cellSplice m.cells lo hi [], lost := cutRanges lo hi m.lost, written := addRange lo hi m.written }

/-! ### Regions (R205) -/

abbrev mib : Nat := 1048576

/-- The sizes that the image in force gives a cluster; zero with no image. -/
def layoutOf (s : State) (ci : Nat) : Layout :=
  match s.eng.image with
  | some im => tabGet {} im.layouts ci
  | none => {}

/-- W of region 6 under a memory mode. -/
def wMib (mode : Nat) (l : Layout) : Nat := if mode = 0 then l.wAll else if mode = 2 then l.wMixed else 0

/-- MiB of regions 0 to 6 of a cluster under a configuration; region 6 counts one slot. -/
def regionMib (cfg : Cfg) (l : Layout) (ci r : Nat) : Nat :=
  match r with
  | 0 => 64
  | 1 => if cfg.window && decide (ci < 128) then 512 else 0
  | 2 => cfg.adapterMib
  | 3 => l.act
  | 4 => l.resid
  | 5 => l.spill
  | 6 => wMib cfg.memMode l
  | _ => 0

/-- MiB of the regions 0 to `r` − 1. -/
def regionsBelow (cfg : Cfg) (l : Layout) (ci : Nat) : Nat → Nat
  | 0 => 0
  | r + 1 => regionsBelow cfg l ci r + regionMib cfg l ci r

/-- Whether the regions of every cluster fit, with one epoch of resident weights (R40). -/
def layoutsFit (cfg : Cfg) (ls : Tab Layout) : Bool :=
  (List.range 768).all fun ci => decide (regionsBelow cfg (tabGet {} ls ci) ci 7 ≤ 3072)

/-- Whether weight slot 1 exists: 2W fits in every cluster (R207). -/
def twoSlots (cfg : Cfg) (ls : Tab Layout) : Bool :=
  (List.range 768).all fun ci =>
    decide (regionsBelow cfg (tabGet {} ls ci) ci 7 + regionMib cfg (tabGet {} ls ci) ci 6 ≤ 3072)

/-- The live epoch of a number. -/
def epochOf (s : State) (n : BitVec 16) : Option Epoch :=
  match s.wts.current with
  | some e => if e.number = n then some e else
    match s.wts.draining with
    | some d => if d.number = n then some d else none
    | none => none
  | none =>
    match s.wts.draining with
    | some d => if d.number = n then some d else none
    | none => none

/-- The weight slot that region 6 names: that of the running pass's epoch, or of the current one; 0 where that epoch holds none. -/
def weightSlot (s : State) : Nat :=
  match s.eng.pass with
  | some p => ((epochOf s p.epoch).bind (·.slot)).getD 0
  | none => (s.wts.current.bind (·.slot)).getD 0

/-- Size in bytes of a region for the range check of R215. -/
def regionBytes (s : State) (ci : ClusterId) (r : Nat) : Nat :=
  if r = 7 then (s.cluster ci).consts.length else regionMib s.eng.cfg (layoutOf s ci.val) ci.val r * mib

/-- The place of a CONST share of `n` bytes: the engine chooses it at each install, so that the whole share lies in the 64 MiB of
region 0. -/
def constBase (s : State) (ci : ClusterId) (n : Nat) : Nat :=
  Config.constPlace (ci.val + 768 * s.eng.installs) % (1048577 - min 1048576 ((n + 63) / 64)) * 64

/-- The cluster-local address of the first byte of a region. -/
def regionBase (s : State) (ci : ClusterId) (r : Nat) : Nat :=
  let l := layoutOf s ci.val
  if r = 7 then constBase s ci (s.cluster ci).consts.length
  else
    let b := regionsBelow s.eng.cfg l ci.val r * mib
    if r = 6 then b + weightSlot s * regionMib s.eng.cfg l ci.val 6 * mib else b

/-- `n` bytes at an offset of a region. -/
def regionRead (s : State) (ci : ClusterId) (r off n free : Nat) : List Byte × Nat :=
  if r = 7 then (((s.cluster ci).consts.drop off).take n, free)
  else readBytes (memLook (s.cluster ci).mem) (regionBase s ci r + off) n free

/-- Bytes written at an offset of a region. -/
def regionWrite (ci : ClusterId) (r off : Nat) (bs : List Byte) (s : State) : State :=
  let k := s.cluster ci
  s.setCluster ci { k with mem := k.mem.put (regionBase s ci r + off) bs }

/-- The CONST share of a cluster written: its units have a valid check (R223). -/
def writeConsts (ci : ClusterId) (bs : List Byte) (s : State) : State :=
  let k := s.cluster ci
  let a := constBase s ci bs.length
  s.setCluster ci { k with consts := bs, mem := k.mem.checked a (a + bs.length) }

/-- Whether the unit at an offset of a region fails its stored check. -/
def unitBad (s : State) (ci : ClusterId) (r off : Nat) : Bool :=
  (s.cluster ci).mem.bad.contains ((regionBase s ci r + off) / 64)

/-- Whether a DMA has found the unit at an offset of a region to fail its check, and nothing has written it since (R223). -/
def unitFailed (s : State) (ci : ClusterId) (r off : Nat) : Bool :=
  (s.cluster ci).mem.failed.contains ((regionBase s ci r + off) / 64)

/-- The slice of a cluster-local address (R204). -/
def sliceOf (a : Nat) : Nat := bits a 9 8

/-- The layer of a cluster-local address (R204). -/
def layerOf (a : Nat) : Nat := bits a 10 10

/-! ### Memory errors (R222, R223, R226) -/

/-- The record of a memory error (R226): only the first of a task is recorded, and COUNT counts every one. -/
def recordMem (k : Core) (kind region a : Nat) : Core :=
  let r := k.recs
  if bitOf r.memErr.toNat 31 then { k with recs := { r with memErr := satField r.memErr 0 8 } }
  else { k with recs := { r with
      memErr := BitVec.ofNat 32 (put 1 31 + put kind 28 + put region 24 + put (sliceOf a) 22 + put (layerOf a) 21 + 1),
      memErrAddr := BitVec.ofNat 32 (a / 64 * 64) } }

/-- A failed unit is noted. It has failed again where it failed in an earlier run and nothing has written it since (R223). -/
def noteUnit (ci : ClusterId) (region off : Nat) (s : State) : State :=
  match s.eng.lp with
  | none => s
  | some lp =>
    let u := (regionBase s ci region + off) / 64
    let k := s.cluster ci
    let x := (ci, region, off)
    let again := lp.memPrev.contains x && k.mem.failed.contains u && !lp.memAgain.contains x
    (s.setCluster ci { k with mem := { k.mem with failed := if k.mem.failed.contains u then k.mem.failed else k.mem.failed ++ [u] } }).setLp
      (some { lp with memNow := lp.memNow ++ [x], memAgain := if again then lp.memAgain ++ [x] else lp.memAgain })

/-- A memory error at an address of a core's cluster: recorded, and the abort raised (R222). -/
def memError (c : CoreId) (check : Bool) (region a : Nat) (s : State) : State :=
  coreHwAbort c (if check then 0x0402 else 0x0403) (.slice (ciOf c) (sliceOf a) (layerOf a))
    (s.setCore c (recordMem (s.core c) (if check then 0 else 1) region a))

/-- A memory error of a core's DMA at an offset of a region. -/
def dmaError (c : CoreId) (check : Bool) (region off : Nat) (s : State) : State :=
  memError c check region (regionBase s (ciOf c) region + off) (if check then noteUnit (ciOf c) region off s else s)

/-- A unit read from a region: the transfer fails link parity, or the stored check fails, or all is well. -/
def readUnit (c : CoreId) (region off : Nat) (linkOk : Bool) (s : State) : State :=
  if !linkOk then dmaError c false region off s
  else if unitBad s (ciOf c) region off then dmaError c true region off s
  else s

/-- Bytes of one unit written by a core's DMA. In a transfer that fails link parity they are written as received, of which nothing is
known, and MEM_LINK is raised (R222). -/
def writeUnit (c : CoreId) (region off : Nat) (bs : List Byte) (linkOk : Bool) (s : State) : State :=
  if linkOk then regionWrite (ciOf c) region off bs s
  else dmaError c false region off ((regionWrite (ciOf c) region off (freeBytes s.free bs.length) s).took bs.length)

/-- Bytes with free values in place of the units, by number, that fail link parity, and the free values taken. -/
def garble (bad : List Nat) (bs : List Byte) (free : Nat) : List Byte × Nat :=
  bad.foldl (fun x i => if x.1.length ≤ 64 * i then x
    else (x.1.take (64 * i) ++ freeBytes x.2 64 ++ x.1.drop (64 * i + 64), x.2 + 64)) (bs, free)

end Sys2Proof.Machine
end

