-- ==== Sys2Proof/Machine/HostWindow.lean ====
section
/-! DEFINITION. The CXL.mem window onto the staging region (R212). -/

namespace Sys2Proof.Machine

open Sys2Proof

/-- Bytes of the window: 64 GiB. -/
abbrev winBytes : Nat := 68719476736

/-- The cluster of a window offset. -/
def winCluster (h : Nat) : ClusterId := ⟨bits h 18 12, by
  have : bits h 18 12 < 2 ^ 7 := Nat.mod_lt _ (by decide)
  omega⟩

/-- The staging address of a window offset. -/
def winAddr (h : Nat) : Nat := bits h 35 19 * 4096 + bits h 11 0

/-- The byte at a window offset. -/
def winLook (s : State) (h : Nat) : Option Byte :=
  memLook (s.cluster (winCluster h)).mem (regionBase s (winCluster h) 1 + winAddr h)

/-- `n` bytes from a window offset, with the count of free values taken. -/
def winRead (s : State) (h n free : Nat) : List Byte × Nat := readBytes (winLook s) h n free

/-- Bytes written page by page, at most `fuel` pages. -/
def winPages : Nat → Nat → List Byte → State → State
  | 0, _, _, s => s
  | fuel + 1, h, bs, s =>
    if bs.isEmpty then s
    else
      let n := 4096 - h % 4096
      winPages fuel (h + n) (bs.drop n) (regionWrite (winCluster h) 1 (winAddr h) (bs.take n) s)

/-- Bytes written from a window offset on. -/
def winWrite (h : Nat) (bs : List Byte) (s : State) : State := winPages (bs.length / 4096 + 2) h bs s

/-- Bytes of the window made undefined page by page, at most `fuel` pages. -/
def losePages : Nat → Nat → Nat → State → State
  | 0, _, _, s => s
  | fuel + 1, h, n, s =>
    if n = 0 then s
    else
      let m := min n (4096 - h % 4096)
      let ci := winCluster h
      let k := s.cluster ci
      let a := regionBase s ci 1 + winAddr h
      losePages fuel (h + m) (n - m) (s.setCluster ci { k with mem := k.mem.lose a (a + m) })

/-- `n` bytes of the window from an offset on are undefined (R338, R406). -/
def loseWindow (h n : Nat) (s : State) : State := losePages (n / 4096 + 2) h n s

/-- Whether a unit of `n` bytes from a window offset fails its stored check. -/
def winBad (s : State) (h n : Nat) : Bool :=
  (List.range ((n + 63) / 64)).any fun i => unitBad s (winCluster (h + 64 * i)) 1 (winAddr (h + 64 * i))

end Sys2Proof.Machine
end

