-- ==== Sys2Proof/Machine/Flags.lean ====
section
/-! DEFINITION. Numbers as exact values, their rounding into the formats of R90, and the bits of NUM_STATUS (R107)
that each conversion and operation sets. -/

namespace Sys2Proof.Machine

open Sys2Proof

/-! ### The bits of NUM_STATUS (R107) -/

abbrev nsSat : Word := 0x02
abbrev nsOverflow : Word := 0x04
abbrev nsNanIn : Word := 0x08
abbrev nsInvalid : Word := 0x10
abbrev nsScaleNan : Word := 0x20

/-! ### Exact values -/

/-- The number z × 2^e. -/
structure Dy where
  z : Int
  e : Int
  deriving DecidableEq, Repr

/-- z × 2^e brought to the exponent `e'` ≤ e. -/
def dyAt (d : Dy) (e' : Int) : Int := d.z * (2 : Int) ^ (d.e - e').toNat

def dyAdd (a b : Dy) : Dy :=
  let e := min a.e b.e
  ⟨dyAt a e + dyAt b e, e⟩

def dyMul (a b : Dy) : Dy := ⟨a.z * b.z, a.e + b.e⟩

/-- Comparison of exact values. -/
def dyCmp (a b : Dy) : Ordering :=
  let e := min a.e b.e
  compare (dyAt a e) (dyAt b e)

/-- A floating-point operand: a NaN, an infinity, or a finite number with the sign that a zero carries. -/
inductive Fp where
  | nan
  | inf (neg : Bool)
  | fin (neg : Bool) (d : Dy)
  deriving DecidableEq, Repr

/-! ### Formats (R90) -/

/-- The element formats. -/
inductive Fmt where
  | fp32
  | fp16
  | bf16
  | e4m3
  | e5m2
  | e3m2
  | e2m3
  | e2m1
  deriving DecidableEq, Repr

def Fmt.expBits : Fmt → Nat
  | .fp32 | .bf16 => 8
  | .fp16 | .e5m2 => 5
  | .e4m3 => 4
  | .e3m2 => 3
  | .e2m3 | .e2m1 => 2

def Fmt.manBits : Fmt → Nat
  | .fp32 => 23
  | .fp16 => 10
  | .bf16 => 7
  | .e4m3 | .e2m3 => 3
  | .e5m2 | .e3m2 => 2
  | .e2m1 => 1

def Fmt.bias : Fmt → Nat
  | .fp32 | .bf16 => 127
  | .fp16 | .e5m2 => 15
  | .e4m3 => 7
  | .e3m2 => 3
  | .e2m3 | .e2m1 => 1

/-- Bits of an element. -/
def Fmt.width (f : Fmt) : Nat := 1 + f.expBits + f.manBits

/-- Whether exponent all ones holds the infinity and the NaNs. -/
def Fmt.ieee : Fmt → Bool
  | .fp32 | .fp16 | .bf16 | .e5m2 => true
  | _ => false

/-- The code of the largest finite value, without the sign. -/
def Fmt.maxCode (f : Fmt) : Nat :=
  match f with
  | .e4m3 => 0x7E
  | _ => if f.ieee then (2 ^ f.expBits - 1) * 2 ^ f.manBits - 1 else 2 ^ (f.expBits + f.manBits) - 1

/-- The canonical NaN (R93); a format with no NaN gets +0 (R96). -/
def Fmt.nanCode : Fmt → Nat
  | .fp32 => 0x7FC00000
  | .bf16 => 0x7FC0
  | .fp16 => 0x7E00
  | .e4m3 | .e5m2 => 0x7F
  | _ => 0

/-- The code of +infinity, for a format that has one. -/
def Fmt.infCode (f : Fmt) : Nat := (2 ^ f.expBits - 1) * 2 ^ f.manBits

/-- The exact value of a code without its sign, taken as finite (R90). -/
def Fmt.mag (f : Fmt) (c : Nat) : Dy :=
  let ef := c / 2 ^ f.manBits
  let m := c % 2 ^ f.manBits
  if ef = 0 then ⟨m, 1 - f.bias - f.manBits⟩ else ⟨m + 2 ^ f.manBits, ef - f.bias - f.manBits⟩

/-- The value of an element (R90, R93). -/
def Fmt.decode (f : Fmt) (bits : Nat) : Fp :=
  let w := f.expBits + f.manBits
  let neg := bits / 2 ^ w % 2 = 1
  let c := bits % 2 ^ w
  if f = .e4m3 ∧ c = 0x7F then .nan
  else if f.ieee ∧ f.infCode < c then .nan
  else if f.ieee ∧ c = f.infCode then .inf neg
  else .fin neg (let d := f.mag c; if neg then ⟨-d.z, d.e⟩ else d)

/-- A code with a sign. -/
def Fmt.withSign (f : Fmt) (neg : Bool) (c : Nat) : Nat := if neg then c + 2 ^ (f.expBits + f.manBits) else c

/-! ### Rounding (R95, R96) -/

/-- n ÷ 2^k rounded: to nearest, ties to even, or toward zero. -/
def shiftRound (rz : Bool) (n k : Nat) : Nat :=
  let q := n / 2 ^ k
  let r := n % 2 ^ k
  if rz then q else if 2 * r > 2 ^ k ∨ (2 * r = 2 ^ k ∧ q % 2 = 1) then q + 1 else q

/-- The code, with an unbounded exponent, to which the positive number m × 2^e rounds. -/
def Fmt.roundMag (f : Fmt) (rz : Bool) (m : Nat) (e : Int) : Nat :=
  let top : Int := m.log2 + e
  let emin : Int := 1 - f.bias
  let ex := max top emin
  let ulp := ex - f.manBits
  let n := if ulp ≤ e then m * 2 ^ (e - ulp).toNat else shiftRound rz m (ulp - e).toNat
  n + (ex - emin).toNat * 2 ^ f.manBits

/-- A code that may lie beyond the largest finite value, with the overflow of R96. -/
def Fmt.finish (f : Fmt) (rz neg : Bool) (c : Nat) : Nat × Word :=
  if c ≤ f.maxCode then (f.withSign neg c, 0)
  else match f with
    | .fp32 | .fp16 | .bf16 =>
      if rz then (f.withSign neg f.maxCode, 0) else (f.withSign neg f.infCode, nsOverflow)
    | _ => (f.withSign neg f.maxCode, nsSat)

/-- The exact number d rounded once; a zero takes the sign `zneg` (R95, R98). -/
def Fmt.round (f : Fmt) (rz zneg : Bool) (d : Dy) : Nat × Word :=
  if d.z = 0 then (f.withSign zneg 0, 0) else f.finish rz (d.z < 0) (f.roundMag rz d.z.natAbs d.e)

/-- A value put into a format: finite numbers are rounded, the others follow R96 and R93. A NaN in a format that has
none leaves +0 and sets INVALID (R107). -/
def Fmt.ofFp (f : Fmt) (rz : Bool) : Fp → Nat × Word
  | .nan => (f.nanCode, if f = .e3m2 ∨ f = .e2m3 ∨ f = .e2m1 then nsInvalid else 0)
  | .inf neg => if f.ieee then (f.withSign neg f.infCode, 0) else (f.withSign neg f.maxCode, nsSat)
  | .fin neg d => f.round rz neg d

/-- NAN_IN for an operand (R107). -/
def nanIn : Fp → Word
  | .nan => nsNanIn
  | _ => 0

/-- A value as INT32 (R97): rounded, saturated; a NaN gives 0. -/
def toInt32 (rz : Bool) : Fp → Nat × Word
  | .nan => (0, nsInvalid ||| nsNanIn)
  | .inf neg => (if neg then 0x80000000 else 0x7FFFFFFF, nsSat)
  | .fin _ d =>
    let m := if 0 ≤ d.e then d.z.natAbs * 2 ^ d.e.toNat else shiftRound rz d.z.natAbs (-d.e).toNat
    if d.z < 0 then (if m ≤ 0x80000000 then ((0x100000000 - m) % 0x100000000, 0) else (0x80000000, nsSat))
    else if m ≤ 0x7FFFFFFF then (m, 0) else (0x7FFFFFFF, nsSat)

/-! ### Arithmetic (R101, R103) -/

/-- The sum of two values; a NaN formed from values none of which is NaN sets INVALID. An exact zero sum is +0 but for
two zeros of sign −. -/
def fpAdd : Fp → Fp → Fp × Word
  | .nan, _ => (.nan, 0)
  | _, .nan => (.nan, 0)
  | .inf a, .inf b => if a = b then (.inf a, 0) else (.nan, nsInvalid)
  | .inf a, .fin _ _ => (.inf a, 0)
  | .fin _ _, .inf b => (.inf b, 0)
  | .fin na a, .fin nb b =>
    let d := dyAdd a b
    (.fin (if d.z = 0 then a.z = 0 && na && nb else d.z < 0) d, 0)

/-- The value with its sign changed. -/
def fpNeg : Fp → Fp
  | .nan => .nan
  | .inf a => .inf !a
  | .fin n d => .fin (!n) ⟨-d.z, d.e⟩

/-- The exact product of two values. -/
def fpMul : Fp → Fp → Fp × Word
  | .nan, _ => (.nan, 0)
  | _, .nan => (.nan, 0)
  | .inf a, .inf b => (.inf (a != b), 0)
  | .inf a, .fin n d => if d.z = 0 then (.nan, nsInvalid) else (.inf (a != n), 0)
  | .fin n d, .inf b => if d.z = 0 then (.nan, nsInvalid) else (.inf (n != b), 0)
  | .fin n a, .fin m b => (.fin (n != m) (dyMul a b), 0)

/-- Whether a < b; neither is NaN. −0 and +0 compare as equal. -/
def fpLt : Fp → Fp → Bool
  | .nan, _ => false
  | _, .nan => false
  | .inf a, .inf b => a && !b
  | .inf a, .fin _ _ => a
  | .fin _ _, .inf b => !b
  | .fin _ a, .fin _ b => dyCmp a b == .lt

/-- Whether a = b; neither is NaN. -/
def fpEq : Fp → Fp → Bool
  | .inf a, .inf b => a == b
  | .fin _ a, .fin _ b => dyCmp a b == .eq
  | _, _ => false

/-! ### Correct rounding by comparison (R104)

A positive real number is given by `cmp`, which says how it compares with any positive number m × 2^e. -/

/-- The largest code c in [lo, hi] whose value does not exceed the number, by halving; code lo does not. -/
def bisect (f : Fmt) (cmp : Dy → Ordering) : Nat → Nat → Nat → Nat
  | 0, lo, _ => lo
  | n + 1, lo, hi =>
    if hi ≤ lo then lo
    else
      let mid := (lo + hi + 1) / 2
      if cmp (f.mag mid) == .lt then bisect f cmp n lo (mid - 1) else bisect f cmp n mid hi

/-- The code to which the number rounds, up to one past the largest finite code. `cmp x` says how the number compares
with x. -/
def Fmt.roundReal (f : Fmt) (rz : Bool) (cmp : Dy → Ordering) : Nat :=
  let c := bisect f cmp 34 0 f.maxCode
  if rz then c
  else
    let a := f.mag c
    let b := f.mag (c + 1)
    let s := dyAdd a b
    match cmp ⟨s.z, s.e - 1⟩ with
    | .lt => c
    | .gt => c + 1
    | .eq => if c % 2 = 0 then c else c + 1

/-- 1/x against t, for x > 0. -/
def cmpRcp (x t : Dy) : Ordering := dyCmp ⟨1, 0⟩ (dyMul x t)

/-- 1/√x against t, for x > 0. -/
def cmpRsq (x t : Dy) : Ordering := dyCmp ⟨1, 0⟩ (dyMul x (dyMul t t))

/-- The integer square root of n, by bits from `b` down. -/
def isqrt : Nat → Nat → Nat → Nat
  | 0, _, r => r
  | b + 1, n, r => let r' := r + 2 ^ b; if r' * r' ≤ n then isqrt b n r' else isqrt b n r

/-- The fixed point of the enclosures of powers of two. -/
abbrev fx : Nat := 256

/-- Bounds of 2^(f/2^q), scaled by 2^fx, from the bits of f from the top: `lo` and `hi` bound 2^(2^-i). -/
def powFrac : Nat → Nat → Nat → Nat → Nat → Nat → Nat × Nat
  | 0, _, _, _, pl, ph => (pl, ph)
  | q + 1, f, lo, hi, pl, ph =>
    let lo' := isqrt (fx + 2) (lo * 2 ^ fx) 0
    let hi' := isqrt (fx + 2) (hi * 2 ^ fx) 0 + 1
    if f / 2 ^ q % 2 = 1 then powFrac q (f % 2 ^ q) lo' hi' (pl * lo' / 2 ^ fx) (ph * hi' / 2 ^ fx + 1)
    else powFrac q (f % 2 ^ q) lo' hi' pl ph

/-- 2^p against t > 0. Bounds of 2^p decide where they can; where t lies within them the powers themselves do. -/
def cmpPow2 (p t : Dy) : Ordering :=
  if t.z ≤ 0 then .gt
  else if 0 ≤ p.e then
    let n := p.z * (2 : Int) ^ p.e.toNat
    let n := max (-2000) (min 2000 n)
    dyCmp ⟨1, n⟩ t
  else
    let q := (-p.e).toNat
    let n := p.z / (2 : Int) ^ q
    let f := (p.z % (2 : Int) ^ q).toNat
    let b := powFrac q f (2 ^ (fx + 1)) (2 ^ (fx + 1)) (2 ^ fx) (2 ^ fx)
    let n := max (-2000) (min 2000 n)
    if dyCmp ⟨b.1, n - fx⟩ t == .gt then .gt
    else if dyCmp ⟨b.2, n - fx⟩ t == .lt then .lt
    else
      let k : Nat := 2 ^ q
      dyCmp ⟨1, p.z⟩ ⟨t.z ^ k, t.e * k⟩

/-- A list cut into runs of `n`, at most `k` of them. -/
def cut {α : Type} (n : Nat) : Nat → List α → List (List α)
  | 0, _ => []
  | k + 1, l => l.take n :: cut n k (l.drop n)

end Sys2Proof.Machine
end

