-- ==== Sys2Proof/Machine/Operands.lean ====
section
/-! DEFINITION. The operand forms of the core instructions: the second operand of scalar arithmetic, effective
addresses, lanes of vector registers, format codes, rows of elements, and the fields of an instruction word. -/

namespace Sys2Proof.Machine

open Sys2Proof

/-- IMM sign-extended to 64 bits (R54). -/
def immS (imm : BitVec 32) : BitVec 64 := imm.signExtend 64

/-- The effective address S[SA] + IMM of format L (R53). -/
def effAddr (k : Core) (f : LoadF) : Nat := (k.sreg f.sa + immS f.imm).toNat

/-- The value at a scratchpad address as R54 checks an access of `n` bytes aligned to `al`: a fault, or the address. -/
def spadFault (seg : BitVec 8) (a n al : Nat) : Option (BitVec 16) :=
  if a % al ≠ 0 then some 0x0232 else if !spadIn seg a n then some 0x0231 else none

/-! ### Lanes (R61) -/

/-- Elements of `w` bits, the lowest first. -/
def splitBits (w : Nat) : Nat → Nat → List Nat
  | 0, _ => []
  | n + 1, v => v % 2 ^ w :: splitBits w n (v / 2 ^ w)

/-- Elements of `w` bits joined, the first lowest. -/
def joinBits (w : Nat) : List Nat → Nat
  | [] => 0
  | x :: t => x % 2 ^ w + 2 ^ w * joinBits w t

/-- Bits of a lane of type TY. -/
def laneBits (ty : BitVec 2) : Nat := if ty = 1 then 16 else 32

/-- Lanes of type TY. -/
def laneCount (ty : BitVec 2) : Nat := if ty = 1 then 64 else 32

/-- The lanes of a register. -/
def lanesOf (ty : BitVec 2) (v : BitVec 1024) : List Nat := splitBits (laneBits ty) (laneCount ty) v.toNat

/-- A register of lanes. -/
def ofLanes (ty : BitVec 2) (l : List Nat) : BitVec 1024 := BitVec.ofNat 1024 (joinBits (laneBits ty) l)

/-- The format of a floating-point lane. -/
def laneFmt (ty : BitVec 2) : Fmt := if ty = 1 then .bf16 else .fp32

/-- The predicate register PM (R61). -/
def predOf (k : Core) (pm : Fin 8) : BitVec 64 := k.regs.p[pm.val]

/-! ### Format codes (R55) -/

/-- The element format of a code; MXINT8 and INT32 have none. -/
def codeFmt (c : BitVec 4) : Option Fmt :=
  match c.toNat with
  | 0x0 => some .bf16
  | 0x1 => some .fp16
  | 0x2 | 0x4 => some .e4m3
  | 0x3 | 0x5 => some .e5m2
  | 0x6 => some .e3m2
  | 0x7 => some .e2m3
  | 0x8 => some .e2m1
  | 0xA => some .fp32
  | _ => none

/-- Bits of an element. -/
def codeBits (c : BitVec 4) : Nat :=
  match c.toNat with
  | 0x0 | 0x1 => 16
  | 0x6 | 0x7 => 6
  | 0x8 => 4
  | 0xA | 0xB => 32
  | _ => 8

/-- The row size of 32 elements in bytes. -/
def rowBytes (c : BitVec 4) : Nat := codeBits c * 4

/-- Whether a code has a block scale. -/
def hasScale (c : BitVec 4) : Bool := decide (4 ≤ c.toNat) && decide (c.toNat ≤ 9)

/-- The code as an element size of VCVT (R62), if it takes part in conversions. -/
def cvtSize (c : Nat) : Option Nat :=
  if c = 0 ∨ c = 1 then some 2 else if c = 2 ∨ c = 3 then some 1 else if c = 0xA ∨ c = 0xB then some 4 else none

/-- Cycles for each group of 32 k of a format pair (R57); `none` where the pair is not allowed. -/
def pairCycles (a b : BitVec 4) : Option Nat :=
  let x := a.toNat
  let y := b.toNat
  let fp8 (c : Nat) : Bool := decide (2 ≤ c) && decide (c ≤ 7)
  if (x = 0 ∧ y = 0) ∨ (x = 1 ∧ y = 1) then some 64
  else if x = 8 ∧ y = 8 then some 16
  else if x = 9 ∧ y = 9 then some 32
  else if (fp8 x || x == 8) && (fp8 y || y == 8) then some 32
  else none

/-- The 32 elements of a row of bytes, read as one little-endian integer (R58). -/
def rowElems (c : BitVec 4) (row : List Byte) : List Nat := splitBits (codeBits c) 32 (leNat row)

/-- An element of a code as a value, without its scale; INT8 elements are q × 2⁻⁶ (R92). -/
def elemVal (c : BitVec 4) (x : Nat) : Fp :=
  match codeFmt c with
  | some f => f.decode x
  | none => let q := signedOf 8 x; .fin (q < 0) ⟨q, -6⟩

/-! ### Fields of an instruction word (R52 to R54) -/

/-- Whether a CSR index is assigned (R71, R107, R141, R170, R200, R226, R298, R302). -/
def csrAssigned (i : Nat) : Bool :=
  let inn (lo hi : Nat) : Bool := decide (lo ≤ i) && decide (i ≤ hi)
  inn 0 4 || inn 0x10 0x1B || inn 0x20 0x22 || inn 0x30 0x37 || i == 0x40 || inn 0x50 0x57 || i == 0x60 || inn 0x100 0x107
    || inn 0x110 0x127 || inn 0x200 0x205 || inn 0x208 0x20B || inn 0x300 0x305 || inn 0x310 0x317 || inn 0x400 0x405

/-- Whether a format code is allowed in a format field (R55). -/
def fmtField (c : Nat) : Bool := decide (c < 12)

/-- Whether a 64-bit word has no field value that R54 makes a decoding fault; STREAM[5:3] of WAITRX is one (R68). -/
def decodable (w : BitVec 64) : Bool :=
  let v := w.toNat
  let op := bits v 63 56
  let z (hi lo : Nat) : Bool := bits v hi lo == 0
  let inn (lo hi : Nat) : Bool := decide (lo ≤ op) && decide (op ≤ hi)
  if op == 0x01 || inn 0x10 0x2A then z 40 32
  else if inn 0x2C 0x2F || op == 0x50 || op == 0x51 then z 45 32
  else if inn 0x30 0x37 then z 45 32
  else if op == 0x38 || op == 0x39 then z 45 44 && csrAssigned (bits v 43 32)
  else if op == 0x3C then z 45 44 && z 31 5
  else if op == 0x3D then z 45 44
  else if op == 0x40 then z 29 29 && z 20 0 && fmtField (bits v 53 50) && fmtField (bits v 49 46)
  else if inn 0x41 0x44 then z 49 46 && z 31 0 && fmtField (bits v 53 50)
  else if op == 0x52 || op == 0x53 || inn 0x58 0x68 then
    let ty := bits v 32 31
    if op == 0x64 then ty == 0 && z 19 0 && fmtField (bits v 29 26) && fmtField (bits v 25 22)
    else ty != 3 &&
      (if op == 0x53 then z 29 6
       else if op == 0x5E then
         bits v 2 0 != 7 && decide (1 ≤ bits v 55 51) && decide (bits v 55 51 ≤ 7)
       else if op == 0x5F then bits v 40 39 == 0 else true)
  else if op == 0x82 then z 55 53 && z 28 0
  else if op == 0x80 || op == 0x81 then z 28 0
  else if inn 0x88 0x8F then z 40 18 && (if op == 0x8E then bits v 17 16 != 3 else z 17 16)
  else if inn 0x90 0x93 then z 35 0 && (if op ≤ 0x91 then z 40 36 else true)
  else if op == 0x98 || op == 0x99 then z 40 0
  else if op == 0x9A then z 42 0
  else if op == 0x9B then z 52 0
  else if op == 0xC0 then z 40 36 && z 31 0 && fmtField (bits v 35 32)
  else if op == 0xC1 then z 55 51 && z 15 0 && fmtField (bits v 35 32) && fmtField (bits v 31 28)
  else if op == 0xC2 || op == 0xC6 then z 55 51 && z 40 0
  else if op == 0xC3 then z 55 51 && z 45 0
  else if op == 0xC4 then z 40 0
  else if op == 0xC5 then z 35 0
  else false

end Sys2Proof.Machine
end

