-- ==== Sys2Proof/Machine/CoreSync.lean ====
section
/-! DEFINITION. The sync unit of a core (R180, R183 to R185, R187). -/

namespace Sys2Proof.Machine

open Sys2Proof

/-- The object ID (S[SA] + IMM)[15:0], with IMM unsigned (R183). -/
def syncId (k : Core) (f : SyncF) : BitVec 16 := ((k.sreg f.sa) + f.imm.setWidth 64).setWidth 16

/-- S[SB][31:0]. -/
def syncVal (k : Core) (f : SyncF) : Word := (k.sreg f.sb).setWidth 32

/-- The home of an object (R175). -/
def homeOf (id : Nat) : TatNode :=
  if h : id / 64 < 768 then .cluster ⟨id / 64, h⟩ else .root

/-- A packet of a core for an object. -/
def corePacket (c : CoreId) (k : Core) (ty id value : Nat) : BitVec 96 :=
  packet ty 0 id (gxOf c) (gyOf c) 0 0 k.task.lpass.toNat value

/-- A packet at the end of the sync unit's queue. -/
def pushSync (k : Core) (p : BitVec 96) : Core :=
  { k with units := { k.units with syncQ := k.units.syncQ ++ [.pkt p] } }

/-- A sync instruction: SCOPE must be 0, and the queue of eight must have room (R183, R184). -/
def syncIssue (c : CoreId) (f : SyncF) (ss : List Reg) (g : Core → Act) (s : State) : Res :=
  issue c ss [] (fun _ k =>
    if f.scope ≠ 0 then .fault 4 0x0230 0 else if 8 ≤ k.units.syncQ.length then .stall else g k) s

def execSadd (c : CoreId) (f : SyncF) (s : State) : Res :=
  syncIssue c f [f.sa, f.sb] (fun k => .one (pushSync k (corePacket c k 1 (syncId k f).toNat (syncVal k f).toNat))) s

/-- SET or TARGET; a shuttle-homed object faults. -/
def syncUpdate (c : CoreId) (f : SyncF) (ty : Nat) (s : State) : Res :=
  syncIssue c f [f.sa, f.sb] (fun k =>
    if 0xC000 ≤ (syncId k f).toNat then .fault 4 0x0233 0
    else .one (pushSync k (corePacket c k ty (syncId k f).toNat (syncVal k f).toNat))) s

def execSset (c : CoreId) (f : SyncF) (s : State) : Res := syncUpdate c f 2 s
def execStgt (c : CoreId) (f : SyncF) (s : State) : Res := syncUpdate c f 3 s

/-- A packet sent, and issue held until it is answered. -/
def sendAndWait (k : Core) (p : BitVec 96) (w : SyncWait) : Act :=
  let k1 := pushSync k p
  .one { k1 with units := { k1.units with wait := some w } }

def execSread (c : CoreId) (f : SyncF) (s : State) : Res :=
  syncIssue c f [f.sa, f.sd] (fun k =>
    sendAndWait k (corePacket c k 4 (syncId k f).toNat 0) (.sread (syncId k f) f.sd)) s

def execSwait (c : CoreId) (f : SyncF) (s : State) : Res :=
  syncIssue c f [f.sa] (fun k =>
    sendAndWait k (corePacket c k 6 (syncId k f).toNat 0) (.swait (syncId k f))) s

def execSwaitv (c : CoreId) (f : SyncF) (s : State) : Res :=
  syncIssue c f [f.sa, f.sb] (fun k =>
    sendAndWait k (corePacket c k 4 (syncId k f).toNat 0) (.swaitv (syncId k f) (syncVal k f))) s

/-- BAR: the k-th of a scope arrives at barrier k of that scope (R191). -/
def execBar (c : CoreId) (f : SyncF) (s : State) : Res :=
  issue c [] [] (fun _ k =>
    if h : f.scope.toNat < 3 then
      if 8 ≤ k.units.syncQ.length then .stall
      else
        let n := k.cnt.barNext[f.scope.toNat]
        let k1 : Core := { k with cnt := { k.cnt with barNext := k.cnt.barNext.set f.scope.toNat (n + 1) } }
        sendAndWait k1 (packet 8 f.scope.toNat n.toNat (gxOf c) (gyOf c) 0 0 k.task.lpass.toNat 0) (.bar f.scope n)
    else .fault 4 0x0230 0) s

/-- SABORT: a program fault with SYNC_USER_ABORT; CORE_FAULT_ADDR is S[SB][31:0] (R184, R185). -/
def execSabort (c : CoreId) (f : SyncF) (s : State) : Res :=
  issue c [f.sb] [] (fun _ k =>
    if f.scope ≠ 0 then .fault 4 0x0230 0 else .fault 4 0x0240 (syncVal k f).toNat) s

/-- Where a packet of a sync unit goes: an ARRIVE to the core's cluster hub, any other to the object's home. -/
def packetDst (c : CoreId) (p : BitVec 96) : TatNode :=
  if pktType p = 8 then .cluster (ciOf c) else homeOf (pktId p)

/-- The counts of an FCOUNT held for the running layer pass (R295). -/
def holdFocus (misses active : Word) (s : State) : State :=
  match s.eng.lp with
  | none => s
  | some lp => s.setLp (some { lp with heldFocus := lp.heldFocus ++ [(misses, active)] })

/-- The queue once its head has left: the READ of an SWAITV that waited for room enters it (R184). -/
def queueLeft (c : CoreId) (k : Core) (rest : List SyncItem) : Core :=
  let k1 : Core := { k with units := { k.units with syncQ := rest } }
  match k.units.readDue, k.units.wait with
  | true, some (.swaitv id _) => { pushSync k1 (corePacket c k 4 id.toNat 0) with units := { (pushSync k1 (corePacket c k 4 id.toNat 0)).units with readDue := false } }
  | _, _ => k1

/-- SYNC_UNIT_SEND: the packet at the head of the queue is sent and leaves the queue (R184). -/
def execSyncUnitSend (c : CoreId) (s : State) : Res :=
  let k := s.core c
  match k.units.syncQ with
  | [] => .next s
  | x :: t =>
    let s1 := s.setCore c (queueLeft c k t)
    match x with
    | .pkt p => .next (s1.send (.core c) (packetDst c p) p)
    | .fcount m a => .next (holdFocus m a s1)

end Sys2Proof.Machine
end

