-- ==== Sys2Proof/Machine/Objects.lean ====
section
/-! DEFINITION. Sync objects at their homes (R174 to R182), descriptors, and their completion (R399 to R401, R404). -/

namespace Sys2Proof.Machine

open Sys2Proof

/-! ### Objects -/

/-- The test of R174: (COUNT − TARGET) as a signed 32-bit value is zero or greater. -/
def satisfied (o : SyncObj) : Bool := decide (0 ≤ (o.count - o.target).toInt)

/-- An object at its home. -/
def objGet (s : State) (id : Nat) : SyncObj :=
  match homeOf id with
  | .cluster ci => tabGet {} (s.cluster ci).objs id
  | _ => tabGet {} s.tat.objs id

/-- An object replaced at its home. -/
def objPut (id : Nat) (o : SyncObj) (s : State) : State :=
  match homeOf id with
  | .cluster ci => let k := s.cluster ci; s.setCluster ci { k with objs := tabSet k.objs id o }
  | _ => { s with tat := { s.tat with objs := tabSet s.tat.objs id o } }

/-- The node that coordinates name: a shuttle by 0xD0 + s, else a core. -/
def nodeOf (gx gy : Nat) : TatNode :=
  if h : 0xD0 ≤ gy ∧ gy < 0xD4 then .shuttle ⟨gy - 0xD0, by omega⟩
  else match coreAt gx gy with | some c => .core c | none => .root

/-- WAKE for a wait entry: the LPASS recorded for a core, the current one for a shuttle (R189). -/
def sendWake (id : Nat) (w : Waiter) (s : State) : State :=
  let lp := if 0xD0 ≤ w.gy.toNat then s.lpass else w.lpass.toNat
  s.send (homeOf id) (nodeOf w.gx.toNat w.gy.toNat) (packet 7 0 id 0 0 w.gx.toNat w.gy.toNat lp 0)

/-- Whether the pool of wait entries of an object's home is full: 256 entries for the 64 objects of a cluster hub, 1,024 for the root
(R176). -/
def poolFull (s : State) (id : Nat) : Bool :=
  let pooled (t : Tab SyncObj) : Nat := t.foldl (fun n e => n + (e.2.waiters.filter fun w => !w.spill).length) 0
  match homeOf id with
  | .cluster ci => decide (256 ≤ pooled (s.cluster ci).objs)
  | _ => decide (1024 ≤ pooled s.tat.objs)

/-- An object with a new COUNT or TARGET: when it is satisfied, every entry of its wait list is woken and the list is
emptied (R179). -/
def objChange (id : Nat) (o : SyncObj) (s : State) : State :=
  if satisfied o then o.waiters.foldl (fun s w => sendWake id w s) (objPut id { o with waiters := [] } s)
  else objPut id o s

def objAdd (id : Nat) (v : Word) (s : State) : State :=
  let o := objGet s id
  objChange id { o with count := o.count + v } s

def objSet (id : Nat) (v : Word) (s : State) : State := objChange id { objGet s id with count := v } s

def objTarget (id : Nat) (v : Word) (s : State) : State := objChange id { objGet s id with target := v } s

/-! ### Descriptors (R399, R402) -/

/-- `n` bytes at an offset of a descriptor. -/
def dField (d : BitVec 1024) (off n : Nat) : Nat := d.toNat / 2 ^ (8 * off) % 2 ^ (8 * n)

def dType (d : BitVec 1024) : Nat := dField d 0 1
def dIrq (d : BitVec 1024) : Bool := bitOf (dField d 1 1) 0
def dSerial (d : BitVec 1024) : Bool := bitOf (dField d 1 1) 1
def dCpl (d : BitVec 1024) : Bool := bitOf (dField d 1 1) 2
def dWait (d : BitVec 1024) : Bool := bitOf (dField d 1 1) 3
def dSignal (d : BitVec 1024) : Bool := bitOf (dField d 1 1) 4
def dVector (d : BitVec 1024) : Nat := dField d 2 1

/-- Whether a descriptor is ready (R400). -/
def dReady (s : State) (d : BitVec 1024) : Bool :=
  !dWait d || decide (0 ≤ ((objGet s (dField d 4 2)).count - BitVec.ofNat 32 (dField d 8 4)).toInt)

/-- The completion record (R401). -/
def cplRecord (q : QueueId) (f : Fetched) (st : BitVec 16) : List Byte :=
  leBytes 2 st.toNat ++ leBytes 1 (dType f.d) ++ leBytes 1 q.val ++ leBytes 2 f.index.toNat ++ leBytes 2 0
    ++ leBytes 8 (dField f.d 0x18 8)

/-- DB_STAT bit `k` is set; vector 3 is sent when it is newly set and not masked (R395, R409). -/
def ringBell (k : Nat) (s : State) : State :=
  let h := s.host
  let s1 : State := { s with host := { h with dbStat := h.dbStat ||| (1#32 <<< k) } }
  if !h.dbStat.getLsbD k && !h.dbMask.getLsbD k then msix 3 s1 else s1

/-- A module-side write of an inbound mailbox that is empty (R409). -/
def mbxPut (m : MbxId) (v : Word) (s : State) : State :=
  ringBell (m.val % 32) (s.setMbx m { s.host.mbx[m.val] with data := v, full := true })

/-- A module-side write of an inbound mailbox: a full one gives the writer an error, and nothing is recorded (R410). -/
def mbxSend (m : MbxId) (v : Word) (s : State) : State :=
  if s.host.mbx[m.val].full then s else mbxPut m v s

/-- A receiver takes the word of a host-sends mailbox (R409): with MBX_MODE 0 by its return code, else by clearing FULL. -/
def takeWord (m : MbxId) (code : BitVec 16) (s : State) : State :=
  let x := s.host.mbx[m.val]
  if !x.full then s
  else
    let x1 : Mbx := if x.mode then { x with full := false } else { x with full := false, ackValid := true, ackCode := code }
    ringBell (m.val % 32) (s.setMbx m x1)

/-- The mailbox on which the shuttle of a queue sends its events. -/
def eventMbx (q : QueueId) : MbxId := ⟨44 + q.val % 4, by omega⟩

/-- A queue that flushes, and of which nothing waits or runs, is DISABLED (R398). After an error its shuttle sends QUEUE_FLUSHED, and a QUEUE_RESET
that waited for it is answered (R413). -/
def queueSettle (q : QueueId) (s : State) : State :=
  let x := s.host.queues[q.val]
  if x.st = .flushing ∧ x.running.isEmpty ∧ x.waiting.isEmpty then
    let s1 := s.setQueue q { x with st := .disabled, enable := false, errFlush := false, resetBy := none }
    let s2 := if x.errFlush then mbxSend (eventMbx q) (BitVec.ofNat 32 (put 1 24 + q.val)) s1 else s1
    match x.resetBy with
    | some m => takeWord m 0 { s2 with host := { s2.host with shuttleCmd := none } }
    | none => s2
  else s

/-- What the shuttles keep of a descriptor that has not been admitted is dropped once it completes. -/
def forget (q : QueueId) (n : Nat) (e : Engine) : Engine :=
  { e with
    deferred := e.deferred.filter fun x => !(x.1 == q && x.2.1 == n),
    bytesHeld := e.bytesHeld.filter fun x => !(x.1 == q && x.2 == n) }

/-- A descriptor completes (R400): the record, Q_DONE, the signal, the interrupt, in this order. The signal is an ADD of a shuttle, which
reaches only shuttle-homed objects (R177), and vectors 0 to 15 belong to no descriptor (R395). -/
def completeOne (q : QueueId) (f : Fetched) (st : BitVec 16) (s : State) : State :=
  let s1 := if dCpl f.d then s.hostWrite (dField f.d 0x10 8) (cplRecord q f st) else s
  let x := s1.host.queues[q.val]
  let s2 := { s1 with eng := forget q f.ticket s1.eng }.setQueue q
    { x with done := x.done + 1, running := x.running.filter fun y => y.ticket != f.ticket }
  let s3 := if dSignal f.d && decide (0xC000 ≤ dField f.d 6 2) then objAdd (dField f.d 6 2) (BitVec.ofNat 32 (dField f.d 12 4)) s2 else s2
  let v := dVector f.d
  let s4 := if dIrq f.d && decide (16 ≤ v) && decide (v < 64) then msix v s3 else s3
  queueSettle q s4

/-- A WAIT_SYNC that runs and whose test holds, if there is one (R402). -/
def waitDone (s : State) : Option (QueueId × Fetched) :=
  (List.finRange 64).findSome? fun q =>
    (s.host.queues[q.val].running.find? fun f =>
      dType f.d == 5 &&
        decide (0 ≤ ((objGet s (dField f.d 0x20 2)).count - BitVec.ofNat 32 (dField f.d 0x24 4)).toInt)).map fun f => (q, f)

/-- Every WAIT_SYNC whose test holds completes with OK, in turn: one completion may satisfy another. -/
def settleWaits : Nat → State → State
  | 0, s => s
  | n + 1, s =>
    match waitDone s with
    | none => s
    | some (q, f) => settleWaits n (completeOne q f 0 s)

/-- The descriptors that run. -/
def runningCount (s : State) : Nat := s.host.queues.toList.foldl (fun n q => n + q.running.length) 0

/-- What an operation at the root lets complete. -/
def afterRoot (s : State) : State := settleWaits (runningCount s) s

/-- Bytes that the status area of a RUN_PASS needs with the records of some sketches (R405, R329). -/
def statusNeed (d : BitVec 1024) (sketches : Nat) : Nat :=
  32 + (8 * dField d 0x2C 4 + 31) / 32 * 32 + (if bitOf (dField d 0x28 4) 0 then 32 + 16 * sketches else 0)

def round32 (n : Nat) : Nat := (n + 31) / 32 * 32

/-- The record of a sketch (R330). -/
def sketchRecord (k : Sketch) : List Byte :=
  leBytes 2 k.index ++ leBytes 1 k.path ++ leBytes 1 k.k ++ leBytes 1 k.retries
    ++ leBytes 1 (b2n k.refused + 2 * b2n k.nfsSeen + 4 * b2n k.sampled) ++ leBytes 2 (min 65535 k.nfsBlocks)
    ++ leBytes 2 k.status.toNat ++ leBytes 6 0

/-- The reduction section (R329). -/
def redSection (step epoch group outcome decider resets : Nat) (ks : List Sketch) : List Byte :=
  leBytes 4 step ++ leBytes 2 epoch ++ leBytes 2 group ++ leBytes 2 outcome ++ leBytes 2 decider ++ leBytes 4 ks.length
    ++ leBytes 2 resets ++ leBytes 14 0 ++ ks.flatMap sketchRecord

/-- The records of the requests of a pass that was not admitted: REQ_ID is the table's where the table was read, and else free, and so is
the STATUS. -/
def unrunRequests (free : Nat) (table : List Byte) : Nat → List Byte
  | 0 => []
  | n + 1 => unrunRequests free table n
      ++ (if 16 * (n + 1) ≤ table.length then (table.drop (16 * n)).take 4 else freeBytes (free + 6 * n) 4)
      ++ freeBytes (free + 6 * n + 4) 2 ++ leBytes 2 0

/-- The status area of a RUN_PASS that completes without having been admitted. DESIGN CHOICE (log entry 81): R405 does not say what it then
holds beside STATUS, PASS_SEQ, REQ_COUNT and the requests; EPOCH, PLACEMENT from 0 to 3, DURATION_US, the STATUS of a request, and GROUP,
OUTCOME, DECIDER and RESETS of a reduction section are free values. -/
def unrunArea (d : BitVec 1024) (st : BitVec 16) (free : Nat) (table : List Byte) : List Byte :=
  let n := dField d 0x2C 4
  let train := bitOf (dField d 0x28 4) 0
  let f (i : Nat) : Nat := (Config.freeWord (free + i)).toNat % 65536
  leBytes 2 st.toNat ++ leBytes 2 (f 0) ++ leBytes 4 (dField d 0x20 4) ++ leBytes 2 0 ++ leBytes 1 (f 1 % 4) ++ leBytes 1 0
    ++ leBytes 4 n ++ leBytes 4 (if train then 32 + round32 (8 * n) else 0) ++ freeBytes (free + 2) 4
    ++ leBytes 8 0 ++ unrunRequests (free + 10) table n ++ List.replicate (round32 (8 * n) - 8 * n) 0
    ++ (if train then redSection (dField d 0x24 4) (f 0) (f 6) (f 7) (f 8) (f 9) [] else [])

/-- A RUN_PASS that completes without having been admitted writes its status area too (R400), where STATUS_ADDR and STATUS_SIZE name one. -/
def unrunStatus (f : Fetched) (st : BitVec 16) (table : List Byte) (s : State) : State :=
  if dType f.d = 2 ∧ dField f.d 0x38 8 % 32 = 0 ∧ statusNeed f.d 0 ≤ dField f.d 0x40 4 then
    let s1 := s.hostWrite (dField f.d 0x38 8) (unrunArea f.d st s.free table)
    { s1 with free := s.free + 10 + 6 * dField f.d 0x2C 4 }
  else s

/-- A descriptor completes that a check refuses, that is flushed, or that has done what it does, with what its signal lets complete. The
request table is that of a RUN_PASS, where it has been read. -/
def completeWith (table : List Byte) (q : QueueId) (f : Fetched) (st : BitVec 16) (s : State) : State :=
  afterRoot (completeOne q f st (unrunStatus f st table s))

/-- The same of a descriptor with no table. -/
def complete (q : QueueId) (f : Fetched) (st : BitVec 16) (s : State) : State := completeWith [] q f st s

/-- The descriptor of a queue with a ticket among those that run. -/
def runningAt (s : State) (q : QueueId) (n : Nat) : Option Fetched :=
  s.host.queues[q.val].running.find? fun f => f.ticket == n

/-- The running descriptor of a queue completes, if it is there; of a RUN_PASS the status area has been written. -/
def completeAt (q : QueueId) (n : Nat) (st : BitVec 16) (s : State) : State :=
  match runningAt s q n with
  | some f => afterRoot (completeOne q f st s)
  | none => s

/-- A descriptor that starts: it leaves those fetched and joins those that run. -/
def startDesc (q : QueueId) (f : Fetched) (s : State) : State :=
  let x := s.host.queues[q.val]
  s.setQueue q { x with waiting := x.waiting.tail, running := x.running ++ [f] }

/-- Whether the shuttle that serves a queue works: it is not held in reset, nor being restarted for an activation (R407, R470). -/
def shuttleUp (s : State) (q : QueueId) : Bool := !s.host.shuttleOff.getLsbD (q.val % 4)

/-- The descriptor at the head of a queue that may start: ready, and after a SERIAL one only when that has completed
(R404). -/
def headReady (s : State) (q : QueueId) : Option Fetched :=
  let x := s.host.queues[q.val]
  match x.waiting with
  | [] => none
  | f :: _ => if x.st = .active && shuttleUp s q && dReady s f.d && !(x.running.any fun r => dSerial r.d) then some f else none

/-- The head of a queue, ready and of a type. -/
def headOf (s : State) (q : QueueId) (ty : Nat) : Option Fetched :=
  match headReady s q with
  | some f => if dType f.d = ty then some f else none
  | none => none

/-- The first of the descriptors that wait in a flushing queue completes with QUEUE_FLUSHED. -/
def flushNext (q : QueueId) (f : Fetched) (s : State) : State :=
  let x := s.host.queues[q.val]
  complete q f 0x0208 (s.setQueue q { x with waiting := x.waiting.tail })

/-- A queue enters FLUSHING: what has been fetched and not started completes with QUEUE_FLUSHED, in ring order (R398). -/
def flushQueue (q : QueueId) (s : State) : State :=
  let x := s.host.queues[q.val]
  if x.st ≠ .active then s
  else queueSettle q (x.waiting.foldl (fun s f => flushNext q f s) (s.setQueue q { x with st := .flushing, enable := false }))

/-- A queue error (R398): ERR is set with the first code since it was cleared, and vector 7 is sent. -/
def queueError (q : QueueId) (code : BitVec 16) (s : State) : State :=
  let x := s.host.queues[q.val]
  if x.err then s else msix 7 (s.setQueue q { x with err := true, code := code })

end Sys2Proof.Machine
end

