-- ==== Sys2Proof/Machine/Descriptors.lean ====
section
/-! DEFINITION. The checks that a shuttle applies to a descriptor when it dispatches it (R403, steps 1 to 4), and the
dispatch of the descriptor at the head of a queue (R404). -/

namespace Sys2Proof.Machine

open Sys2Proof

/-- The operand bytes that a type uses, as offsets and sizes (R335, R402). -/
def usedBytes : Nat → List (Nat × Nat)
  | 1 => [(0x20, 16)]
  | 2 => [(0x20, 36)]
  | 3 => [(0x20, 96)]
  | 4 => [(0x20, 1), (0x22, 2), (0x24, 4), (0x28, 2)]
  | 5 => [(0x20, 2), (0x24, 4), (0x28, 4)]
  | 6 => [(0x20, 1), (0x24, 4), (0x28, 16)]
  | 7 => [(0x20, 16)]
  | 8 => [(0x20, 8), (0x28, 4)]
  | _ => []

/-- Whether every operand byte that the type does not use is zero. -/
def rsvdZero (d : BitVec 1024) : Bool :=
  (List.range 96).all fun i =>
    ((usedBytes (dType d)).any fun u => decide (u.1 ≤ 0x20 + i) && decide (0x20 + i < u.1 + u.2)) || dField d (0x20 + i) 1 == 0

/-- An object that the root homes (R175). -/
def rootObject (n : Nat) : Bool := decide (0xC000 ≤ n) && decide (n ≤ 0xFFFF)

/-- The header (R399). -/
def headerOk (d : BitVec 1024) : Bool :=
  bits (dField d 1 1) 7 5 == 0 && dField d 3 1 == 0
  && (if dIrq d then decide (16 ≤ dVector d) && decide (dVector d ≤ 63) else dVector d == 0)
  && (if dWait d then rootObject (dField d 4 2) else dField d 4 2 == 0)
  && (if dSignal d then rootObject (dField d 6 2) else dField d 6 2 == 0)
  && (!dCpl d || dField d 0x10 8 % 16 == 0)

/-- The minor version of the ABI that a descriptor needs (R394). -/
def abiNeeded (d : BitVec 1024) : Nat :=
  match dType d with
  | 2 => if dField d 0x2C 4 = 0 then 0 else 1
  | 3 => if dField d 0x20 1 = 4 ∨ dField d 0x20 1 = 5 then 3
    else if dField d 0x21 1 = 2 ∨ dField d 0x23 1 ≠ 0 then 2 else 0
  | 4 => if dField d 0x28 2 = 0xFFFF then 0 else 4
  | 5 => if dField d 0x28 4 = 0 then 0 else 4
  | 8 => if dField d 0x20 1 = 1 then 3 else 0
  | _ => 0

/-- A length of COPY and FILL (R402). -/
def copyLength (n : Nat) : Bool := n % 64 == 0 && decide (64 ≤ n) && decide (n ≤ 0xFFFFFFC0)

/-- A range of `n` bytes within the window, 64 B aligned, with the window enabled. -/
def windowRange (s : State) (h n : Nat) : Bool := s.eng.cfg.window && h % 64 == 0 && decide (h + n ≤ winBytes)

/-- The sketches of a step under the CURRENT epoch. -/
def currentSketches (s : State) : Nat :=
  match s.wts.current.bind fun e => e.man.scale with | some t => t.sketches.length | none => 0

/-- The operands of every type other than COLLECTIVE (R402, R257). -/
def operandsOk (s : State) (d : BitVec 1024) : Bool :=
  let g := dField d
  match dType d with
  | 1 => g 0x20 8 % 64 == 0
  | 2 =>
    let fl := g 0x28 4
    let n := g 0x2C 4
    decide (fl < 4) && decide (n ≤ 16384) && (if n = 0 then g 0x30 8 == 0 else g 0x30 8 % 16 == 0) && g 0x38 8 % 32 == 0
      && (!bitOf fl 1 || bitOf fl 0)
      && decide (statusNeed d (if bitOf fl 1 then currentSketches s else 0) ≤ g 0x40 4)
      && (!bitOf fl 0 || (match s.eng.image with | some im => im.training | none => true))
  | 4 => decide (1 ≤ g 0x20 1) && decide (g 0x20 1 ≤ 3) && rootObject (g 0x22 2)
      && (g 0x28 2 == 0xFFFF || decide (g 0x28 2 < 16384))
  | 5 => rootObject (g 0x20 2) && (g 0x28 4 == 0 || (decide (1000 ≤ g 0x28 4) && decide (g 0x28 4 ≤ 10000000)))
  | 6 =>
    let n := g 0x24 4
    let side (host : Bool) (a : Nat) : Bool := if host then a % 64 == 0 else windowRange s a n
    decide (g 0x20 1 ≤ 2) && copyLength n && side (g 0x20 1 == 0) (g 0x28 8) && side (g 0x20 1 == 1) (g 0x30 8)
  | 7 => copyLength (g 0x24 4) && windowRange s (g 0x28 8) (g 0x24 4)
  | 8 => decide (g 0x20 1 ≤ 1) && decide (g 0x21 1 ≤ 2) && decide (g 0x28 4 ≤ 60000)
  | _ => true

/-- The first of the checks 1 to 4 that fails. A COLLECTIVE's own operands are checked in step 5 (R337). -/
def descCheck (s : State) (d : BitVec 1024) : Option (BitVec 16) :=
  if dType d = 0 ∨ 8 < dType d then some 0x0201
  else if s.host.abi.toNat % 256 < abiNeeded d then some 0x0204
  else if !headerOk d ∨ !rsvdZero d ∨ !operandsOk s d then some 0x0202
  else if (dType d = 2 ∨ (dType d = 3 ∧ dField d 0x21 1 = 0)) ∧ s.eng.image.isNone then some 0x0209
  else none

/-- Whether a drain is under way (R467). -/
def drainOn (s : State) : Bool :=
  let d := s.eng.drains
  d.cmd || d.button || d.redfish || d.activation || d.power

/-- Whether the shuttles admit passes, collectives, copies, fills and slices: no drain is under way, no firmware is being activated,
Loupe answers, and the lever is closed (R467, R470, R491, R492). -/
def admits (s : State) : Bool :=
  !drainOn s && s.boot.act.step == 0 && !s.boot.loupeDown && !s.boot.earlyBreak

/-- The types that a drain holds. -/
def heldType (d : BitVec 1024) : Bool := dType d == 2 || dType d == 3 || dType d == 6 || dType d == 7

/-- The descriptor at the head of a queue, if it is ready and of a type and kind, is dispatched: it starts, and completes at
once if a check fails. An unassigned TYPE is dispatched by any command of its queue. The request table is that of a RUN_PASS. -/
def dispatchWith (table : List Byte) (q : QueueId) (ty : Nat) (kind : BitVec 1024 → Bool) (run : Fetched → State → State) (s : State) : State :=
  match headReady s q with
  | none => s
  | some f =>
    let unassigned := dType f.d = 0 ∨ 8 < dType f.d
    if !unassigned ∧ (dType f.d ≠ ty ∨ !kind f.d) then s
    else if heldType f.d && !admits s then s
    else match descCheck s f.d with
      | some code => completeWith table q f code (startDesc q f s)
      | none => run f (startDesc q f s)

/-- The dispatch of a descriptor with no request table. -/
def dispatch (q : QueueId) (ty : Nat) (kind : BitVec 1024 → Bool) (run : Fetched → State → State) (s : State) : State :=
  dispatchWith [] q ty kind run s

end Sys2Proof.Machine
end

