-- ==== Sys2Proof/Machine/CoreMatrix.lean ====
section
/-! DEFINITION. The matrix unit (R56 to R60, R99 to R102), with the reading of sparse strips and panels (R265 to R267)
and the sums of SMMA (R272). -/

namespace Sys2Proof.Machine

open Sys2Proof

/-! ### Issue of MMA and of the accumulator moves -/

/-- The PC recorded with a queued operation. -/
def pcOf (k : Core) : BitVec 11 := k.regs.pc

/-- An operation enters the matrix queue of four (R48); a full queue stalls it. -/
def enqueueMx (k : Core) (op : MxOp) : Act :=
  .one { k with units := { k.units with mxQ := k.units.mxQ ++ [op] } }

/-- The first fault among checks of alignment and then of range (R58). -/
def spadFaults (seg : BitVec 8) (l : List (Nat × Nat × Nat)) : Option (BitVec 16 × Nat) :=
  match l.find? fun x => x.1 % x.2.2 != 0 with
  | some x => some (0x0232, x.1)
  | none =>
    match l.find? fun x => !spadIn seg x.1 x.2.1 with
    | some x => some (0x0231, x.1)
    | none => none

/-- MMA (R56 to R58): checks, then the matrix queue. -/
def execMma (c : CoreId) (f : MmaF) (s : State) : Res :=
  issue c [f.sa, f.sb, f.ss] [] (fun _ k =>
    let kg := f.kg.toNat
    let a := (k.sreg f.sa).toNat
    let b := (k.sreg f.sb).toNat
    let ss := (k.sreg f.ss).toNat
    let sa := bits ss 19 0
    let sb := bits ss 51 32
    if 4 ≤ k.units.mxQ.length then .stall
    else if !fmtField f.fmtA.toNat || !fmtField f.fmtB.toNat then .fault 1 0x0230 0
    else if kg = 0 ∨ (pairCycles f.fmtA f.fmtB).isNone then .fault 1 0x0233 0
    else
      let data := [(a, 16 * kg * rowBytes f.fmtA, 32), (b, 32 * kg * rowBytes f.fmtB, 32)]
      let scales := (if hasScale f.fmtA then [(sa, 16 * kg, 16)] else [])
        ++ (if hasScale f.fmtB then [(sb, 32 * kg, 16)] else [])
      match spadFaults k.task.seg (data ++ scales) with
      | some (code, addr) => .fault 1 code addr
      | none => enqueueMx k (.mma f a b sa sb (pcOf k))) s

/-- Bytes that ACCST writes (R60). -/
def accstBytes (fmt : BitVec 4) : Nat := 16 * rowBytes fmt + if hasScale fmt then 16 else 0

/-- ACCST: checks, then the matrix queue. -/
def execAccst (c : CoreId) (f : AccF) (s : State) : Res :=
  issue c [f.sa] [] (fun _ k =>
    let a := (k.sreg f.sa).toNat
    if 4 ≤ k.units.mxQ.length then .stall
    else if !fmtField f.fmt.toNat then .fault 1 0x0230 0
    else if !(decide (f.fmt.toNat ≤ 5) || decide (10 ≤ f.fmt.toNat)) then .fault 1 0x0233 0
    else match spadFaults k.task.seg [(a, accstBytes f.fmt, 32)] with
      | some (code, addr) => .fault 1 code addr
      | none => enqueueMx k (.accst f a (pcOf k))) s

/-- An accumulator move that touches no scratchpad. -/
def accMove (c : CoreId) (f : AccF) (vs : List Reg) (op : Core → MxOp) (s : State) : Res :=
  issue c [] vs (fun _ k =>
    if 4 ≤ k.units.mxQ.length then .stall
    else if !fmtField f.fmt.toNat then .fault 1 0x0230 0
    else enqueueMx k (op k)) s

def execAccrd (c : CoreId) (f : AccF) (s : State) : Res := accMove c f [f.vx] (fun _ => .accrd f) s
def execAccwr (c : CoreId) (f : AccF) (s : State) : Res := accMove c f [f.vx] (fun k => .accwr f (k.vreg f.vx)) s
def execAccz (c : CoreId) (f : AccF) (s : State) : Res := accMove c f [] (fun _ => .accz f) s

/-! ### Which operation starts (R60) -/

/-- The accumulator of an operation. -/
def accOf : MxOp → Fin 4
  | .mma f _ _ _ _ _ => f.acc
  | .smma f _ _ _ _ _ => f.acc
  | .accst f _ _ => f.acc
  | .accrd f => f.acc
  | .accwr f _ => f.acc
  | .accz f => f.acc

/-- Whether the MAC array runs an operation; the write-out path runs the others. -/
def onMac : MxOp → Bool
  | .mma _ _ _ _ _ _ => true
  | .smma _ _ _ _ _ _ => true
  | _ => false

/-- The first operation of one path in the queue, with the queue before and after it. -/
def firstOf (mac : Bool) : List MxOp → List MxOp → Option (List MxOp × MxOp × List MxOp)
  | _, [] => none
  | before, o :: t => if onMac o = mac then some (before, o, t) else firstOf mac (before ++ [o]) t

/-- Whether an operation may start: every earlier operation on its accumulator has ended. -/
def mayStart (u : CoreUnits) (before : List MxOp) (o : MxOp) : Bool :=
  before.all (fun b => accOf b != accOf o)
  && (match u.mac with | some m => accOf m.op != accOf o | none => true)
  && (match u.move with | some m => accOf m != accOf o | none => true)

/-! ### Strips and panels (R265 to R267) -/

def pad32 (n : Nat) : Nat := (n + 31) / 32 * 32

/-- The words of a bitmap. -/
def bitmapWords (bs : List Byte) (n : Nat) : List Nat := (List.range n).map fun i => fieldAt bs (4 * i) 4

/-- Ones in the words of a bitmap. -/
def popWords (ws : List Nat) : Nat := ws.foldl (fun n w => n + (splitBits 1 32 w).foldl (· + ·) 0) 0

/-- Bytes of an element of a strip; 0 for a format that no strip has. -/
def stripElem (fmt : Nat) : Nat := if fmt = 0 then 2 else if fmt = 2 ∨ fmt = 3 then 1 else if fmt = 0xA then 4 else 0

/-- Bytes of a strip by its header. -/
def stripLen (h : List Byte) : Nat :=
  32 + pad32 (4 * fieldAt h 4 2) + pad32 (fieldAt h 0 4 * stripElem (fieldAt h 6 1))

/-- The checks of R267 on a strip: `fmt` and `nblk` are what the instruction asks, where it asks. -/
def stripOk (bs : List Byte) (fmt nblk : Option Nat) : Bool :=
  let n := fieldAt bs 4 2
  let fm := fieldAt bs 6 1
  decide (1 ≤ n) && decide (n ≤ 2048)
  && (match nblk with | some x => n == x | none => true)
  && (match fmt with | some x => fm == x | none => true)
  && stripElem fm != 0 && fieldAt bs 7 1 == 0 && fieldAt bs 12 20 == 0
  && fieldAt bs 0 4 == popWords (bitmapWords (bs.drop 32) n)

/-- The non-zero elements of a strip: the element index and its bits, in rising index. -/
def stripElems (bs : List Byte) : List (Nat × Nat) :=
  let n := fieldAt bs 4 2
  let e := stripElem (fieldAt bs 6 1)
  let idx := (List.range n).flatMap fun w =>
    (List.range 32).filterMap fun b => if bitOf (fieldAt bs (32 + 4 * w) 4) b then some (32 * w + b) else none
  let vals := bs.drop (32 + pad32 (4 * n))
  idx.zipIdx.map fun x => (x.1, fieldAt vals (e * x.2) e)

/-- Bytes of a panel by its header. -/
def panelLen (h : List Byte) : Nat :=
  let kg := fieldAt h 4 1
  let fm := fieldAt h 5 1
  32 + pad32 (4 * kg) + (if fm = 4 ∨ fm = 5 then 32 * kg else 0) + fieldAt h 0 4 * rowBytes (BitVec.ofNat 4 fm)

/-- The checks of R267 on a panel. -/
def panelOk (bs : List Byte) (fmt kg : Nat) : Bool :=
  let n := fieldAt bs 4 1
  decide (1 ≤ n) && n == kg && fieldAt bs 5 1 == fmt && fieldAt bs 6 26 == 0
  && fieldAt bs 0 4 == popWords (bitmapWords (bs.drop 32) n)

/-- What reading an operand gives: its bytes, the core with its parity record, the free values taken and whether parity
failed; or a fault with its code and address, and the same of what was read before it (R81). -/
inductive Fetch where
  | got (bs : List Byte) (k : Core) (free : Nat) (bad : Bool)
  | fault (code : BitVec 16) (addr : Nat) (k : Core) (free : Nat) (bad : Bool)

/-- Reads a strip or a panel: alignment and range first, then the checks. -/
def fetchPacked (k : Core) (a free : Nat) (len : List Byte → Nat) (ok : List Byte → Bool) : Fetch :=
  match spadFaults k.task.seg [(a, 32, 32)] with
  | some (code, addr) => .fault code addr k free false
  | none =>
    let h := k.spadGet 7 a 32 free
    let n := len h.bytes
    if !spadIn k.task.seg a n then .fault 0x0231 a h.core h.free h.bad
    else
      let r := h.core.spadGet 7 (a + 32) (n - 32) h.free
      let bs := h.bytes ++ r.bytes
      let bad := h.bad || r.bad
      if ok bs then .got bs r.core r.free bad else .fault 0x0601 a r.core r.free bad

/-- The 16 strips that a table of addresses names (R272). -/
def fetchStrips (fmt kg table : Nat) : List Nat → Core → Nat → Bool → List (List Byte) →
    Fetch × List (List Byte)
  | [], k, free, bad, acc => (.got [] k free bad, acc)
  | w :: t, k, free, bad, acc =>
    if w / 0x100000 ≠ 0 then (.fault 0x0601 table k free bad, acc)
    else match fetchPacked k w free stripLen (fun bs => stripOk bs (some fmt) (some kg)) with
      | .fault code a k' free' b => (.fault code a k' free' (bad || b), acc)
      | .got bs k' free' b => fetchStrips fmt kg table t k' free' (bad || b) (acc ++ [bs])

/-! ### Start (R59, R140, R267) -/

/-- The operands of an MMA, read as it starts. -/
def startMma (k : Core) (free : Nat) (f : MmaF) (a b sa sb : Nat) (op : MxOp) : Core × Nat × Bool :=
  let kg := f.kg.toNat
  let r1 := k.spadGet 1 a (16 * kg * rowBytes f.fmtA) free
  let r2 := r1.core.spadGet 1 b (32 * kg * rowBytes f.fmtB) r1.free
  let r3 := r2.core.spadGet 1 sa (if hasScale f.fmtA then 16 * kg else 0) r2.free
  let r4 := r3.core.spadGet 1 sb (if hasScale f.fmtB then 32 * kg else 0) r3.free
  let k' := r4.core
  ({ k' with units := { k'.units with mac := some ⟨op, [r1.bytes], r2.bytes, r3.bytes, r4.bytes⟩ } },
    r4.free, r1.bad || r2.bad || r3.bad || r4.bad)

/-- The operands of an SMMA, read and checked as it starts; a fault is recorded with UNIT 7 and the PC of the SMMA. A parity error of
what was read comes first, and its hardware abort decides (R81). -/
def startSmma (c : CoreId) (k : Core) (f : SparseF) (a b sb : Nat) (pc : BitVec 11) (ord : BitVec 64) (op : MxOp) (s : State) : State :=
  let kg := f.kg.toNat
  let t := k.spadGet 7 a 64 s.free
  let tab := (List.range 16).map fun i => fieldAt t.bytes (4 * i) 4
  let seen (k2 : Core) (f2 : Nat) (bad : Bool) : State :=
    let s1 := (s.setCore c k2).took (f2 - s.free)
    if bad then coreHwAbort c 0x0401 (.core c) s1 else s1
  match fetchStrips f.fmtA.toNat kg a tab t.core t.free t.bad [] with
  | (.fault code addr k1 f1 bad1, _) => coreFaultAt ord c 7 code pc addr (seen k1 f1 bad1)
  | (.got _ k1 f1 bad1, strips) =>
    let fin (k2 : Core) (f2 : Nat) (bad : Bool) (bs sc : List Byte) : State :=
      seen { k2 with units := { k2.units with mac := some ⟨op, strips, bs, [], sc⟩ } } f2 bad
    if f.bsp then
      match fetchPacked k1 b f1 panelLen (fun bs => panelOk bs f.fmtB.toNat kg) with
      | .fault code addr k2 f2 bad2 => coreFaultAt ord c 7 code pc addr (seen k2 f2 (bad1 || bad2))
      | .got bs k2 f2 bad2 => fin k2 f2 (bad1 || bad2) bs []
    else
      let r1 := k1.spadGet 7 b (32 * kg * rowBytes f.fmtB) f1
      let r2 := r1.core.spadGet 7 sb (if hasScale f.fmtB then 32 * kg else 0) r1.free
      fin r2.core r2.free (bad1 || r1.bad || r2.bad) r1.bytes r2.bytes

/-- MATRIX_OP_START: the first queued operation of a path starts, when earlier operations on its accumulator are final;
it leaves the queue (R48). -/
def execMatrixOpStart (c : CoreId) (u : MatrixPath) (s : State) : Res :=
  let k := s.core c
  let mac := u == .mac
  let busy := if mac then k.units.mac.isSome else k.units.move.isSome
  match firstOf mac [] k.units.mxQ with
  | none => .next s
  | some (before, op, after) =>
    if busy || !mayStart k.units before op then .next s
    else
      let k1 : Core := { k with units := { k.units with mxQ := before ++ after } }
      match op with
      | .mma f a b sa sb _ =>
        let r := startMma k1 s.free f a b sa sb op
        let s1 := (s.setCore c r.1).took (r.2.1 - s.free)
        .next (if r.2.2 then coreHwAbort c 0x0401 (.core c) s1 else s1)
      | .smma f a b sb pc ord => .next (startSmma c k1 f a b sb pc ord op s)
      | _ => .next (s.setCore c { k1 with units := { k1.units with move := some op } })

/-! ### Sums (R100 to R102) -/

/-- A value with its block scale; the scale byte 0xFF is NaN (R91). -/
def scaled (x : Nat) : Fp → Fp
  | .nan => .nan
  | .inf n => if x = 0xFF then .nan else .inf n
  | .fin n d => if x = 0xFF then .nan else .fin n ⟨d.z, d.e + x - 127⟩

/-- The exact sum of products of a group, with the flags of R101. DESIGN CHOICE (log entry 74): a sum of products that are all −0 is −0, as
R98 has it for two operands of a sum, and an accumulator of −0 then stays −0; a sum that is zero otherwise is +0. -/
def groupSum (ps : List (Fp × Fp)) : Fp × Word :=
  if ps.any fun p => p.1 == .nan || p.2 == .nan then (.nan, nsNanIn)
  else
    let qs := ps.map fun p => fpMul p.1 p.2
    if qs.any fun q => q.1 == .nan then (.nan, nsInvalid)
    else match qs.map Prod.fst with
      | [] => (.fin false ⟨0, 0⟩, 0)
      | x :: t => t.foldl (fun a y => let r := fpAdd a.1 y; (r.1, a.2 ||| r.2)) (x, 0)

/-- ACC + P, rounded once; a NaN already in the accumulator before the first group is an operand (R107). -/
def accAdd (first : Bool) (acc : Nat) (p : Fp × Word) : Nat × Word :=
  let a := Fmt.fp32.decode acc
  let r := fpAdd a p.1
  let o := Fmt.fp32.ofFp false r.1
  (o.1, p.2 ||| r.2 ||| o.2 ||| (if first then nanIn a else 0))

/-- A number saturated to INT32 (R102). -/
def satInt32 (v : Int) : Nat × Word :=
  if 0x7FFFFFFF < v then (0x7FFFFFFF, nsSat)
  else if v < -0x80000000 then (0x80000000, nsSat)
  else ((BitVec.ofInt 32 v).toNat, 0)

/-- The integer q × 2^d rounded to the nearest, ties to even. -/
def scaleInt (q d : Int) : Int :=
  if 0 ≤ d then q * (2 : Int) ^ d.toNat
  else
    let m : Int := shiftRound false q.natAbs (-d).toNat
    if q < 0 then -m else m

/-- One update of an INT32 accumulator element (R102). -/
def intUpdate (acc : Nat) (as bs : List Nat) (xa xb : Nat) : Nat × Word :=
  if xa = 0xFF ∨ xb = 0xFF then (acc, nsInvalid ||| nsScaleNan ||| nsNanIn)
  else
    let q : Int := (as.zip bs).foldl (fun n p => n + signedOf 8 p.1 * signedOf 8 p.2) 0
    satInt32 (signedOf 32 acc + scaleInt q (xa + xb - 254 : Int))

/-- One element over the groups 0 to `n` − 1: `step g acc` gives the update of group g. -/
def overGroups (step : Nat → Nat → Nat × Word) : Nat → Nat → Nat × Word
  | 0, acc => (acc, 0)
  | n + 1, acc =>
    let r := overGroups step n acc
    let u := step n r.1
    (u.1, r.2 ||| u.2)

/-- The accumulator with every element updated, and the flags. -/
def overAcc (old : Vector (BitVec 1024) 16) (za : Bool) (g : Nat → Nat → Nat → Nat × Word) :
    Vector (BitVec 1024) 16 × Word :=
  let rows := (List.range 16).map fun i =>
    let was := lanesOf 0 (old[i]?.getD 0)
    (List.range 32).map fun j => g i j (if za then 0 else was[j]?.getD 0)
  (Vector.ofFn fun i => ofLanes 0 ((rows[i.val]?.getD []).map Prod.fst),
    rows.foldl (fun w r => r.foldl (fun w x => w ||| x.2) w) 0)

/-- The row of elements at row `r` of an operand. -/
def rowAt (code : BitVec 4) (bs : List Byte) (r : Nat) : List Nat :=
  let w := rowBytes code
  rowElems code ((bs.drop (r * w)).take w)

/-- MMA on the operand bytes (R56, R100, R102). -/
def mmaResult (f : MmaF) (m : MacRun) (old : Vector (BitVec 1024) 16) : Vector (BitVec 1024) 16 × Word :=
  let a := m.a.headD []
  let sc (code : BitVec 4) (bs : List Byte) (i : Nat) : Nat :=
    if hasScale code then ((bs[i]?.getD 0).toNat) else 127
  overAcc old f.za fun i j acc0 =>
    overGroups (fun g acc =>
      let xa := sc f.fmtA m.sa (16 * g + i)
      let xb := sc f.fmtB m.sb (32 * g + j)
      let as := rowAt f.fmtA a (16 * g + i)
      let bs := (List.range 32).map fun kk => (rowAt f.fmtB m.b (32 * g + kk))[j]?.getD 0
      if f.fmtA = 9 then intUpdate acc as bs xa xb
      else
        let p := groupSum ((as.zip bs).map fun q => (scaled xa (elemVal f.fmtA q.1), scaled xb (elemVal f.fmtB q.2)))
        let sn := if xa = 0xFF ∨ xb = 0xFF then nsScaleNan else 0
        accAdd (g == 0) acc (p.1, p.2 ||| sn)) f.kg.toNat acc0

/-- The bitmap word of group g of B; a dense B has all ones (R272). -/
def bWord (f : SparseF) (m : MacRun) (g : Nat) : Nat :=
  if f.bsp then (bitmapWords (m.b.drop 32) f.kg.toNat)[g]?.getD 0 else 0xFFFFFFFF

/-- The offset of SCALES in a panel (R266). -/
def panelScales (f : SparseF) : Nat := 32 + pad32 (4 * f.kg.toNat)

/-- Element B[k][n]; k is a present row of a panel. -/
def bElem (f : SparseF) (m : MacRun) (k n : Nat) : Nat :=
  if f.bsp then
    let ws := bitmapWords (m.b.drop 32) f.kg.toNat
    let rank := popWords (ws.take (k / 32)) + popWords [(ws[k / 32]?.getD 0) % 2 ^ (k % 32)]
    let off := panelScales f + if hasScale f.fmtB then 32 * f.kg.toNat else 0
    (rowAt f.fmtB (m.b.drop off) rank)[n]?.getD 0
  else (rowAt f.fmtB m.b k)[n]?.getD 0

/-- The scale byte of column n in group g of B. -/
def bScale (f : SparseF) (m : MacRun) (g n : Nat) : Nat :=
  if !hasScale f.fmtB then 127
  else if f.bsp then (m.b[panelScales f + 32 * g + n]?.getD 0).toNat
  else (m.sb[32 * g + n]?.getD 0).toNat

/-- The members of the match set of group g (R272). -/
def matchSet (f : SparseF) (m : MacRun) (g : Nat) : List Nat :=
  let aw := m.a.foldl (fun w bs => w ||| fieldAt bs (32 + 4 * g) 4) 0
  let w := aw &&& bWord f m g
  (List.range 32).filter fun b => bitOf w b

/-- SMMA on its strips and its B (R272). -/
def smmaResult (f : SparseF) (m : MacRun) (old : Vector (BitVec 1024) 16) : Vector (BitVec 1024) 16 × Word :=
  let rows := m.a.map stripElems
  let sets := (List.range f.kg.toNat).map fun g => matchSet f m g
  let firstG := sets.findIdx fun ks => !ks.isEmpty
  overAcc old f.za fun i j acc0 =>
    overGroups (fun g acc =>
      match sets[g]?.getD [] with
      | [] => (acc, 0)
      | ks =>
        let xb := bScale f m g j
        let p := groupSum (ks.map fun kk =>
          (match (rows[i]?.getD []).find? (fun e => e.1 == 32 * g + kk) with
            | some e => elemVal f.fmtA e.2
            | none => .fin false ⟨0, 0⟩,
           scaled xb (elemVal f.fmtB (bElem f m (32 * g + kk) j))))
        accAdd (g == firstG) acc (p.1, p.2 ||| (if xb = 0xFF then nsScaleNan else 0))) f.kg.toNat acc0

/-! ### Accumulator stores (R60, R99) -/

/-- ⌊log₂ |d|⌋ of a number that is not zero. -/
def dyLog (d : Dy) : Int := d.z.natAbs.log2 + d.e

/-- A row encoded as one MX block: its elements, its scale byte, and the flags (R99). -/
def mxRow (m : Fmt) (vs : List Fp) : List Nat × Nat × Word :=
  if vs.any fun v => !(match v with | .fin _ _ => true | _ => false) then
    (vs.map fun _ => 0, 0xFF, if vs.contains .nan then nsNanIn else nsInvalid)
  else
    let emax : Int := if m = .e4m3 then 8 else 15
    let tops := vs.filterMap fun v => match v with
      | .fin _ d => if d.z = 0 then none else some (dyLog d - emax)
      | _ => none
    let x : Int := match tops with
      | [] => 0
      | t :: ts => max (-127) (min 127 (ts.foldl max t))
    (vs.map fun v => match v with
      | .fin n d => (m.round false n ⟨d.z, d.e - x⟩).1
      | _ => 0, (x + 127).toNat, 0)

/-- The bytes that ACCST writes, and the flags. -/
def accstData (fmt : BitVec 4) (acc : Vector (BitVec 1024) 16) : List Byte × Word :=
  let rows := acc.toList.map (lanesOf 0)
  if fmt = 0xB then (rows.flatMap fun r => leBytes 128 (joinBits 32 r), 0)
  else match codeFmt fmt with
    | none => ([], 0)
    | some m =>
      if hasScale fmt then
        let rs := rows.map fun r => mxRow m (r.map Fmt.fp32.decode)
        (rs.flatMap (fun r => leBytes 32 (joinBits 8 r.1)) ++ rs.map (fun r => BitVec.ofNat 8 r.2.1),
          rs.foldl (fun w r => w ||| r.2.2) 0)
      else
        let rs := rows.map fun r => r.map fun x =>
          let v := Fmt.fp32.decode x
          let o := m.ofFp false v
          (o.1, o.2 ||| nanIn v)
        (rs.flatMap fun r => leBytes (rowBytes fmt) (joinBits (codeBits fmt) (r.map Prod.fst)),
          rs.foldl (fun w r => r.foldl (fun w x => w ||| x.2) w) 0)

/-! ### Completion -/

/-- The cycles in which the array updates: every cycle of an MMA (R59), one for each group of an SMMA that is not empty
(R274). -/
def macCycles (m : MacRun) : Nat :=
  match m.op with
  | .mma f _ _ _ _ _ => f.kg.toNat * (pairCycles f.fmtA f.fmtB).getD 0
  | .smma f _ _ _ _ _ =>
    ((List.range f.kg.toNat).filter fun g => !(matchSet f m g).isEmpty).length
  | _ => 0

/-- A core with an accumulator replaced and flags set. -/
def setAcc (k : Core) (i : Fin 4) (r : Vector (BitVec 1024) 16 × Word) : Core :=
  ({ k with regs := { k.regs with acc := k.regs.acc.set i.val r.1 } }).flag r.2

/-- The counters of SMMA (R298): members walked, groups, and cycles of R274. -/
def smmaCount (f : SparseF) (m : MacRun) (n : CoreCnt) : CoreCnt :=
  let mem := (List.range f.kg.toNat).foldl (fun n g => n + (matchSet f m g).length) 0
  let c := if f.fmtA = 0 then 2 else 1
  { n with
    spMatched := incW n.spMatched mem,
    spGroups := incW n.spGroups f.kg.toNat,
    spCycles := incW n.spCycles (8 + f.kg.toNat + c * mem) }

/-- The operation on the MAC array ends: its accumulator is final. -/
def completeMac (k : Core) (m : MacRun) : Core :=
  let k1 : Core := { k with
    units := { k.units with mac := none },
    cnt := { k.cnt with mxBusy := k.cnt.mxBusy + BitVec.ofNat 64 (macCycles m) } }
  match m.op with
  | .mma f _ _ _ _ _ => setAcc k1 f.acc (mmaResult f m k1.regs.acc[f.acc.val])
  | .smma f _ _ _ _ _ =>
    setAcc { k1 with cnt := smmaCount f m k1.cnt } f.acc (smmaResult f m k1.regs.acc[f.acc.val])
  | _ => k1

/-- The move on the write-out path ends (R60). -/
def completeMove (k : Core) (op : MxOp) : Core :=
  let k1 : Core := { k with units := { k.units with move := none } }
  let acc (i : Fin 4) : Vector (BitVec 1024) 16 := k1.regs.acc[i.val]
  match op with
  | .accst f a _ => let d := accstData f.fmt (acc f.acc); (k1.spadPut a d.1).flag d.2
  | .accrd f => k1.setV f.vx ((acc f.acc)[f.row.val])
  | .accwr f v => setAcc k1 f.acc ((acc f.acc).set f.row.val v, 0)
  | .accz f => setAcc k1 f.acc (Vector.replicate 16 0, 0)
  | _ => k1

/-- MATRIX_OP_COMPLETE: what a path runs takes its effect. -/
def execMatrixOpComplete (c : CoreId) (u : MatrixPath) (s : State) : Res :=
  let k := s.core c
  match u with
  | .mac => match k.units.mac with
    | some m => .next (s.setCore c (completeMac k m))
    | none => .next s
  | .writeOut => match k.units.move with
    | some op => .next (s.setCore c (completeMove k op))
    | none => .next s

end Sys2Proof.Machine
end

