-- ==== Sys2Proof/Machine/Frames.lean ====
section
/-! DEFINITION. Frames of the Azram ports as the other chapters send and take them: CRC-32C and headers (R8, R228), the
choice of a port (R368, R369), ROUTE (R376), the inbox of a port die, and the codes of the link class (R384). -/

namespace Sys2Proof.Machine

open Sys2Proof

/-! ### CRC-32C (R228) -/

/-- One bit of the reflected division by 0x1EDC_6F41. -/
def crcBit (c : Word) : Word := if c.getLsbD 0 then (c >>> 1) ^^^ 0x82F63B78#32 else c >>> 1

def crcBits : Nat → Word → Word
  | 0, c => c
  | n + 1, c => crcBits n (crcBit c)

def crcRun : Word → List Byte → Word
  | c, [] => c
  | c, b :: t => crcRun (crcBits 8 (c ^^^ b.setWidth 32)) t

/-- CRC-32C of a byte string. -/
def crc32c (bs : List Byte) : Word := crcRun 0xFFFFFFFF#32 bs ^^^ 0xFFFFFFFF#32

/-! ### Headers -/

/-- A 64 B header by its fields: offset, size and value of each; every other byte is zero. -/
def hdrOf : List (Nat × Nat × Nat) → BitVec 512
  | [] => 0
  | (off, n, v) :: t => BitVec.ofNat 512 (put (v % 2 ^ (8 * n)) (8 * off)) ||| hdrOf t

/-- A field of a 64 B header. -/
def hf (h : BitVec 512) (off n : Nat) : Nat := h.toNat / 2 ^ (8 * off) % 2 ^ (8 * n)

/-- The bytes of a header. -/
def hdrBytes (h : BitVec 512) : List Byte := leBytes 64 h.toNat

/-- A header read from the first 64 bytes of a frame. -/
def frameHdr (bs : List Byte) : BitVec 512 := BitVec.ofNat 512 (leNat (bs.take 64))

def magicAz : Nat := 0x5A41
def magicWc : Nat := 0x4357
def magicF8 : Nat := 0x3846
def magicCl : Nat := 0x4C43

/-! ### Ports (R19, R367, R370) -/

/-- The port die of a port. -/
def dieOfPort (p : PortId) : DieId := ⟨p.val / 4, by omega⟩

/-- The code of PORT_ROLE in force for a port (R367). -/
def roleOf (s : State) (p : PortId) : Nat := bits s.eng.cfg.portRole.toNat (2 * p.val + 1) (2 * p.val)

def switchRole (r : Nat) : Bool := r == 1 || r == 2

/-- The ports of a port die. -/
def portsOf (d : DieId) : List PortId := (List.finRange 32).filter fun p => dieOfPort p == d

/-- Whether a port is in service. -/
def inServicePort (s : State) (p : PortId) : Bool := s.ports[p.val].st == .active

/-- The switch-facing ports in service of a port die. -/
def switchPorts (s : State) (d : DieId) : List PortId :=
  (portsOf d).filter fun p => inServicePort s p && switchRole (roleOf s p)

/-- The switch-facing ports in service of a port die on a plane. -/
def planePorts (s : State) (d : DieId) (plane : Nat) : List PortId :=
  (portsOf d).filter fun p => inServicePort s p && roleOf s p == plane + 1

/-- The peer-facing ports in service of a port die. -/
def peerPorts (s : State) (d : DieId) : List PortId :=
  (portsOf d).filter fun p => inServicePort s p && roleOf s p == 3

/-- The port die `n` mod 8, or the next in rising order, wrapping, that has a switch-facing port in service. -/
def dieFor (s : State) (n : Nat) : Option DieId :=
  (List.range 8).findSome? fun i =>
    let d : DieId := ⟨(n + i) % 8, Nat.mod_lt _ (by omega)⟩
    if (switchPorts s d).isEmpty then none else some d

/-! ### ROUTE (R376) -/

/-- ROUTE to one node: KIND 0 an engine, 1 a shard or switch. -/
def routeTo (kind srcDie dstDie dst : Nat) : Word :=
  BitVec.ofNat 32 (put kind 30 + put (srcDie % 8) 27 + put (dstDie % 16) 23 + dst % 32768)

/-- ROUTE to a broadcast group. -/
def routeGroup (srcDie dstDie group : Nat) : Word :=
  BitVec.ofNat 32 (put 1 31 + put (srcDie % 8) 27 + put (dstDie % 16) 23 + group % 65536)

/-! ### Sending -/

/-- A frame put in the transmit queue of a port. -/
def queueFrame (p : PortId) (f : Frame) (s : State) : State :=
  let x := s.ports[p.val]
  s.setPort p { x with xfer := { x.xfer with txq := x.xfer.txq.set f.ctx.val (x.xfer.txq[f.ctx.val] ++ [f]) } }

/-- A frame sent by a port die on one of the ports given, in rotation. With none of them in service it is not sent. -/
def sendOn (d : DieId) (ps : List PortId) (f : Frame) (s : State) : State :=
  match ps[(s.dies[d.val]).rot % ps.length]? with
  | none => s
  | some p =>
    let x := s.dies[d.val]
    queueFrame p f (s.setDie d { x with rot := x.rot + 1 })

/-- A frame sent on the switch-facing ports of a port die. -/
def sendSwitch (d : DieId) (f : Frame) (s : State) : State := sendOn d (switchPorts s d) f s

/-- A VC3 frame from the root to an engine (R369). -/
def sendRoot (dst : Nat) (h : BitVec 512) (s : State) : State :=
  match dieFor s dst with
  | none => s
  | some d => sendSwitch d ⟨4, routeTo 0 d.val 15 dst, hdrBytes h⟩ s

/-! ### Receiving -/

/-- The flits of a frame (R377). -/
def flitCount (bs : List Byte) : Nat := (bs.length + 255) / 256

/-- Credits freed on a port, for the flits of a frame that has been taken (R378). -/
def freeCredits (p : PortId) (vc : BitVec 2) (n : Nat) (s : State) : State :=
  let x := s.ports[p.val]
  let v : Fin 4 := ⟨vc.toNat, vc.isLt⟩
  s.setPort p { x with xfer := { x.xfer with freed := x.xfer.freed.set v.val (x.xfer.freed[v.val] + BitVec.ofNat 12 n) } }

/-- A frame that its consumer on port die `d` takes: it leaves the inbox where it waits, and frees its credits; one that
arrived at another die crosses the port-die ring and is counted in AZ_XDIE (R369). -/
def takeFrame (d : DieId) (bs : List Byte) (s : State) : State :=
  let out (e : DieId) : Option (PortId × State) :=
    match takeFirst (fun x => x.2.2 == bs) (s.dies[e.val]).inbox with
    | none => none
    | some (x, rest) => some (x.1, freeCredits x.1 x.2.1 (flitCount bs) (s.setDie e { s.dies[e.val] with inbox := rest }))
  match out d with
  | some r => r.2
  | none =>
    match (List.finRange 8).findSome? out with
    | none => s
    | some (p, s1) =>
      let x := s1.ports[p.val]
      s1.setPort p { x with cnt := { x.cnt with xdie := incW x.cnt.xdie } }

/-- A frame from an engine has arrived: the engine leaves the lost list (R360). -/
def heardFrom (id : Nat) (s : State) : State :=
  { s with coll := { s.coll with lost := s.coll.lost.filter fun x => x.toNat != id } }

/-- The bytes of a message with a 64 B header. -/
def msgBytes (m : Msg) : List Byte := hdrBytes m.hdr ++ m.payload

/-! ### Link codes (R384) -/

/-- A link code: AZ_ERR if VALID is clear, MSI-X vector 2, and the Redfish event. -/
def linkCode (p : PortId) (code : BitVec 16) (s : State) : State :=
  let x := s.ports[p.val]
  let err := if bitOf x.link.err.toNat 31 then x.link.err else BitVec.ofNat 32 (put 1 31 + code.toNat)
  logCode code (msix 2 (s.setPort p { x with link := { x.link with err := err } }))

end Sys2Proof.Machine
end

