-- ==== Sys2Proof/Machine/Crypto.lean ====
section
/-! DEFINITION. SHA-384, ECDSA on brainpoolP384r1, and the check of a signature block (R511 to R513). The constants of
SHA-384 and of the curve stand outside the spec: entry 6 of the assumption log. -/

namespace Sys2Proof.Machine

open Sys2Proof

/-! ### SHA-384 -/

abbrev Word64 := BitVec 64

/-- The round constants. -/
def shaK : List Word64 :=
  [
  0x428A2F98D728AE22, 0x7137449123EF65CD, 0xB5C0FBCFEC4D3B2F, 0xE9B5DBA58189DBBC,
  0x3956C25BF348B538, 0x59F111F1B605D019, 0x923F82A4AF194F9B, 0xAB1C5ED5DA6D8118,
  0xD807AA98A3030242, 0x12835B0145706FBE, 0x243185BE4EE4B28C, 0x550C7DC3D5FFB4E2,
  0x72BE5D74F27B896F, 0x80DEB1FE3B1696B1, 0x9BDC06A725C71235, 0xC19BF174CF692694,
  0xE49B69C19EF14AD2, 0xEFBE4786384F25E3, 0x0FC19DC68B8CD5B5, 0x240CA1CC77AC9C65]
  ++ [
  0x2DE92C6F592B0275, 0x4A7484AA6EA6E483, 0x5CB0A9DCBD41FBD4, 0x76F988DA831153B5,
  0x983E5152EE66DFAB, 0xA831C66D2DB43210, 0xB00327C898FB213F, 0xBF597FC7BEEF0EE4,
  0xC6E00BF33DA88FC2, 0xD5A79147930AA725, 0x06CA6351E003826F, 0x142929670A0E6E70,
  0x27B70A8546D22FFC, 0x2E1B21385C26C926, 0x4D2C6DFC5AC42AED, 0x53380D139D95B3DF,
  0x650A73548BAF63DE, 0x766A0ABB3C77B2A8, 0x81C2C92E47EDAEE6, 0x92722C851482353B]
  ++ [
  0xA2BFE8A14CF10364, 0xA81A664BBC423001, 0xC24B8B70D0F89791, 0xC76C51A30654BE30,
  0xD192E819D6EF5218, 0xD69906245565A910, 0xF40E35855771202A, 0x106AA07032BBD1B8,
  0x19A4C116B8D2D0C8, 0x1E376C085141AB53, 0x2748774CDF8EEB99, 0x34B0BCB5E19B48A8,
  0x391C0CB3C5C95A63, 0x4ED8AA4AE3418ACB, 0x5B9CCA4F7763E373, 0x682E6FF3D6B2B8A3,
  0x748F82EE5DEFB2FC, 0x78A5636F43172F60, 0x84C87814A1F0AB72, 0x8CC702081A6439EC]
  ++ [
  0x90BEFFFA23631E28, 0xA4506CEBDE82BDE9, 0xBEF9A3F7B2C67915, 0xC67178F2E372532B,
  0xCA273ECEEA26619C, 0xD186B8C721C0C207, 0xEADA7DD6CDE0EB1E, 0xF57D4F7FEE6ED178,
  0x06F067AA72176FBA, 0x0A637DC5A2C898A6, 0x113F9804BEF90DAE, 0x1B710B35131C471B,
  0x28DB77F523047D84, 0x32CAAB7B40C72493, 0x3C9EBE0A15C9BEBC, 0x431D67C49C100D4C,
  0x4CC5D4BECB3E42B6, 0x597F299CFC657E2A, 0x5FCB6FAB3AD6FAEC, 0x6C44198C4A475817]

/-- The initial hash value. -/
def shaInit : List Word64 := [0xCBBB9D5DC1059ED8, 0x629A292A367CD507, 0x9159015A3070DD17, 0x152FECD8F70E5939, 0x67332667FFC00B31, 0x8EB44A8768581511, 0xDB0C2E0D64F98FA7, 0x47B5481DBEFA4FA4]

/-- 8 bytes as a word, the most significant first. -/
def beWord (bs : List Byte) : Word64 := bs.foldl (fun w b => (w <<< 8) ||| b.setWidth 64) 0

/-- A byte string cut into 8-byte words, at most `n` of them. -/
def beWords : Nat → List Byte → List Word64
  | 0, _ => []
  | n + 1, bs => beWord (bs.take 8) :: beWords n (bs.drop 8)

/-- The next word of the message schedule, from the 16 before it, the oldest first. -/
def shaNext (w : List Word64) : Word64 :=
  let a := w.getD 0 0
  let b := w.getD 1 0
  let c := w.getD 9 0
  let d := w.getD 14 0
  let s0 := b.rotateRight 1 ^^^ b.rotateRight 8 ^^^ (b >>> 7)
  let s1 := d.rotateRight 19 ^^^ d.rotateRight 61 ^^^ (d >>> 6)
  a + s0 + c + s1

/-- One round on the eight working variables. -/
def shaRound (v : List Word64) (k w : Word64) : List Word64 :=
  match v with
  | [a, b, c, d, e, f, g, h] =>
    let s1 := e.rotateRight 14 ^^^ e.rotateRight 18 ^^^ e.rotateRight 41
    let ch := (e &&& f) ^^^ (~~~e &&& g)
    let t1 := h + s1 + ch + k + w
    let s0 := a.rotateRight 28 ^^^ a.rotateRight 34 ^^^ a.rotateRight 39
    let t2 := s0 + ((a &&& b) ^^^ (a &&& c) ^^^ (b &&& c))
    [t1 + t2, a, b, c, d + t1, e, f, g]
  | _ => v

/-- The rounds of a block, with the 16 words in hand. -/
def shaRounds : List Word64 → List Word64 → List Word64 → List Word64
  | [], _, v => v
  | k :: ks, w, v => shaRounds ks (w.tail ++ [shaNext w]) (shaRound v k (w.headD 0))

/-- One block of 128 bytes. -/
def shaBlock (h : List Word64) (block : List Byte) : List Word64 :=
  (h.zip (shaRounds shaK (beWords 16 block) h)).map fun p => p.1 + p.2

def shaBlocks : Nat → List Word64 → List Byte → List Word64
  | 0, h, _ => h
  | n + 1, h, bs => shaBlocks n (shaBlock h (bs.take 128)) (bs.drop 128)

/-- The bytes of a number, the most significant first. -/
def beBytes (n v : Nat) : List Byte := (leBytes n v).reverse

/-- SHA-384 of a byte string. -/
def sha384 (bs : List Byte) : List Byte :=
  let padLen := (240 - (bs.length + 1) % 128) % 128
  let m := bs ++ [0x80#8] ++ List.replicate padLen 0 ++ beBytes 16 (8 * bs.length)
  ((shaBlocks (m.length / 128) shaInit m).take 6).flatMap fun w => beBytes 8 w.toNat

/-- A byte string as a number, the most significant byte first. -/
def beNat (bs : List Byte) : Nat := bs.foldl (fun n b => n * 256 + b.toNat) 0

/-! ### brainpoolP384r1 -/

def ecP : Nat := 0x8CB91E82A3386D280F5D6F7E50E641DF152F7109ED5456B412B1DA197FB71123ACD3A729901D1A71874700133107EC53
def ecA : Nat := 0x7BC382C63D8C150C3C72080ACE05AFA0C2BEA28E4FB22787139165EFBA91F90F8AA5814A503AD4EB04A8C7DD22CE2826
def ecB : Nat := 0x04A8C7DD22CE28268B39B55416F0447C2FB77DE107DCD2A62E880EA53EEB62D57CB4390295DBC9943AB78696FA504C11
def ecX : Nat := 0x1D1C64F068CF45FFA2A63A81B7C13F6B8847A3E77EF14FE3DB7FCAFE0CBD10E8E826E03436D646AAEF87B2E247D4AF1E
def ecY : Nat := 0x8ABE1D7520F9C2A45CB1EB8E95CFD55262B70B29FEEC5864E19C054FF99129280E4646217791811142820341263C5315
def ecQ : Nat := 0x8CB91E82A3386D280F5D6F7E50E641DF152F7109ED5456B31F166E6CAC0425A7CF3AB6AF6B7FC3103B883202E9046565

/-- b to the power e modulo m, over `n` bits of e. -/
def powMod (m : Nat) : Nat → Nat → Nat → Nat
  | 0, _, _ => 1
  | n + 1, b, e => (if e % 2 = 1 then b else 1) * powMod m n (b * b % m) (e / 2) % m

/-- The inverse modulo a prime of 384 bits. -/
def invMod (m a : Nat) : Nat := powMod m 384 (a % m) (m - 2)

/-- A point of the curve; `none` is the point at infinity. -/
abbrev EcPoint := Option (Nat × Nat)

def ecAdd : EcPoint → EcPoint → EcPoint
  | none, r => r
  | l, none => l
  | some (x1, y1), some (x2, y2) =>
    if x1 = x2 ∧ (y1 + y2) % ecP = 0 then none
    else
      let k := if x1 = x2 then (3 * x1 * x1 + ecA) * invMod ecP (2 * y1) % ecP
        else (y2 + ecP - y1) * invMod ecP (x2 + ecP - x1) % ecP
      let x3 := (k * k + 2 * ecP - x1 - x2) % ecP
      some (x3, (k * (x1 + ecP - x3) + ecP - y1) % ecP)

/-- A multiple of a point, over `n` bits. -/
def ecMul : Nat → Nat → EcPoint → EcPoint
  | 0, _, _ => none
  | n + 1, k, p => ecAdd (if k % 2 = 1 then p else none) (ecMul n (k / 2) (ecAdd p p))

/-- ECDSA verification of (r, s) over a digest with the public key (x, y). -/
def ecdsaOk (x y r s : Nat) (digest : List Byte) : Bool :=
  let on := decide (x < ecP) && decide (y < ecP) && y * y % ecP == (x * x * x + ecA * x + ecB) % ecP
  let rng (v : Nat) : Bool := decide (0 < v) && decide (v < ecQ)
  if on && rng r && rng s then
    let w := invMod ecQ s
    let u := beNat digest * w % ecQ
    let v := r * w % ecQ
    match ecAdd (ecMul 384 u (some (ecX, ecY))) (ecMul 384 v (some (x, y))) with
    | none => false
    | some (px, _) => px % ecQ == r
  else false

/-! ### Signature blocks (R511, R512) -/

/-- The code X of R512 for a kind. -/
def sigCode (kind : Nat) : BitVec 16 := if kind = 1 then 0x0C01 else if kind = 2 then 0x0C02 else 0x0C04

/-- The KEY_ID in force of a slot, if it is enrolled and not revoked (R510, R517). -/
def slotKey (s : State) (slot : Nat) : Option (List Byte) :=
  if slot < 8 then
    let k := s.mgmt.keyIds.toList.getD slot []
    if k.isEmpty || s.mgmt.opRevoked.getLsbD slot then none else some k
  else if 0xF0 ≤ slot ∧ slot < 0xF4 then
    if s.mgmt.fwRevoked.getLsbD (slot - 0xF0) then none else some (Config.romKey (slot - 0xF0))
  else none

/-- Whether a slot is of the right kind for an object. -/
def slotFits (kind slot : Nat) : Bool :=
  if kind = 3 then decide (0xF0 ≤ slot) && decide (slot < 0xF4) else decide (slot < 8)

/-- The counter of step 4 (R512, R513): at staging a bundle is held against all three. -/
def sigFloor (s : State) (kind : Nat) : Nat :=
  if kind = 3 then max s.mgmt.ctrLoupe (max s.mgmt.ctrShuttle s.mgmt.ctrCore) else s.mgmt.ctrObject

/-- The SEC_VERSION of a signature block. -/
def sigSec (block : List Byte) : Nat := fieldAt block 8 4

/-- Checks 1 to 3 of R512. -/
def sigBody (s : State) (kind : Nat) (covered block : List Byte) : Option (BitVec 16) :=
  let f := fieldAt block
  let slot := f 7 1
  let zero (o n : Nat) : Bool := f o n == 0
  if !(block.length == 256 && f 0 4 == 0x42535143 && f 4 2 == 1 && f 6 1 == kind && decide (f 8 4 ≤ 128) && zero 0x0C 4
      && zero 0x70 16 && zero 0xE0 32 && slotFits kind slot) then some (sigCode kind)
  else if slotKey s slot != some (sha384 ((block.drop 0x10).take 96)) then some 0x0C05
  else if !(ecdsaOk (f 0x10 48) (f 0x40 48) (f 0x80 48) (f 0xB0 48) (sha384 (covered ++ block.take 0x80))) then
    some (sigCode kind)
  else none

/-- The signature check of R512: the code of the first failure. -/
def sigCheck (s : State) (kind : Nat) (covered block : List Byte) : Option (BitVec 16) :=
  match sigBody s kind covered block with
  | some c => some c
  | none => if sigSec block < sigFloor s kind then some 0x0C03 else none

end Sys2Proof.Machine
end

