-- ==== Sys2Proof/Machine/Manifest.lean ====
section
/-! DEFINITION. Manifests: their format (R233 to R237, R259, R285, R286, R305 to R307) and the checks of R238 and R308. -/

namespace Sys2Proof.Machine

open Sys2Proof

/-- The bytes of a table's entries: `n` entries of `size` bytes from offset `o`. -/
def entriesAt (bs : List Byte) (o size : Nat) : Nat → List (List Byte)
  | 0 => []
  | n + 1 => ((bs.drop o).take size) :: entriesAt bs (o + size) size n

/-- A signed byte. -/
def sByte (v : Nat) : Int := signedOf 8 v

/-! ### Image flags (R85, R82) -/

def lfStreamed (e : LayerEntry) : Bool := e.flags.getLsbD 0
def lfSplit (e : LayerEntry) : Bool := e.flags.getLsbD 1
def lfSparse (e : LayerEntry) : Bool := e.flags.getLsbD 2
def lfSketch (e : LayerEntry) : Bool := e.flags.getLsbD 3
def lfFocus (e : LayerEntry) : Bool := e.flags.getLsbD 4

/-- The placements present in an image. -/
def placesOf (im : Image) : List Nat := (List.range 4).filter fun p => im.places.getLsbD p

/-- The plan of an index in a placement. -/
def planAt (im : Image) (place index : Nat) : Option Plan :=
  im.plans.find? fun p => p.place == place && p.index == index

/-- Ingress flow `i` of a plan: its flow number and the flow (R237). -/
def ingressFlow (p : Plan) (i : Nat) : Option (Nat × Flow) :=
  (((List.range p.flows.length).zip p.flows).filter fun f => f.2.flags.getLsbD 1)[i]?

/-! ### The tables -/

def parseManLayer (b : List Byte) : ManLayer :=
  ⟨fieldAt b 0 2, fieldAt b 4 4, fieldAt b 8 4, fieldAt b 12 4, fieldAt b 16 4⟩

def parseManChunk (b : List Byte) : ManChunk where
  shard := BitVec.ofNat 16 (fieldAt b 0 2)
  flags := BitVec.ofNat 8 (fieldAt b 2 1)
  pieces := fieldAt b 3 1
  firstPiece := fieldAt b 4 4
  object := BitVec.ofNat 64 (fieldAt b 8 8)
  wireLen := fieldAt b 0x10 4
  decLen := fieldAt b 0x14 4
  decCrc := BitVec.ofNat 32 (fieldAt b 0x18 4)
  die := fieldAt b 0x1C 1
  formats := BitVec.ofNat 8 (fieldAt b 0x1D 1)

def parseManPiece (b : List Byte) : ManPiece where
  sel := fieldAt b 0 1
  dest := fieldAt b 1 1
  target := fieldAt b 2 2
  srcOff := fieldAt b 4 4
  rowBytes := fieldAt b 8 4
  srcStride := fieldAt b 0xC 4
  rows := fieldAt b 0x10 4
  dstOff := fieldAt b 0x14 4
  win := fieldAt b 0x18 1
  flags := BitVec.ofNat 8 (fieldAt b 0x19 1)
  syncId := BitVec.ofNat 16 (fieldAt b 0x1A 2)
  syncInc := BitVec.ofNat 16 (fieldAt b 0x1C 2)

def parseManSlot (b : List Byte) : ManSlot := ⟨fieldAt b 0 2, fieldAt b 2 1, fieldAt b 4 4, fieldAt b 8 4⟩

def parseSketch (b : List Byte) : SketchEntry where
  entry := fieldAt b 0 2
  layerId := BitVec.ofNat 16 (fieldAt b 2 2)
  mside := BitVec.ofNat 8 (fieldAt b 4 1)
  die := fieldAt b 5 1
  shard := BitVec.ofNat 16 (fieldAt b 6 2)
  rows := fieldAt b 8 4
  cols := fieldAt b 0xC 4
  e0 := sByte (fieldAt b 0x10 1)
  e1 := sByte (fieldAt b 0x11 1)
  e2 := sByte (fieldAt b 0x12 1)
  intakeOff := fieldAt b 0x14 4
  chunks := fieldAt b 0x18 4

/-- The scale table, from its own bytes (R305 to R307). -/
def parseScale (b : List Byte) : ScaleTable where
  group := BitVec.ofNat 16 (fieldAt b 4 2)
  levels := fieldAt b 8 1
  primary := fieldAt b 9 1
  control := BitVec.ofNat 16 (fieldAt b 0xA 2)
  members := (entriesAt b (fieldAt b 0xC 4) 4 (fieldAt b 6 2)).map fun e =>
    (BitVec.ofNat 14 (fieldAt e 0 2), fieldAt e 2 2)
  sketches := (entriesAt b (fieldAt b 0x10 4) 32 (fieldAt b 0 4)).map parseSketch

def parseRowGroup (b : List Byte) : RowGroup :=
  ⟨fieldAt b 0 4, fieldAt b 4 4, BitVec.ofNat 32 (fieldAt b 8 4), fieldAt b 0xC 4, fieldAt b 0x10 1⟩

/-- A focus header with its row groups and codes (R285, R286). -/
def parseFocusHdr (bs h : List Byte) : FocusHdr where
  entry := fieldAt h 0 2
  sketchDie := fieldAt h 2 1
  sketchWin := fieldAt h 3 1
  sketchFlow := fieldAt h 0xC 2
  emin := BitVec.ofNat 8 (fieldAt h 0xE 1)
  sketchDst := fieldAt h 0x14 4
  mainEchoDst := fieldAt h 0x18 4
  catchEchoDst := fieldAt h 0x1C 4
  maskMsgs := (List.range 8).map fun i => fieldAt h (0x20 + 2 * i) 2
  catchMsgs := (List.range 8).map fun i => fieldAt h (0x30 + 2 * i) 2
  groups := (entriesAt bs (fieldAt h 8 4) 24 (fieldAt h 4 4)).map parseRowGroup
  codes := (bs.drop (fieldAt h 0x10 4)).take (16 * fieldAt h 4 4)

/-- The focus headers' bytes of a manifest. -/
def focusHdrs (bs : List Byte) : List (List Byte) :=
  let o := fieldAt bs 0x44 4
  if fieldAt bs 4 2 = 2 ∧ o ≠ 0 then entriesAt bs (o + 16) 64 (fieldAt bs o 4) else []

/-- The bytes of the scale table, if there is one. -/
def scaleBytes (bs : List Byte) : Option (List Byte) :=
  if fieldAt bs 6 1 = 0 ∧ fieldAt bs 0x34 4 ≠ 0 then some ((bs.drop (fieldAt bs 0x34 4)).take (fieldAt bs 0x38 4))
  else none

/-- A manifest from its bytes. -/
def parseManifest (bs : List Byte) : Manifest where
  version := fieldAt bs 4 2
  kind := fieldAt bs 6 1
  number := BitVec.ofNat 16 (fieldAt bs 8 2)
  baseEpoch := BitVec.ofNat 16 (fieldAt bs 0xA 2)
  buildId := BitVec.ofNat 64 (fieldAt bs 0x10 8)
  layers := (entriesAt bs (fieldAt bs 0x28 4) 24 (fieldAt bs 0x20 4)).map parseManLayer
  chunks := (entriesAt bs (fieldAt bs 0x2C 4) 32 (fieldAt bs 0xC 4)).map parseManChunk
  pieces := (entriesAt bs (fieldAt bs 0x30 4) 32 (fieldAt bs 0x24 4)).map parseManPiece
  slots := (entriesAt bs (fieldAt bs 0x3C 4) 16 (fieldAt bs 0x40 4)).map parseManSlot
  scale := (scaleBytes bs).map parseScale
  focus := (focusHdrs bs).map (parseFocusHdr bs)

/-! ### Check 1 -/

def allZero (bs : List Byte) : Bool := bs.all fun b => b == 0

/-- The reserved fields of the tables, and of the scale and row-group tables. -/
def manReserved (bs : List Byte) : Bool :=
  let f := fieldAt bs
  allZero ((bs.drop 0x50).take 176) && f 7 1 == 0
    && ((entriesAt bs (f 0x28 4) 24 (f 0x20 4)).all fun e => fieldAt e 2 2 == 0 && fieldAt e 0x14 4 == 0)
    && ((entriesAt bs (f 0x2C 4) 32 (f 0xC 4)).all fun e => bits (fieldAt e 2 1) 7 2 == 0 && fieldAt e 0x1E 2 == 0)
    && ((entriesAt bs (f 0x30 4) 32 (f 0x24 4)).all fun e =>
      fieldAt e 0x1E 2 == 0 && bits (fieldAt e 0x18 1) 7 3 == 0 && bits (fieldAt e 0x19 1) 7 1 == 0)
    && ((entriesAt bs (f 0x3C 4) 16 (f 0x40 4)).all fun e => fieldAt e 3 1 == 0 && fieldAt e 0xC 4 == 0)
    && (f 4 2 != 2 || f 0x44 4 == 0 || allZero ((bs.drop (f 0x44 4 + 4)).take 12))
    && ((focusHdrs bs).all fun h => bits (fieldAt h 3 1) 7 3 == 0 && fieldAt h 0xF 1 == 0
      && (entriesAt bs (fieldAt h 8 4) 24 (fieldAt h 4 4)).all fun e => fieldAt e 0x11 7 == 0)

/-- The bounds of the tables within MANIFEST_SIZE. DESIGN CHOICE (log entry 86): R238 names no check of their alignment (R233), and a table that is
not 8 B aligned is accepted. -/
def manBounds (bs : List Byte) : Bool :=
  let f := fieldAt bs
  let size := bs.length
  let inside (o n : Nat) : Bool := decide (o + n ≤ size)
  inside (f 0x28 4) (24 * f 0x20 4) && inside (f 0x2C 4) (32 * f 0xC 4) && inside (f 0x30 4) (32 * f 0x24 4)
    && inside (f 0x34 4) (f 0x38 4) && inside (f 0x3C 4) (16 * f 0x40 4) && inside (f 0x44 4) (f 0x48 4)
    && inside (f 0x4C 4) 256
    && ((focusHdrs bs).all fun h =>
        inside (fieldAt h 8 4) (24 * fieldAt h 4 4) && inside (fieldAt h 0x10 4) (16 * fieldAt h 4 4))

/-- Whether two ranges have a byte in common. -/
def overlap (a n b m : Nat) : Bool := decide (0 < n) && decide (0 < m) && decide (a < b + m) && decide (b < a + n)

/-- Whether the elements of a list hold pairwise under a test. -/
def pairwiseAll {α : Type} (t : α → α → Bool) : List α → Bool
  | [] => true
  | x :: xs => xs.all (t x) && pairwiseAll t xs

/-- The rules of R308 for the scale table of a training image. -/
def scaleOk (s : State) (im : Image) (bs : List Byte) : Bool :=
  match scaleBytes bs with
  | none => false
  | some b =>
    let t := parseScale b
    let inside (o n : Nat) : Bool := decide (o + n ≤ b.length)
    let mine := t.members.filter fun m => m.1 == s.eng.cfg.engineId
    let rank (e : SketchEntry) : Nat := match im.layers[e.entry]? with | some l => l.rank | none => 0
    let entryOk (e : SketchEntry) : Bool :=
      let n := e.rows * e.cols
      let k := rank e
      (match im.layers[e.entry]? with | some l => l.dir == 1 && lfSketch l | none => false)
        && (if e.mside.getLsbD 7 then e.rows == 2 * k + 1 else e.cols == k)
        && decide (1 ≤ n) && decide (n ≤ 2 ^ 31) && e.chunks == (n + 65535) / 65536
        && decide (e.e0 ≤ e.e1) && (t.levels != 2 || (decide (e.e1 ≤ e.e2) && decide (e.e2 + 3 ≤ 127)))
        && decide (e.intakeOff + 4 * n ≤ 64 * mib)
        && t.sketches.any fun o => o.entry == e.entry && o.mside == e.mside ^^^ 0x80
    let apart (x y : SketchEntry) : Bool :=
      (x.entry != y.entry || x.mside != y.mside)
        && !(x.entry == y.entry && x.die == y.die
          && overlap x.intakeOff (4 * x.rows * x.cols) y.intakeOff (4 * y.rows * y.cols))
    decide (64 ≤ b.length) && inside (fieldAt b 0xC 4) (4 * fieldAt b 6 2) && inside (fieldAt b 0x10 4) (32 * fieldAt b 0 4)
      && mine.length == 1 && pairwiseAll (fun x y : BitVec 14 × Nat => x.1 != y.1) t.members
      && ((List.range im.layers.length).all fun i =>
          (match im.layers[i]? with | some l => !lfSketch l | none => true) || t.sketches.any fun e => e.entry == i)
      && t.sketches.all entryOk && pairwiseAll apart t.sketches
      && allZero ((b.drop 0x14).take 44)
      && ((entriesAt b (fieldAt b 0xC 4) 4 (fieldAt b 6 2)).all fun e => decide (fieldAt e 0 2 < 0x4000))
      && ((entriesAt b (fieldAt b 0x10 4) 32 (fieldAt b 0 4)).all fun e => fieldAt e 0x13 1 == 0 && fieldAt e 0x1C 4 == 0)

/-- Check 1, for the KIND and NUMBER of the EPOCH_SWITCH. -/
def manCheck1 (s : State) (im : Option Image) (adapter : Bool) (number : BitVec 16) (bs : List Byte) : Bool :=
  let f := fieldAt bs
  decide (256 ≤ bs.length) && f 0 4 == 0x4D575143 && (f 4 2 == 1 || f 4 2 == 2) && decide (f 6 1 ≤ 1)
    && f 0x18 8 == bs.length && manBounds bs && manReserved bs
    && f 6 1 == b2n adapter && f 8 2 == number.toNat && (adapter || f 0xA 2 == 0)
    && (match im with | some i => !i.training || adapter || scaleOk s i bs | none => true)

/-! ### Formats (R227, R240, R241) -/

def storedOf (c : ManChunk) : BitVec 4 := c.formats.extractLsb' 4 4
def targetOf (c : ManChunk) : BitVec 4 := c.formats.extractLsb' 0 4

/-- The format pairs of R240. -/
def formatPair (a b : BitVec 4) : Bool :=
  let x := a.toNat
  let y := b.toNat
  (x == y && decide (x < 12)) || (y == 4 && (x == 6 || x == 7 || x == 8)) || (y == 0 && decide (2 ≤ x) && decide (x ≤ 9))
    || (x == 0 && (y == 4 || y == 5))

/-- Whether a decoded length is whole blocks, or whole elements where no block is asked for. -/
def wholeBlocks (a b : BitVec 4) (n : Nat) : Bool :=
  if hasScale a then n % (rowBytes a + 1) == 0
  else if hasScale b then n % rowBytes a == 0
  else n % (codeBits a / 8) == 0

/-- The elements in a decoded length. -/
def elemCount (a : BitVec 4) (n : Nat) : Nat :=
  if hasScale a then n / (rowBytes a + 1) * 32 else n * 8 / codeBits a

/-- The lengths of the two output streams. -/
def streamLens (a b : BitVec 4) (n : Nat) : Nat × Nat :=
  let e := elemCount a n
  (e * codeBits b / 8, if hasScale b then e / 32 else 0)

/-! ### Checks 4 to 7 -/

/-- Whether an index lies in a range. -/
def inRange (i first count : Nat) : Bool := decide (first ≤ i) && decide (i < first + count)

/-- Check 4. -/
def manCheck4 (im : Image) (m : Manifest) : Bool :=
  m.kind == 1
  || (((List.range im.layers.length).all fun i =>
        match im.layers[i]? with
        | some l => l.chunks == 0 || ((m.layers.filter fun x => x.entry == i).map (·.streamCount)) == [l.chunks]
        | none => true)
      && (m.layers.all fun x =>
        match im.layers[x.entry]? with
        | some l => l.chunks != 0 || (x.streamCount == 0 && x.resCount == 0)
        | none => false)
      && pairwiseAll (fun x y : ManLayer => x.entry != y.entry) m.layers)

/-- Check 5 of one chunk. -/
def chunkOk (m : Manifest) (c : ManChunk) : Bool :=
  let a := storedOf c
  let b := targetOf c
  let o := streamLens a b c.decLen
  formatPair a b && wholeBlocks a b c.decLen && decide (32 ≤ c.decLen) && decide (c.decLen ≤ 4 * mib)
    && (c.flags.getLsbD 0 || c.wireLen == c.decLen) && decide (1 ≤ c.pieces) && decide (c.pieces ≤ 16)
    && decide (c.firstPiece + c.pieces ≤ m.pieces.length) && decide (o.1 + o.2 ≤ 16 * mib) && decide (c.die < 8)

/-- The fields of R236 of one piece. -/
def pieceFields (p : ManPiece) : Bool :=
  let total := p.rows * p.rowBytes
  decide (p.sel ≤ 1) && decide (p.dest ≤ 1) && p.rowBytes % 16 == 0 && decide (32 ≤ total) && decide (total ≤ mib) && total % 32 == 0
    && (decide (p.rows ≤ 1) || decide (p.rowBytes ≤ p.srcStride)) && p.dstOff % 32 == 0
    && (if p.dest = 0 then decide (p.win < 8) else (p.win == 2 || p.win == 6) && decide (p.target < 768))

/-- Whether a piece goes where its chunk's pieces go, with its rows inside output streams of the lengths given. -/
def pieceOk (lens : Nat × Nat) (region : Bool) (p : ManPiece) : Bool :=
  p.dest == b2n region
    && decide (p.srcOff + (p.rows - 1) * p.srcStride + p.rowBytes ≤ if p.sel = 0 then lens.1 else lens.2)

/-- The pieces of a chunk with the lengths of the streams they are taken from: those of its row groups, or its own. -/
def piecesOf (m : Manifest) (i : Nat) (c : ManChunk) : List (ManPiece × (Nat × Nat)) :=
  let groups := (m.focus.flatMap (·.groups)).filter fun g => g.chunk == i
  let a := storedOf c
  let b := targetOf c
  if groups.isEmpty then ((m.pieces.drop c.firstPiece).take c.pieces).map fun p => (p, streamLens a b c.decLen)
  else groups.flatMap fun g =>
    ((m.pieces.drop g.firstPiece).take g.pieces).map fun p => (p, streamLens a b g.decLen)

/-- The places of a chunk in the layer table: the entries that stream it and those that hold it resident. -/
def streamEntries (m : Manifest) (i : Nat) : List Nat :=
  (m.layers.filter fun l => inRange i l.streamFirst l.streamCount).map (·.entry)

def residentEntries (m : Manifest) (i : Nat) : List Nat :=
  (m.layers.filter fun l => inRange i l.resFirst l.resCount).map (·.entry)

/-- Where a piece goes: its flow in every placement of each entry that streams it, or its range in the region. -/
def pieceDest (im : Image) (m : Manifest) (i : Nat) (c : ManChunk) (p : ManPiece) : Bool :=
  let n := p.rows * p.rowBytes
  if p.dest = 0 then
    (streamEntries m i).all fun e =>
      match im.layers[e]? with
      | none => false
      | some l => (placesOf im).all fun pl =>
        match (planAt im pl l.plan).bind fun x => ingressFlow x p.target with
        | some f => f.2.srcGy == 0xC0 + c.die
        | none => false
  else if p.win = 6 then
    let l := tabGet {} im.layouts p.target
    let mixed := (residentEntries m i).any fun e =>
      match im.layers[e]? with | some x => !lfStreamed x | none => false
    decide (p.dstOff + n ≤ (if mixed then l.wMixed else l.wAll) * mib)
  else m.slots.any fun x => decide (x.off ≤ p.dstOff) && decide (p.dstOff + n ≤ x.off + x.size)

/-- The rules of R285 and R286 for one focus header. -/
def focusOk (im : Image) (m : Manifest) (h : FocusHdr) : Bool :=
  let idx := (h.groups.map (·.chunk)).eraseDups
  let runs := idx.flatMap fun i => (h.groups.filter fun g => g.chunk == i).map (·.chunk)
  h.groups.map (·.chunk) == runs && !h.groups.isEmpty && decide (h.groups.length ≤ 65536) && decide (h.sketchDie < 8)
    && decide (h.entry < im.layers.length)
    && (idx.all fun i =>
      match m.chunks[i]? with
      | none => false
      | some c =>
        let gs := h.groups.filter fun g => g.chunk == i
        let ps := gs.flatMap fun g => (List.range g.pieces).map fun k => g.firstPiece + k
        decide (gs.length ≤ 16) && (gs.map (·.decLen)).foldl (· + ·) 0 == c.decLen
          && (gs.all fun g => decide (1 ≤ g.pieces) && decide (g.pieces ≤ 16)
            && wholeBlocks (storedOf c) (targetOf c) g.decLen)
          && ps == (List.range c.pieces).map (fun k => c.firstPiece + k)
          && h.maskMsgs.getD c.die 0 != 0)

/-- Checks 5 and 6. -/
def manCheck56 (im : Image) (m : Manifest) : Bool :=
  m.chunks.all (chunkOk m) && m.pieces.all pieceFields
  && (((List.range m.chunks.length).zip m.chunks).all fun x =>
    (piecesOf m x.1 x.2).all fun p => pieceOk p.2 (x.2.flags.getLsbD 1) p.1 && pieceDest im m x.1 x.2 p.1)
  && m.focus.all (focusOk im m)

/-- Check 7: the slot entries of R259. -/
def manCheck7 (s : State) (m : Manifest) : Option (BitVec 16) :=
  let fits (x : ManSlot) : Bool :=
    decide (x.slot < 4096) && decide (x.rank ≤ 128) && x.off % 64 == 0 && decide (65536 ≤ x.off)
      && decide (x.off + x.size ≤ s.eng.cfg.adapterMib * mib)
  let clash (x : ManSlot) : Bool :=
    s.wts.adapters.any fun e => e.1 != x.slot && e.2.st != .empty && overlap x.off x.size e.2.off e.2.size
  if m.kind = 0 then none
  else if !m.slots.all fits then some 0x0505
  else if m.slots.any clash || !pairwiseAll (fun x y : ManSlot => !overlap x.off x.size y.off y.size) m.slots then
    some 0x050C
  else none

/-- The checks of R238 on a whole manifest: the code of the first failure. -/
def manifestCheck (s : State) (adapter : Bool) (number : BitVec 16) (bs : List Byte) : Option (BitVec 16) :=
  let m := parseManifest bs
  if !manCheck1 s s.eng.image adapter number bs then some 0x0505
  else match sigCheck s 2 (bs.take (fieldAt bs 0x4C 4)) ((bs.drop (fieldAt bs 0x4C 4)).take 256) with
    | some c => some c
    | none => match s.eng.image with
      | none => some 0x0506
      | some im =>
        if m.buildId != im.buildId then some 0x0506
        else if !manCheck4 im m || !manCheck56 im m then some 0x0505
        else manCheck7 s m

end Sys2Proof.Machine
end

