-- ==== Sys2Proof/Machine/Lace.lean ====
section
/-! DEFINITION. The decoding of weight chunks: lace-packed payloads (R230 to R232), re-quantisation (R240, R241), and the
gathering of pieces (R236). -/

namespace Sys2Proof.Machine

open Sys2Proof

/-! ### Lace (R231) -/

/-- The code lengths of the 256 symbols. -/
def laceLens (b : List Byte) : List Nat := b.flatMap fun x => [x.toNat % 16, x.toNat / 16]

/-- The symbols of a code length, in rising order. -/
def symsOf (lens : List Nat) (n : Nat) : List Nat := (List.range 256).filter fun s => lens.getD s 0 == n

/-- For lengths `n` to 15: the first code of the length, and its symbols. -/
def laceTable (lens : List Nat) : Nat → Nat → Nat → List (Nat × List Nat)
  | 0, _, _ => []
  | k + 1, n, first =>
    let ss := symsOf lens n
    (first, ss) :: laceTable lens k (n + 1) (2 * (first + ss.length))

/-- The Kraft sum in units of 2⁻¹⁵. -/
def kraft (lens : List Nat) : Nat := lens.foldl (fun n l => if l = 0 then n else n + 2 ^ (15 - l)) 0

/-- One symbol: the code read so far is `v`, and the table is that of the lengths still to try. -/
def laceSym : List (Nat × List Nat) → Nat → List Bool → Option (Nat × List Bool)
  | [], _, _ => none
  | _ :: _, _, [] => none
  | (first, ss) :: t, v, b :: bs =>
    let v1 := 2 * v + b2n b
    if first ≤ v1 ∧ v1 < first + ss.length then (ss[v1 - first]?).map fun s => (s, bs) else laceSym t v1 bs

/-- `n` symbols, and the bits left. -/
def laceSyms (table : List (Nat × List Nat)) : Nat → List Bool → Option (List Byte × List Bool)
  | 0, bs => some ([], bs)
  | n + 1, bs =>
    match laceSym table 0 bs with
    | none => none
    | some (s, rest) => (laceSyms table n rest).map fun r => (BitVec.ofNat 8 s :: r.1, r.2)

/-- A byte string as bits, from the least significant bit of each byte. -/
def bitsOf (bs : List Byte) : List Bool := bs.flatMap fun b => (List.range 8).map fun i => b.getLsbD i

/-- One pane: what it decodes to, and the payload after it. DESIGN CHOICE (log entry 86): R232 lists no failure for a pane before the last that
does not decode to 65,536 B, nor for a DEC_LEN of 0 or above 65,536, and such a payload is decoded where the sum is right. -/
def pane (w : List Byte) : Option (List Byte × List Byte) :=
  let enc := fieldAt w 0 4
  let dec := fieldAt w 4 3
  if w.length < 8 then none
  else match fieldAt w 7 1 with
    | 0 => if enc = dec ∧ 8 + enc ≤ w.length then some ((w.drop 8).take enc, w.drop (8 + enc)) else none
    | 1 =>
      let lens := laceLens ((w.drop 8).take 128)
      let body := (w.drop 136).take enc
      if w.length < 136 + enc ∨ 2 ^ 15 < kraft lens ∨ kraft lens = 0 then none
      else match laceSyms (laceTable lens 15 1 0) dec (bitsOf body) with
        | some (bs, rest) => if rest.all (· == false) then some (bs, w.drop (136 + enc)) else none
        | none => none
    | _ => none

/-- The panes of a payload, at most `n` of them. -/
def panes : Nat → List Byte → Option (List Byte)
  | _, [] => some []
  | 0, _ :: _ => none
  | n + 1, w =>
    match pane w with
    | none => none
    | some (bs, rest) => (panes n rest).map fun r => bs ++ r

/-- The decoded bytes of a lace-packed payload; `none` is WCHUNK_FORMAT (R232). -/
def unlace (decLen : Nat) (w : List Byte) : Option (List Byte) :=
  match panes w.length w with
  | some bs => if bs.length = decLen then some bs else none
  | none => none

/-! ### Re-quantisation (R240) -/

/-- The elements of a format packed in a byte string, 32 of them at a time. -/
def elemsOf (c : BitVec 4) (bs : List Byte) : List Nat := splitBits (codeBits c) (bs.length * 8 / codeBits c) (leNat bs)

/-- Elements of a format as bytes. -/
def packElems (c : BitVec 4) (l : List Nat) : List Byte := leBytes (l.length * codeBits c / 8) (joinBits (codeBits c) l)

/-- A value in a format, rounded to nearest even. -/
def toFmt (c : BitVec 4) (v : Fp) : Nat := match codeFmt c with | some f => (f.ofFp false v).1 | none => 0

/-- The two output streams of a chunk or row group: element data and scale bytes. -/
def requant (a b : BitVec 4) (bs : List Byte) : List Byte × List Byte :=
  let n := elemCount a bs.length
  let data := bs.take (n * codeBits a / 8)
  let scales := bs.drop (n * codeBits a / 8)
  if a = b then (data, scales)
  else
    let es := (elemsOf a data).map (elemVal a)
    if hasScale a && hasScale b then (packElems b (es.map (toFmt b)), scales)
    else if hasScale a then
      let rows := (cut 32 (n / 32) es).zip scales
      (packElems b (rows.flatMap fun r => r.1.map fun v => toFmt b (scaled r.2.toNat v)), [])
    else if hasScale b then
      let m : Fmt := if b = 4 then .e4m3 else .e5m2
      let rs := (cut 32 (n / 32) es).map (mxRow m)
      (packElems b (rs.flatMap (·.1)), rs.map fun r => BitVec.ofNat 8 r.2.1)
    else (packElems b (es.map (toFmt b)), [])

/-! ### Pieces (R236) -/

/-- The rows of a piece in order. -/
def gather (p : ManPiece) (o : List Byte × List Byte) : List Byte :=
  let src := if p.sel = 0 then o.1 else o.2
  (List.range p.rows).flatMap fun r => (src.drop (p.srcOff + r * p.srcStride)).take p.rowBytes

/-- The pieces from a first one. -/
def piecesFrom (m : Manifest) (first n : Nat) : List ManPiece := (m.pieces.drop first).take n

/-- The row groups of a chunk (R286). -/
def groupsOf (m : Manifest) (i : Nat) : List RowGroup := (m.focus.flatMap (·.groups)).filter fun g => g.chunk == i

/-- Decoded bytes cut by the row groups given. -/
def cutGroups : List RowGroup → List Byte → List (RowGroup × List Byte)
  | [], _ => []
  | g :: t, bs => (g, bs.take g.decLen) :: cutGroups t (bs.drop g.decLen)

/-- What a chunk is decoded to: the parts with the pieces of each, or the code of the failure (R239, R292). -/
inductive Decoded where
  | ok (parts : List (List ManPiece × List Byte))
  | format
  | check
  deriving DecidableEq, Repr

/-- A payload decoded and checked: the whole chunk by DECODED_CRC, or the row groups of a mask by DEC_CRC. -/
def decodeChunk (m : Manifest) (i : Nat) (c : ManChunk) (lace : Bool) (mask : Option (BitVec 16))
    (wire : List Byte) : Decoded :=
  let gs := groupsOf m i
  let sel := match mask with
    | none => gs
    | some k => ((List.range gs.length).zip gs |>.filter fun x => k.getLsbD x.1).map Prod.snd
  let n := match mask with
    | none => c.decLen
    | some _ => (sel.map (·.decLen)).foldl (· + ·) 0
  match if lace then unlace n wire else some wire with
  | none => .format
  | some bs =>
    let parts := cutGroups sel bs
    let good := match mask with
      | none => bs.length == n && crc32c bs == c.decCrc
      | some _ => bs.length == n && parts.all fun p => crc32c p.2 == p.1.decCrc
    if !good then .check
    else if gs.isEmpty then .ok [(piecesFrom m c.firstPiece c.pieces, bs)]
    else .ok (parts.map fun p => (piecesFrom m p.1.firstPiece p.1.pieces, p.2))

end Sys2Proof.Machine
end

