-- ==== Sys2Proof/Machine/CoreMessage.lean ====
section
/-! DEFINITION. The message unit (R64 to R69), and what a receiving core does with a message (R133, R134). -/

namespace Sys2Proof.Machine

open Sys2Proof

/-! ### Sending -/

/-- SEND (R64): checks, then the send queue of eight. DESIGN CHOICE (log entry 73): of several violations the first decides in the order of
R64's table, and CORE_FAULT_ADDR of a misaligned length is the source address; the spec gives neither. -/
def execSend (c : CoreId) (f : SendF) (s : State) : Res :=
  issue c [f.sa, f.sl, f.so, f.sy] [] (fun _ k =>
    let a := (k.sreg f.sa).toNat
    let l := (k.sreg f.sl).toNat
    let sy := (k.sreg f.sy).toNat
    if 8 ≤ k.units.sendQ.length then .stall
    else if k.task.streams.length ≤ f.stream.toNat ∨ l = 0 ∨ 0x100000 < l then .fault 3 0x0233 0
    else if a % 32 ≠ 0 ∨ l % 32 ≠ 0 then .fault 3 0x0232 a
    else if !spadIn k.task.seg a l then .fault 3 0x0231 a
    else
      let m : SendMsg := ⟨f.stream, a, l, BitVec.ofNat 32 (k.sreg f.so).toNat, BitVec.ofNat 16 sy,
        BitVec.ofNat 16 (sy >>> 16), f.sig⟩
      .one { k with units := { k.units with sendQ := k.units.sendQ ++ [m] } }) s

/-- SENDWAIT holds issue until every queued send has passed its last flit to the router. -/
def execSendwait (c : CoreId) (_f : SendF) (s : State) : Res :=
  issue c [] [] (fun _ k => if k.units.sendQ.isEmpty && k.units.sending.isEmpty then .one k else .stall) s

/-- WAITRX (R68): n is STREAM[2:0]. STREAM[5:3] must be zero whatever the other fields hold, so another value is a decoding fault (R54). -/
def execWaitrx (c : CoreId) (f : SendF) (s : State) : Res :=
  issue c [f.sl] [] (fun _ k =>
    if h : f.stream.toNat < 8 then
      let rx := k.wins[f.stream.toNat].rx
      let d := rx - BitVec.ofNat 32 (k.sreg f.sl).toNat
      if 0 ≤ d.toInt then .one k else .stall
    else .fault 3 0x0230 0) s

/-- The header flit of a message (R66). -/
def headerFlit (c : CoreId) (k : Core) (m : SendMsg) (seq : BitVec 16) : BitVec 256 :=
  let d := k.task.streams[m.stream.toNat]?.getD ⟨0, 0, 0, 0⟩
  BitVec.ofNat 256 (gxOf c + put (gyOf c) 8 + put d.dstGx.toNat 16 + put d.dstGy.toNat 24
    + put (d.win.val + 8 * b2n m.sig) 32 + put m.stream.toNat 40 + put seq.toNat 48 + put m.off.toNat 64
    + put m.len 96 + put m.syncId.toNat 128 + put m.syncInc.toNat 144 + put k.task.lpass.toNat 160)

/-! ### Fields of a header flit -/

def hdrSrcGx (h : BitVec 256) : Nat := bits h.toNat 7 0
def hdrSrcGy (h : BitVec 256) : Nat := bits h.toNat 15 8
def hdrWin (h : BitVec 256) : Nat := bits h.toNat 34 32
def hdrSig (h : BitVec 256) : Bool := bitOf h.toNat 35
def hdrOffset (h : BitVec 256) : Nat := bits h.toNat 95 64
def hdrLength (h : BitVec 256) : Nat := bits h.toNat 127 96
def hdrSyncId (h : BitVec 256) : Nat := bits h.toNat 143 128
def hdrSyncInc (h : BitVec 256) : Nat := bits h.toNat 159 144
def hdrLpass (h : BitVec 256) : Nat := bits h.toNat 191 160

/-- A flit as its 32 bytes. -/
def flitBytes (x : BitVec 256) : List Byte := leBytes 32 x.toNat

/-! ### Receiving -/

/-- The first whole message of a flow among the flits delivered: its header, its payload, and the flits left. -/
def takeMessage (flow : BitVec 16) (rx : List (BitVec 16 × BitVec 256)) :
    Option (BitVec 256 × List (BitVec 256) × List (BitVec 16 × BitVec 256)) :=
  let mine := (rx.filter fun x => x.1 == flow).map Prod.snd
  let rest := rx.filter fun x => x.1 != flow
  match mine with
  | [] => none
  | h :: t =>
    let n := (hdrLength h + 31) / 32
    if n ≤ t.length then some (h, t.take n, rest ++ (t.drop n).map fun x => (flow, x)) else none

/-- Whether a window allows the sender of a message (R129). DESIGN CHOICE (log entry 73): a rectangle that covers the GX 0x00 and GY 0xC0 + n
of a port die allows its messages too, with EDGE and SRC_ANY clear; R129 says so, and R242 speaks only of EDGE and SRC_ANY. -/
def senderAllowed (w : Window) (gx gy : Nat) : Bool :=
  w.srcAny
  || (decide (w.gxLo.toNat ≤ gx) && decide (gx ≤ w.gxHi.toNat) && decide (w.gyLo.toNat ≤ gy) && decide (gy ≤ w.gyHi.toNat))
  || (w.edge && decide (0xC0 ≤ gy) && decide (gy ≤ 0xC7))

/-- The reason for which a header fails the check of R133 (R142), if it fails. DESIGN CHOICE (log entry 73): of several checks that
fail, the first in the order of the REASON codes is recorded; the spec gives no order. -/
def windowReason (w : Window) (h : BitVec 256) : Option Nat :=
  if !w.opened then some 0
  else if !senderAllowed w (hdrSrcGx h) (hdrSrcGy h) then some 1
  else if hdrOffset h % 32 ≠ 0 then some 2
  else if w.limit.toNat - w.base.toNat < hdrOffset h + hdrLength h then some 3
  else none

/-- A window fault (R134): the first of a task is recorded, stops the core and raises the abort; a later one is counted. A fault that
is already recorded stays. DESIGN CHOICE (log entry 73): no instruction causes it, so CORE_FAULT_PC holds the core's PC
as the header arrives, CORE_FAULT_ADDR 0, and an instruction's later fault does not take its place. -/
def windowFault (c : CoreId) (reason : Nat) (h : BitVec 256) (s : State) : State :=
  let k := s.core c
  if bitOf k.recs.winFault.toNat 31 then
    s.setCore c { k with recs := { k.recs with winFault := satField k.recs.winFault 0 8 } }
  else
    let w := put 1 31 + put reason 28 + put (hdrWin h) 24 + put (hdrSrcGy h) 16 + put (hdrSrcGx h) 8 + 1
    let ord := if bitOf k.recs.fault.toNat 31 then k.recs.faultOrd else 0
    coreFaultAt ord c 3 0x0310 k.regs.pc 0 (s.setCore c { k with recs := { k.recs with winFault := BitVec.ofNat 32 w } })

/-- The header of a message judged as it arrives: LPASS first, and then the window (R67, R133). The answer says how its payload is
taken; a window that changes later changes nothing for it. -/
def judgeHeader (c : CoreId) (h : BitVec 256) (s : State) : Accept × State :=
  let k := s.core c
  let total := (hdrLength h + 31) / 32
  if hdrLpass h ≠ k.task.lpass.toNat then
    (⟨h, false, 0, 0, total⟩, s.setCore c { k with cnt := { k.cnt with stale := incW k.cnt.stale } })
  else
    let w : Window := k.wins[hdrWin h]?.getD {}
    match windowReason w h with
    | some reason => (⟨h, false, 0, 0, total⟩, windowFault c reason h s)
    | none => (⟨h, true, w.base.toNat, 0, total⟩, s)

/-- Payload flits of an accepted message written at BASE + OFFSET + 32i, with WIN_RXBYTES advanced by 32 for each (R67, R133). -/
def writePayload (k : Core) (a : Accept) (pay : List (BitVec 256)) : Core :=
  let n := hdrWin a.hdr
  let w : Window := k.wins[n]?.getD {}
  let k1 := k.spadPut (a.base + hdrOffset a.hdr + 32 * a.done) (pay.flatMap flitBytes)
  let w1 := { w with rx := w.rx + BitVec.ofNat 32 (32 * pay.length) }
  { k1 with wins := Vector.ofFn fun i => if i.val = n then w1 else k1.wins[i.val] }

/-- The increment of SYNC_INC that a message with SIG sends to its object (R67). -/
def signalPacket (c : CoreId) (k : Core) (h : BitVec 256) : BitVec 96 :=
  packet 1 0 (hdrSyncId h) (gxOf c) (gyOf c) 0 0 k.task.lpass.toNat (hdrSyncInc h)

/-- The payload flits that have arrived are written, or dropped with a message that did not pass. After the last the message has
ended; one with SIG ends once the sync unit's queue of eight has room for its increment. -/
def takePayload (c : CoreId) (flow : BitVec 16) (a : Accept) (mine : List (BitVec 256))
    (others : List (BitVec 16 × BitVec 256)) (s : State) : State :=
  let k := s.core c
  let pay := mine.take (a.total - a.done)
  let k1 : Core := { k with rx := others ++ (mine.drop (a.total - a.done)).map fun x => (flow, x) }
  let k2 := if a.taken then writePayload k1 a pay else k1
  let a1 : Accept := { a with done := a.done + pay.length }
  let signal := a.taken && hdrSig a.hdr
  let waits := decide (a1.done < a1.total) || (signal && decide (8 ≤ k.units.syncQ.length))
  if waits then s.setCore c { k2 with accepts := tabSet k.accepts flow.toNat a1 }
  else if signal then
    s.setCore c { k2 with
      accepts := tabErase k.accepts flow.toNat,
      units := { k.units with syncQ := k.units.syncQ ++ [.pkt (signalPacket c k a.hdr)] } }
  else s.setCore c { k2 with accepts := tabErase k.accepts flow.toNat }

/-- MESSAGE_RECEIVE: what has arrived of the next message of a flow at a core. Its header is judged, or was judged when it arrived,
and the payload flits that are there are taken. -/
def execMessageReceive (c : CoreId) (flow : BitVec 16) (s : State) : Res :=
  let k := s.core c
  let mine := (k.rx.filter fun x => x.1 == flow).map Prod.snd
  let others := k.rx.filter fun x => x.1 != flow
  match tabFind k.accepts flow.toNat, mine with
  | some a, _ => .next (takePayload c flow a mine others s)
  | none, [] => .next s
  | none, h :: t => let r := judgeHeader c h s; .next (takePayload c flow r.1 t others r.2)

end Sys2Proof.Machine
end

