-- ==== Sys2Proof/Machine/CoreWindow.lean ====
section
/-! DEFINITION. Windows, FILL and COPY, and the power of scratchpad segments (R124, R128 to R137). -/

namespace Sys2Proof.Machine

open Sys2Proof

/-! ### Fill and copy -/

/-- Whether the fill-and-copy queue of four has no room: a FILL or COPY then stalls, with no check made, since an operand fault is raised only
when the instruction runs (R54, R136). -/
def fcFull (k : Core) : Bool := k.units.fcRun.isSome && decide (4 ≤ k.units.fcQ.length)

/-- An operation enters the fill-and-copy unit: it starts when the unit is idle, else it waits in the queue of four. -/
def enqueueFc (k : Core) (op : FcOp) : Act :=
  match k.units.fcRun with
  | none => .one { k with units := { k.units with fcRun := some op } }
  | some _ =>
    if 4 ≤ k.units.fcQ.length then .stall
    else .one { k with units := { k.units with fcQ := k.units.fcQ ++ [op] } }

/-- The checks of R135. DESIGN CHOICE (log entry 73): of several violations the first decides in the order alignment, length, range, the
destination before the source, and CORE_FAULT_ADDR of a misaligned length is the length; R76 and R135 give neither. -/
def fcFault (seg : BitVec 8) (addrs : List Nat) (len : Nat) : Option (BitVec 16 × Nat) :=
  match addrs.find? fun a => a % 32 != 0 with
  | some a => some (0x0232, a)
  | none =>
    if len % 32 ≠ 0 then some (0x0232, len)
    else if len = 0 ∨ 0x100000 < len then some (0x0233, 0)
    else match addrs.find? fun a => !spadIn seg a len with
      | some a => some (0x0231, a)
      | none => none

/-- FILL: the pattern S[SV][31:0] to S[SL] bytes from S[SA]. -/
def execFill (c : CoreId) (f : FillF) (s : State) : Res :=
  issue c [f.sa, f.sl, f.sv] [] (fun _ k =>
    let a := (k.sreg f.sa).toNat
    let l := (k.sreg f.sl).toNat
    if fcFull k then .stall
    else match fcFault k.task.seg [a] l with
    | some (code, addr) => .fault 6 code addr
    | none => enqueueFc k (.fill a l ((k.sreg f.sv).setWidth 32))) s

/-- COPY: S[SL] bytes from S[SA] to S[SD]. -/
def execCopy (c : CoreId) (f : FillF) (s : State) : Res :=
  issue c [f.sd, f.sa, f.sl] [] (fun _ k =>
    let d := (k.sreg f.sd).toNat
    let a := (k.sreg f.sa).toNat
    let l := (k.sreg f.sl).toNat
    if fcFull k then .stall
    else match fcFault k.task.seg [d, a] l with
    | some (code, addr) => .fault 6 code addr
    | none => enqueueFc k (.copy d a l)) s

/-- A pattern repeated over `n` words. -/
def patBytes (pat : Word) : Nat → List Byte
  | 0 => []
  | n + 1 => leBytes 4 pat.toNat ++ patBytes pat n

/-- The next operation of the fill-and-copy queue starts. -/
def nextFc (k : Core) : Core :=
  match k.units.fcQ with
  | [] => { k with units := { k.units with fcRun := none } }
  | o :: t => { k with units := { k.units with fcRun := some o, fcQ := t } }

/-- FILL_COPY_COMPLETE: the operation that runs has moved its bytes, and the next one starts. A COPY delivers what it
read, with fresh parity (R140). -/
def execFillCopyComplete (c : CoreId) (s : State) : Res :=
  let k := s.core c
  match k.units.fcRun with
  | none => .next s
  | some (.fill a l pat) => .next (s.setCore c ((nextFc k).spadPut a (patBytes pat (l / 4))))
  | some (.copy d a l) =>
    let r := (nextFc k).spadGet 6 a l s.free
    let s1 := (s.setCore c (r.core.spadPut d r.bytes)).took (r.free - s.free)
    .next (if r.bad then coreHwAbort c 0x0401 (.core c) s1 else s1)

/-! ### Windows -/

/-- The settings of a window with the check of its RSVD fields. -/
structure WinSet where
  base : Nat
  limit : Nat
  gxLo : Nat
  gxHi : Nat
  gyLo : Nat
  gyHi : Nat
  srcAny : Bool
  edge : Bool
  rsvdOk : Bool

/-- The code with which settings break R128, in the order of R130. DESIGN CHOICE (log entry 73): a range with BASE ≥ LIMIT has no byte
from BASE to LIMIT − 1, so it reaches no unpowered segment, and CORE_OPERAND is its code. -/
def winFaultCode (seg : BitVec 8) (w : WinSet) : Option (BitVec 16) :=
  if w.base % 32 ≠ 0 ∨ w.limit % 32 ≠ 0 then some 0x0232
  else if w.base < w.limit ∧ !spadIn seg w.base (w.limit - w.base) then some 0x0231
  else if !w.rsvdOk ∨ w.limit ≤ w.base ∨ (!w.srcAny ∧ (w.gxHi < w.gxLo ∨ w.gyHi < w.gyLo)) then some 0x0233
  else none

/-- A window opened with its settings, WIN_RXBYTES zeroed. -/
def WinSet.opened (w : WinSet) : Window :=
  { opened := true, edge := w.edge, srcAny := w.srcAny, base := BitVec.ofNat 20 w.base,
    limit := BitVec.ofNat 21 w.limit, gxLo := BitVec.ofNat 8 w.gxLo, gxHi := BitVec.ofNat 8 w.gxHi,
    gyLo := BitVec.ofNat 8 w.gyLo, gyHi := BitVec.ofNat 8 w.gyHi, rx := 0 }

/-- The settings that WOPEN takes from its registers (R132). -/
def wopenSet (a b : Nat) : WinSet :=
  ⟨bits a 19 0, bits a 52 32, bits b 7 0, bits b 15 8, bits b 23 16, bits b 31 24, bitOf b 32, bitOf b 33,
    bits a 31 20 == 0 && bits a 63 53 == 0 && bits b 63 34 == 0⟩

/-- The settings of a window descriptor, and whether it opens at the start (R130). -/
def descSet (d : BitVec 128) : WinSet × Bool :=
  let v := d.toNat
  (⟨bits v 19 0, bits v 52 32, bits v 71 64, bits v 79 72, bits v 87 80, bits v 95 88, bitOf v 96, bitOf v 97,
    bits v 31 20 == 0 && bits v 63 53 == 0 && bits v 127 99 == 0⟩, bitOf v 98)

/-- Whether a window has an accepted message that is not fully written (R132). -/
def windowBusy (k : Core) (w : Nat) : Bool :=
  k.accepts.any fun e => e.2.taken && hdrWin e.2.hdr == w && decide (e.2.done < e.2.total)

/-- WOPEN: opens window W, or replaces its settings; it stalls while W takes a message, with no check made (R54, R132). -/
def execWopen (c : CoreId) (f : WinF) (s : State) : Res :=
  issue c [f.sa, f.sb] [] (fun _ k =>
    let w := wopenSet (k.sreg f.sa).toNat (k.sreg f.sb).toNat
    if windowBusy k f.w.val then .stall
    else match winFaultCode k.task.seg w with
      | some code => .fault 6 code f.w.val
      | none => .one { k with wins := k.wins.set f.w.val w.opened }) s

/-- WCLOSE: closes window W; its settings stay. It stalls while W takes a message. -/
def execWclose (c : CoreId) (f : WinF) (s : State) : Res :=
  issue c [] [] (fun _ k =>
    if windowBusy k f.w.val then .stall
    else .one { k with wins := k.wins.set f.w.val { k.wins[f.w.val] with opened := false } }) s

/-- Every window closed; its settings stay (R132, R142). -/
def closeWins (k : Core) : Core := { k with wins := k.wins.map fun w => { w with opened := false } }

/-! ### Segments (R124) -/

/-- The cells and upsets of a segment dropped: its contents are undefined, its parity consistent (R139). -/
def Core.clearSeg (k : Core) (i : Nat) : Core :=
  let lo := i * 0x20000
  { k with spad := { k.spad with
      cells := cellSplice k.spad.cells lo (lo + 0x20000) [],
      upset := k.spad.upset.filter fun e => decide (e.1 * 32 < lo) || decide (lo + 0x20000 ≤ e.1 * 32) } }

/-- SEGMENT_WAKE_COMPLETE: a waking segment enters ON. -/
def execSegmentWakeComplete (c : CoreId) (seg : Fin 8) (s : State) : Res :=
  let k := s.core c
  if k.spad.segs[seg.val] = .waking then
    let k1 := k.clearSeg seg.val
    .next (s.setCore c { k1 with spad := { k1.spad with segs := k1.spad.segs.set seg.val .on } })
  else .next s

end Sys2Proof.Machine
end

