-- ==== Sys2Proof/Machine/Mesh.lean ====
section
/-! DEFINITION. The stitch mesh as it runs a plan (R143 to R151, R158, R161 to R163, R168, R169, R546). -/

namespace Sys2Proof.Machine

open Sys2Proof

/-! ### Links (R143, R150, R158, R19) -/

/-- The neighbour of a router in direction N, E, S, W (0 to 3) with the input there, and the allowance of the link. -/
def neighbour (c : CoreId) (dir : Nat) : Option (MeshNode × Nat × Nat) :=
  let gx := gxOf c
  let gy := gyOf c
  let toward (x y inp : Nat) : Option (MeshNode × Nat × Nat) :=
    match coreAt x y with
    | none => none
    | some d =>
      let allow := if ciOf c = ciOf d then 2 else if ptOf c = ptOf d then 9 else 21
      some (.router d, inp, allow)
  let edge (d : Nat) (link : Nat) : Option (MeshNode × Nat × Nat) :=
    if h : d < 8 then some (.die ⟨d, h⟩, link, 21) else none
  match dir with
  | 0 => if gy = 0 then none else toward gx (gy - 1) 2
  | 1 => if gx = 255 then edge (2 + gy / 64) (gy % 64) else toward (gx + 1) gy 3
  | 2 => if gy = 191 then edge (gx / 128) (gx % 128) else toward gx (gy + 1) 0
  | 3 => if gx = 0 then edge (5 + gy / 64) (gy % 64) else toward (gx - 1) gy 1
  | _ => none

/-- The grid-edge router of link `i` of a port die, with the input that the link feeds. -/
def edgeRouter (d : DieId) (i : Nat) : Option (CoreId × Nat) :=
  let at' (x y inp : Nat) : Option (CoreId × Nat) := (coreAt x y).map fun c => (c, inp)
  let n := d.val
  if n < 2 then (if i < 128 then at' (n * 128 + i) 191 2 else none)
  else if 64 ≤ i then none
  else if n < 5 then at' 255 ((n - 2) * 64 + i) 1
  else at' 0 ((n - 5) * 64 + i) 3

/-- The edge links of a port die. -/
def edgeLinks (d : DieId) : Nat := if d.val < 2 then 128 else 64

/-! ### Sidebands (R144) -/

/-- PAR of a flit: bit p makes the bits b with b mod 8 = p even together with it. -/
def parOf (flit : BitVec 256) : Nat :=
  joinBits 1 ((List.range 8).map fun p =>
    b2n (!evenOnes 32 (joinBits 1 ((List.range 32).map fun i => b2n (flit.getLsbD (8 * i + p))))))

/-- The sideband of a flit with its TAG. -/
def sideband (valid : Bool) (tag : Nat) (flit : BitVec 256) : BitVec 16 :=
  let hi := put (b2n valid) 7 + put (if valid then tag % 64 else 0) 1
  BitVec.ofNat 16 (put (hi + b2n (!evenOnes 8 hi)) 8 + if valid then parOf flit else 0)

def sbValid (sb : BitVec 16) : Bool := sb.getLsbD 15
def sbTag (sb : BitVec 16) : Nat := bits sb.toNat 14 9

/-- Whether a received slot passes TPAR and, with a flit, PAR. -/
def sbOk (sb : BitVec 16) (flit : BitVec 256) : Bool :=
  evenOnes 8 (bits sb.toNat 15 8) && (!sbValid sb || bits sb.toNat 7 0 == parOf flit)

/-! ### Stitches (R145, R146, R158) -/

/-- Whether a stitch word fires in a slot of the period. -/
def firesAt (w : BitVec 64) (slot : Nat) : Bool :=
  let v := w.toNat
  let start := bits v 11 0
  let n := bits v 23 12 + 1
  let stride := bits v 35 24
  if n = 1 then slot == start
  else decide (start ≤ slot) && stride != 0 && (slot - start) % stride == 0 && decide ((slot - start) / stride < n)

def stFlow (w : BitVec 64) : BitVec 16 := BitVec.ofNat 16 (bits w.toNat 63 48)
def stIn (w : BitVec 64) : Nat := bits w.toNat 38 36
def stOut (w : BitVec 64) (o : Nat) : Bool := bitOf w.toNat (39 + o)
def edgeOutbound (w : BitVec 64) : Bool := bitOf w.toNat 47
def edgeLinkOf (w : BitVec 64) : Nat := bits w.toNat 42 36

/-! ### Errors (R168, R169) -/

/-- The period of the plan that runs. DESIGN CHOICE (log entry 75): with no plan of an image running, as in a slice, whose firmware plan
the spec does not give, it is the largest period, 4,096. -/
def periodOf (s : State) : Nat := match runningPlan s with | some p => p.period | none => 4096

/-- A mesh error at a router: recorded if the first of the task, and the abort raised. -/
def routerError (c : CoreId) (kind inp tag : Nat) (s : State) : State :=
  let k := s.core c
  let m := k.router.slot
  let rec' := put 1 31 + put kind 28 + put inp 25 + put (m % periodOf s) 12 + put tag 6 + m % 64
  let k1 : Core := if bitOf k.recs.meshErr.toNat 31 then k
    else { k with recs := { k.recs with meshErr := BitVec.ofNat 32 rec' } }
  let site := if kind = 3 then Site.bridge c inp else if inp = 4 then Site.core c else Site.link c inp
  abortFrom (.router c) (BitVec.ofNat 16 (0x0301 + kind)) site (s.setCore c k1)

/-- A mesh error at a port die: PD_MESH_ERR and PD_MESH_SLOT (R546), and the abort. -/
def dieError (d : DieId) (kind link tag : Nat) (s : State) : State :=
  let x := s.dies[d.val]
  let x1 : Die :=
    if bitOf x.meshErr.toNat 31 then { x with meshErr := satField x.meshErr 0 8 }
    else { x with
      meshErr := BitVec.ofNat 32 (put 1 31 + put kind 28 + put link 21 + 1),
      meshSlot := BitVec.ofNat 32 (put (x.slot % periodOf s) 12 + put tag 6 + x.slot % 64) }
  abortFrom (.die d) (BitVec.ofNat 16 (0x0301 + kind)) (.edge d link) (s.setDie d x1)

/-! ### Arrival (R151) -/

/-- FLIT_ARRIVE at a router: parity is checked in every slot; a flit enters the hold queue of 24. A router that has
stopped discards it (R163). A flit that finds the queue full is forwarded as read all the same (R169). DESIGN CHOICE (log entry 75): it
then stands behind the 24 until its slot, since the spec names no other place for it. -/
def arriveRouter (c : CoreId) (inp : Nat) (sb : BitVec 16) (flit : BitVec 256) (s : State) : State :=
  let k := s.core c
  if !k.router.running then s
  else
    let s1 := if sbOk sb flit then s else routerError c 0 inp (sbTag sb) s
    if !sbValid sb then s1
    else
      let k1 := s1.core c
      if h : inp < 5 then
        let q := k1.router.hold[inp]
        let s2 := s1.setCore c { k1 with router := { k1.router with
          hold := k1.router.hold.set inp (q ++ [⟨BitVec.ofNat 6 (sbTag sb), flit⟩]) } }
        if 24 ≤ q.length then routerError c 2 inp (sbTag sb) s2 else s2
      else s1

/-- FLIT_ARRIVE at a port die, on an edge link. -/
def arriveDie (d : DieId) (link : Nat) (sb : BitVec 16) (flit : BitVec 256) (s : State) : State :=
  let x := s.dies[d.val]
  if !x.running then s
  else
    let s1 := if sbOk sb flit then s else dieError d 0 link (sbTag sb) s
    if !sbValid sb then s1
    else
      let x1 := s1.dies[d.val]
      let q := tabGet [] x1.hold link
      let s2 := s1.setDie d { x1 with hold := tabSet x1.hold link (q ++ [⟨BitVec.ofNat 6 (sbTag sb), flit⟩]) }
      if 24 ≤ q.length then dieError d 2 link (sbTag sb) s2 else s2

/-- The links once a slot has arrived at an input: the oldest flit of that link has left it, unless the slot is an idle one that passes
parity. -/
def linkLess (n : MeshNode) (inp : Nat) (sb : BitVec 16) (flit : BitVec 256) (ws : List Wire) : List Wire :=
  if sbOk sb flit && !sbValid sb then ws
  else match takeFirst (fun w => w.dst == n && w.inp == inp) ws with
    | some (_, rest) => rest
    | none => ws

/-- FLIT_ARRIVE: a slot of a link with what its receiver reads. DESIGN CHOICE (log entry 75): a fault on the link may have changed what was
driven, so the bits read are the command's, whatever flit leaves the link. -/
def execFlitArrive (n : MeshNode) (inp : Nat) (sb : BitVec 16) (flit : BitVec 256) (s : State) : Res :=
  let s1 : State := { s with wires := linkLess n inp sb flit s.wires }
  match n with
  | .router c => .next (arriveRouter c inp sb flit s1)
  | .die d => .next (arriveDie d inp sb flit s1)

/-- MESH_BRIDGE: a bridge leaves its range, or its island loses lock, during a layer pass. DESIGN CHOICE (log entry 75): the error concerns no
flit, and TAG_RX of its record is 0. -/
def execMeshBridge (n : MeshNode) (inp : Nat) (s : State) : Res :=
  match n with
  | .router c => .next (if (s.core c).router.running then routerError c 3 inp 0 s else s)
  | .die d => .next (if s.dies[d.val].running then dieError d 3 inp 0 s else s)

/-! ### Firing (R145, R151) -/

/-- How a head of a hold queue stands to its slot (R151). -/
inductive Due where
  | empty
  | due (flit : BitVec 256)
  | early
  | late (h : Held)

def dueOf (q : List Held) (m : Nat) : Due :=
  match q with
  | [] => .empty
  | h :: _ =>
    let d := (h.tag.toNat + 64 - m % 64) % 64
    if d = 0 then .due h.flit else if d ≤ 32 then .early else .late h

/-- The next flit of a core's stream in one of its slots: the header, and then the payload, of the oldest unfinished
message (R65); a payload flit is read as it is sent (R140). -/
def streamFlit (c : CoreId) (k : Core) (j : Nat) (free : Nat) : Option (BitVec 256 × Core × Nat × Bool) :=
  let sid := BitVec.ofNat 6 j
  let cnt (k : Core) : Core := { k with cnt := { k.cnt with txBytes := k.cnt.txBytes + 32 } }
  match k.units.sending.find? fun x => x.msg.stream == sid with
  | some x =>
    let r := k.spadGet 3 (x.msg.src + 32 * (x.sent - 1)) 32 free
    let k1 := cnt r.core
    let rest := k1.units.sending.filter fun y => y.msg.stream != sid
    let more := if x.sent * 32 < x.msg.len then [{ x with sent := x.sent + 1 }] else []
    some (BitVec.ofNat 256 (leNat r.bytes), { k1 with units := { k1.units with sending := rest ++ more } }, r.free, r.bad)
  | none =>
    match k.units.sendQ.findIdx? fun m => m.stream == sid with
    | none => none
    | some i =>
      match k.units.sendQ[i]? with
      | none => none
      | some m =>
        let seq := tabGet 0 k.units.seqs j
        let k1 := cnt k
        let u := { k1.units with
          sendQ := k1.units.sendQ.eraseIdx i,
          sending := k1.units.sending ++ [⟨m, 1, seq⟩],
          seqs := tabSet k1.units.seqs j (seq + 1) }
        some (headerFlit c k m seq, { k1 with units := u }, free, false)

/-- A flit driven on the outputs of a stitch. An idle slot leaves nothing on a link (R144). -/
def driveOuts (c : CoreId) (w : BitVec 64) (flit : Option (BitVec 256)) (s : State) : State :=
  let m := (s.core c).router.slot
  let s1 := (List.range 4).foldl (fun (s : State) o =>
    if !stOut w o then s
    else match neighbour c o with
      | none => s
      | some (dst, inp, allow) =>
        match flit with
        | none => s
        | some f =>
          let s' := s.drive ⟨dst, inp, sideband true (m + allow) f, f⟩
          let k := s'.core c
          let n := k.cnt.flits
          let n1 := Vector.ofFn fun (i : Fin 4) => if i.val = o then incW n[i.val] else n[i.val]
          s'.setCore c { k with cnt := { k.cnt with flits := n1 } }) s
  match flit with
  | some f =>
    if stOut w 4 then
      let k := s1.core c
      s1.setCore c { k with rx := k.rx ++ [(stFlow w, f)] }
    else s1
  | none => s1

/-- The largest occupancies once a slot has ended (R171): flits that enter and leave in one slot do not count twice, as in the worked example
of R151 (05_stitch_mesh.md:113). -/
def noteHold (r : Router) : Router :=
  { r with holdMax := Vector.ofFn fun (i : Fin 5) => max r.holdMax[i.val] (min 24 r.hold[i.val].length) }

/-- One stitch of a router fires. A stitch of the LOCAL input takes what its hold queue holds, and with an empty queue the next flit
of its stream. A flit that is late is forwarded as read by the next stitch that fires on its input (R169). -/
def fireStitch (c : CoreId) (w : BitVec 64) (s : State) : State :=
  let k := s.core c
  let inp := stIn w
  let own := match k.router.hold[4] with | [] => false | _ :: _ => true
  if inp = 4 ∧ !own then
    match k.task.streams.findIdx? fun d => d.flow == stFlow w with
    | none => driveOuts c w none s
    | some j =>
      match streamFlit c k j s.free with
      | none =>
        driveOuts c w none (s.setCore c { k with cnt := { k.cnt with idleSlots := incW k.cnt.idleSlots } })
      | some (f, k1, free, bad) =>
        let s1 := (s.setCore c k1).took (free - s.free)
        driveOuts c w (some f) (if bad then coreHwAbort c 0x0401 (.core c) s1 else s1)
  else if h : inp < 5 then
    let go (f : BitVec 256) : State :=
      driveOuts c w (some f) (s.setCore c { k with router := { k.router with hold := k.router.hold.set inp k.router.hold[inp].tail } })
    match dueOf k.router.hold[inp] k.router.slot with
    | .due f => go f
    | .late x => go x.flit
    | _ => driveOuts c w none s
  else s

/-- The slips of a router in its slot: a flit is late, or due with no stitch that releases it. A head that is late slips in every slot that
finds it there (R151). -/
def routerSlips (c : CoreId) (fired : List (BitVec 64)) (s : State) : State :=
  (List.range 5).foldl (fun (s : State) i =>
    let k := s.core c
    match k.router.hold[i]? with
    | none => s
    | some q => match dueOf q k.router.slot with
      | .late x => routerError c 1 i x.tag.toNat s
      | .due _ =>
        if fired.any (fun w => stIn w == i) then s else routerError c 1 i (k.router.slot % 64) s
      | _ => s) s

/-- One slot of a router. -/
def fireRouter (c : CoreId) (s : State) : State :=
  let k := s.core c
  if !k.router.running then s
  else
    let fired := k.router.table.filter fun w => firesAt w (k.router.slot % periodOf s)
    let s1 := routerSlips c fired s
    let s2 := fired.foldl (fun s w => fireStitch c w s) s1
    let k2 := s2.core c
    s2.setCore c { k2 with router := { noteHold k2.router with slot := k2.router.slot + 1 } }

/-- The next flit that a port die injects on a flow, and what remains to be injected. -/
def injectFlit (flow : BitVec 16) : List Inject → Option (BitVec 256 × List Inject)
  | [] => none
  | x :: t =>
    if x.flow = flow then
      match x.flits with
      | [] => injectFlit flow t
      | f :: fs => some (f, if fs.isEmpty then t else { x with flits := fs } :: t)
    else (injectFlit flow t).map fun r => (r.1, x :: r.2)

/-- One edge stitch fires: an inbound one drives its link, and an idle slot is counted in WI_IDLE; an outbound one releases a flit into the port die. -/
def fireEdge (d : DieId) (w : BitVec 64) (s : State) : State :=
  let x := s.dies[d.val]
  let link := edgeLinkOf w
  if edgeOutbound w then
    let go (f : BitVec 256) : State := s.setDie d { x with
      hold := tabSet x.hold link (tabGet [] x.hold link).tail, rx := x.rx ++ [(stFlow w, f)] }
    match dueOf (tabGet [] x.hold link) x.slot with
    | .due f => go f
    | .late y => go y.flit
    | _ => s
  else
    match edgeRouter d link with
    | none => s
    | some (c, inp) =>
      match injectFlit (stFlow w) x.inject with
      | none =>
        s.setDie d { x with wiIdle := incW x.wiIdle }
      | some (f, rest) =>
        let busy (l : LensChunk) : Bool := rest.any fun y => y.chunk == some l.index
        (s.setDie d { x with inject := rest, lens := x.lens.filter busy }).drive ⟨.router c, inp, sideband true (x.slot + 21) f, f⟩

/-- The slips of a port die on the links it collects. -/
def dieSlips (d : DieId) (fired : List (BitVec 64)) (s : State) : State :=
  (s.dies[d.val]).hold.foldl (fun (s : State) e =>
    match dueOf e.2 (s.dies[d.val]).slot with
    | .late x => dieError d 1 e.1 x.tag.toNat s
    | .due _ =>
      if fired.any (fun w => edgeOutbound w && edgeLinkOf w == e.1) then s
      else dieError d 1 e.1 ((s.dies[d.val]).slot % 64) s
    | _ => s) s

/-- One slot of a port die. -/
def fireDie (d : DieId) (s : State) : State :=
  let x := s.dies[d.val]
  if !x.running then s
  else
    let fired := x.table.filter fun w => firesAt w (x.slot % periodOf s)
    let s2 := fired.foldl (fun s w => fireEdge d w s) (dieSlips d fired s)
    let x2 := s2.dies[d.val]
    s2.setDie d { x2 with slot := x2.slot + 1 }

/-- STITCH_FIRE: one slot of a router or of a port die that runs. -/
def execStitchFire (n : MeshNode) (s : State) : Res :=
  match n with
  | .router c => .next (fireRouter c s)
  | .die d => .next (fireDie d s)

/-! ### Stitch banks (R148) -/

/-- The layer entry of which the next stitch bank is loaded: the layer pass that has not started, or the next of the
pass. -/
def comingEntry (s : State) : Option LayerEntry :=
  match s.eng.image with
  | none => none
  | some im =>
    match s.eng.lp with
    | some lp =>
      if lp.kind = .work ∧ !lp.started then im.layers[lp.entry]?
      else match s.eng.pass with
        | some p => p.todo.head?.bind fun e => im.layers[e]?
        | none => none
    | none => match s.eng.pass with
      | some p => p.todo.head?.bind fun e => im.layers[e]?
      | none => none

/-- The plan of a layer entry in the placement in force. -/
def planOf (s : State) (e : LayerEntry) : Option Plan :=
  match s.eng.image with
  | none => none
  | some im => im.plans.find? fun p => p.place == s.eng.placement && p.index == e.plan

/-- STITCH_BANK_LOADED: the bank that does not run holds the coming layer's table. -/
def execStitchBankLoaded (n : MeshNode) (s : State) : Res :=
  match (comingEntry s).bind (planOf s) with
  | none => .next s
  | some p =>
    match n with
    | .router c =>
      let k := s.core c
      .next (s.setCore c { k with router := { k.router with next := some (tabGet [] p.routers c.val), loaded := true } })
    | .die d =>
      let x := s.dies[d.val]
      .next (s.setDie d { x with next := some (tabGet [] p.edges d.val), loaded := true })

/-! ### Stopping (R163) -/

/-- A router stops firing and discards its hold queues. -/
def stopRouter (k : Core) : Core :=
  { k with router := { k.router with running := false, hold := Vector.replicate 5 [] } }

/-- A port die stops firing and discards its hold queues and what it was to inject. -/
def stopDie (x : Die) : Die := { x with running := false, hold := [], inject := [] }

end Sys2Proof.Machine
end

