-- ==== Sys2Proof/Machine/Records.lean ====
section
/-! DEFINITION. Records that several chapters write: doorbells and the EVENT mailbox (R409, R508), security,
configuration and power codes (R522, R474, R447). -/

namespace Sys2Proof.Machine

open Sys2Proof

/-- The next code waiting for EVENT, if the mailbox can take it (R508). -/
def postEvents (s : State) : State :=
  if s.host.mbx[24].full || s.host.loupeOff then s
  else
    match s.mgmt.eventQ with
    | [] => s
    | c :: t =>
      mbxPut 24 (BitVec.ofNat 32 (put (b2n s.mgmt.eventLost) 31 + c.toNat))
        { s with mgmt := { s.mgmt with eventQ := t, eventLost := false } }

/-- A code written to EVENT: up to 64 wait, and on overflow the oldest is dropped (R508). -/
def postEvent (c : BitVec 16) (s : State) : State :=
  let q := s.mgmt.eventQ ++ [c]
  postEvents { s with mgmt := { s.mgmt with
    eventQ := if 64 < q.length then q.drop 1 else q,
    eventLost := s.mgmt.eventLost || decide (64 < q.length) } }

/-- A security code (R522): SEC_STAT if VALID is clear, vector 6, Redfish, EVENT. -/
def secCode (c : BitVec 16) (s : State) : State :=
  let s1 : State := if s.mgmt.secValid then s else { s with mgmt := { s.mgmt with secValid := true, secStat := c } }
  postEvent c (logCode c (msix 6 s1))

/-- A configuration or boot code (R474): vector 5, Redfish, EVENT. -/
def bootCode (c : BitVec 16) (s : State) : State := postEvent c (logCode c (msix 5 s))

/-- A code of CFG_STAT (R475): the first since ERR was cleared. -/
def cfgCode (c : BitVec 16) (s : State) : State :=
  bootCode c (if s.boot.cfgErr then s else { s with boot := { s.boot with cfgErr := true, cfgCode := c } })

/-- A power or thermal code (R445): PT_EVENT, vector 4, Redfish. -/
def powerCode (c : BitVec 16) (s : State) : State :=
  logCode c (msix 4 { s with pwr := { s.pwr with event := c } })

/-- An advisory code in the status of the pass that runs (R405). -/
def advisory (c : BitVec 16) (s : State) : State :=
  match s.eng.pass with
  | some p => { s with eng := { s.eng with pass := some { p with advisory := c } } }
  | none => s

/-! ### The floor (R421, R425) -/

/-- The effective floor; for 1 s after the loss of a feed the ramp limits do not apply (R421, R425). -/
def effFloor (s : State) : Nat := if s.pwr.exemptMs = 0 then min s.pwr.floorMw s.pwr.ceilMw else 0

end Sys2Proof.Machine
end

