-- ==== Sys2Proof/Machine/Ingress.lean ====
section
/-! DEFINITION. The weight ingress units (R239, R242 to R246, R250, R251): requests, failures, broadcast, injection. -/

namespace Sys2Proof.Machine

open Sys2Proof

/-! ### Manifests in force -/

/-- The manifest of an epoch, an adapter set, or the load under way. -/
def manOf (s : State) (adapter : Bool) (number : BitVec 16) : Option Manifest :=
  match s.wts.load.bind fun l => if l.adapter = adapter ∧ l.number = number then l.man else none with
  | some m => some m
  | none =>
    if adapter then s.wts.adapterMans.find? fun m => m.number == number
    else (epochOf s number).map (·.man)

/-- Whether a number names an epoch or adapter set that is loading or live (R258). -/
def knownNumber (s : State) (adapter : Bool) (number : BitVec 16) : Bool :=
  (s.wts.load.any fun l => l.adapter == adapter && l.number == number) || (manOf s adapter number).isSome

def chunkEntry (s : State) (adapter : Bool) (number : BitVec 16) (i : BitVec 32) : Option ManChunk :=
  (manOf s adapter number).bind fun m => m.chunks[i.toNat]?

/-- Whether a chunk's pieces write stacked memory. -/
def isRegion (c : ManChunk) : Bool := c.flags.getLsbD 1

/-! ### Records (R264) -/

/-- WI_ERR and WI_ERR_INDEX, if VALID is clear. -/
def wiErr (d : DieId) (code : BitVec 16) (index : BitVec 32) (s : State) : State :=
  if bitOf s.wts.err.toNat 31 then s
  else { s with wts := { s.wts with
    err := BitVec.ofNat 32 (put 1 31 + put d.val 28 + code.toNat), errIndex := index } }

def satByte (b : BitVec 8) : BitVec 8 := if b = 255 then b else b + 1

/-- A message dropped under R258. -/
def countStale (d : DieId) (s : State) : State :=
  s.setDie d { s.dies[d.val] with wiStale := satByte (s.dies[d.val]).wiStale }

/-! ### Releasing and ending (R255, R261, R263) -/

/-- The bytes of a weight slot of every cluster are lost (R209). -/
def loseSlot (held : Option Nat) (s : State) : State :=
  match held with
  | none => s
  | some slot => (List.finRange 768).foldl (fun (s : State) ci =>
    let l := layoutOf s ci.val
    let w := regionMib s.eng.cfg l ci.val 6 * mib
    let lo := regionsBelow s.eng.cfg l ci.val 6 * mib + slot * w
    if w = 0 then s
    else s.setCluster ci { s.cluster ci with mem := (s.cluster ci).mem.drop lo (lo + w) }) s

/-- Requests and buffered chunks of a manifest leave every port die; `region` keeps those that are streamed. -/
def dropChunks (adapter : Bool) (number : BitVec 16) (s : State) : State :=
  let keep (n : BitVec 16) (a : Bool) (i : BitVec 32) (part : Bool) : Bool :=
    !(n == number && a == adapter) || (!part && !((chunkEntry s a n i).any isRegion))
  let clean (x : Die) : Die :=
    { x with
      reqs := x.reqs.filter (fun r => keep r.number r.adapter r.index r.part),
      fetch := x.fetch.filter (fun b => keep b.number b.adapter b.index false) }
  { s with dies := s.dies.map clean }

/-- The slots that an adapter set was loading return to EMPTY. -/
def emptySlots (number : BitVec 16) (s : State) : State :=
  let clean (e : Nat × Adapter) : Nat × Adapter :=
    if e.2.st = .loading ∧ e.2.man = number then (e.1, { e.2 with st := .empty }) else e
  { s with wts := { s.wts with adapters := s.wts.adapters.map clean } }

/-- A load ends with a code: the epoch or its slots are released, and its EPOCH_SWITCH completes (R263). -/
def endLoad (code : BitVec 16) (s : State) : State :=
  match s.wts.load with
  | none => s
  | some l =>
    let s1 := dropChunks l.adapter l.number s
    let s2 := if l.adapter then emptySlots l.number s1
      else if l.st = .loading ∨ l.st = .complete then loseSlot l.slot s1 else s1
    let mine (r : Refetch) : Bool := !l.adapter && !r.adapter && r.number == l.number
    completeAt l.q l.ticket code { s2 with wts := { s2.wts with
      load := none, held := false, refetch := s2.wts.refetch.filter (fun r => !mine r) } }

/-- An epoch is released: its slot's bytes are lost, and its requests and chunks go (R255). -/
def releaseEpoch (e : Epoch) (s : State) : State :=
  let clean (x : Die) : Die :=
    { x with
      reqs := x.reqs.filter (fun r => r.adapter || r.number != e.number),
      fetch := x.fetch.filter (fun b => b.adapter || b.number != e.number) }
  let s1 : State := { s with dies := s.dies.map clean }
  let gone (x : Option Epoch) : Option Epoch := x.bind fun y => if y.number = e.number then none else some y
  let w := s1.wts
  loseSlot e.slot { s1 with wts := { w with
    current := gone w.current, draining := gone w.draining,
    refetch := w.refetch.filter fun r => r.adapter || r.number != e.number } }

/-- The adapter slots in whose areas a chunk of a manifest writes. -/
def chunkSlots (m : Manifest) (i : Nat) : List Nat :=
  let ps := match m.chunks[i]? with | some c => piecesFrom m c.firstPiece c.pieces | none => []
  (m.slots.filter fun x => ps.any fun p => p.dest == 1 && p.win == 2 && inRange p.dstOff x.off x.size).map (·.slot)

/-- Whether an adapter slot is loading or holds what a manifest's slot entry gives it, and not another set or nothing (R249, R261). -/
def ownsSlot (s : State) (m : Manifest) (slot : Nat) : Bool :=
  let a := tabGet {} s.wts.adapters slot
  a.man == m.number && a.st != .empty

/-- Whether an offset of region 2 lies in the area of such a slot. -/
def ownsArea (s : State) (m : Manifest) (off : Nat) : Bool :=
  m.slots.any fun x => inRange off x.off x.size && ownsSlot s m x.slot

/-- A pass whose layer pass waits for chunks that cannot be had ends with their code. -/
def endParked (code : BitVec 16) (s : State) : State :=
  if s.eng.parked.isNone then s else endPassBy code s

/-- A chunk of a repair's refetch cannot be had (R263): the code goes to WI_ERR, and what misses its bytes is released. -/
def refetchFails (d : DieId) (adapter : Bool) (number : BitVec 16) (code : BitVec 16) (i : BitVec 32) (s : State) : State :=
  let s1 := wiErr d code i s
  let s2 := endParked code s1
  if adapter then
    let hit (e : Nat × Adapter) : Bool := (manOf s2 true number).any fun m => (chunkSlots m i.toNat).contains e.1
    let clean (e : Nat × Adapter) : Nat × Adapter :=
      if e.2.man = number ∧ hit e then (e.1, { e.2 with st := .empty }) else e
    { s2 with wts := { s2.wts with
      adapters := s2.wts.adapters.map clean,
      refetch := s2.wts.refetch.filter (fun r => !(r.adapter && r.number == number && r.index == i)) } }
  else match epochOf s2 number with
    | some e => releaseEpoch e s2
    | none => s2

/-- The slice in flight of a load that has ended is aborted, and not run again (R263). -/
def stopSlice (code : BitVec 16) (s : State) : State :=
  shuttleAbort code (s.setLp (s.eng.lp.map fun l => { l with loadOf := none }))

/-- A failure of a chunk or part that ends what awaits it: the pass, the load, or the refetch. -/
def weightEnds (d : DieId) (adapter : Bool) (number : BitVec 16) (i : BitVec 32) (part : Bool) (code : BitVec 16)
    (s : State) : State :=
  let loading := s.wts.load.any fun l => l.adapter == adapter && l.number == number
  let region := part || (chunkEntry s adapter number i).any isRegion
  if region then
    let s1 := if s.eng.lp.any fun l => l.loadOf == some (adapter, number) then stopSlice code s else s
    if loading then endLoad code (wiErr d code i s1) else refetchFails d adapter number code i s1
  else
    let s1 := wiErr d code i s
    if code = 0x0502 then dieAbort d code s1 else shuttleAbort code s1

/-! ### What is due (R246, R247, R249, R254) -/

/-- The chunks that a load writes: those of R254 under the memory mode, or all of an adapter set. -/
def neededChunks (s : State) (m : Manifest) : List (BitVec 32) :=
  if m.kind = 1 then (List.range m.chunks.length).map (BitVec.ofNat 32)
  else
    let want (e : Nat) : Bool := match s.eng.image with
      | some im => match im.layers[e]? with
        | some l => s.eng.cfg.memMode == 0 || (s.eng.cfg.memMode == 2 && !lfStreamed l)
        | none => false
      | none => false
    ((m.layers.filter fun l => want l.entry).flatMap fun l =>
      (List.range l.resCount).map fun k => BitVec.ofNat 32 (l.resFirst + k)).eraseDups

/-- The chunks that the load under way still has to fetch itself on a port die. -/
def loadWants (s : State) (d : DieId) : List (Bool × BitVec 16 × BitVec 32) :=
  match s.wts.load with
  | none => []
  | some l => match l.man with
    | none => []
    | some m =>
      if l.st = .loading ∧ (l.role ≠ 2 ∨ l.ended) then
        ((neededChunks s m).filter fun i =>
          !l.loaded.contains i && (match m.chunks[i.toNat]? with | some c => c.die == d.val | none => false)).map
          fun i => (l.adapter, l.number, i)
      else []

/-- The chunk whose turn it is on a port die and that has still to come through a port: the next one due for injection, else the first of
the load or of a refetch that the fetch buffer does not hold. -/
def dueChunk (s : State) (d : DieId) : Option (Bool × BitVec 16 × BitVec 32) :=
  let x := s.dies[d.val]
  let here (a : Bool) (n : BitVec 16) (i : BitVec 32) : Bool := x.fetch.any fun b => b.adapter == a && b.number == n && b.index == i
  let lead : Option (Bool × BitVec 16 × BitVec 32) := match x.due, s.eng.pass with
    | (i, _) :: _, some p => if here false p.epoch i then none else some (false, p.epoch, i)
    | _, _ => none
  let again := (s.wts.refetch.filter fun r =>
    match chunkEntry s r.adapter r.number r.index with | some c => c.die == d.val | none => false).map
    fun r => (r.adapter, r.number, r.index)
  lead.or ((loadWants s d ++ again).find? fun c => !here c.1 c.2.1 c.2.2)

/-! ### Requests (R244, R245, R292) -/

/-- The port die's frame of a request. -/
def requestFrame (s : State) (d : DieId) (r : ChunkReq) (retry : Bool) : Frame :=
  let pay : List Byte := match r.mask with | some m => leBytes 32 m.toNat | none => []
  let index := if r.part then r.index.toNat % 2 ^ 31 + 2 ^ 31 else r.index.toNat
  let h := hdrOf [(0, 2, magicWc), (2, 1, 1), (3, 1, if r.mask.isSome then 6 else 2), (4, 2, r.number.toNat),
    (6, 1, put (b2n r.adapter) 1 + put (b2n retry) 3), (8, 4, index), (0xC, 4, pay.length),
    (0x10, 4, if pay.isEmpty then 0 else (crc32c pay).toNat), (0x14, 2, s.eng.cfg.engineId.toNat),
    (0x16, 2, r.shard.toNat % 32768 + 32768), (0x18, 2, r.shard.toNat), (0x1C, 4, r.tag.toNat), (0x20, 8, r.object.toNat)]
  ⟨0, routeTo 1 d.val 15 r.shard.toNat, hdrBytes h ++ pay⟩

/-- A request sent, and held as outstanding. With no switch-facing port in service a part, or a chunk that is due, ends with WEIGHT_PATH; the
request for a chunk that is not due yet waits (R246). -/
def sendRequest (d : DieId) (r : ChunkReq) (retry : Bool) (s : State) : State :=
  if (switchPorts s d).isEmpty then
    if r.part || dueChunk s d == some (r.adapter, r.number, r.index) then weightEnds d r.adapter r.number r.index r.part 0x0508 s
    else s.setDie d { s.dies[d.val] with reqs := (s.dies[d.val]).reqs ++ [{ r with waiting := true }] }
  else
    let s1 := s.setDie d { s.dies[d.val] with reqs := (s.dies[d.val]).reqs ++ [r] }
    sendSwitch d (requestFrame s d r retry) s1

/-- A new request with the next tag of the port die. -/
def newRequest (d : DieId) (adapter : Bool) (number : BitVec 16) (i : BitVec 32) (part : Bool) (shard : BitVec 16)
    (object : BitVec 64) (mask : Option (BitVec 16)) (fails : Nat) (s : State) : State :=
  let x := s.dies[d.val]
  let s1 := s.setDie d { x with nextTag := x.nextTag + 1 }
  sendRequest d ⟨x.nextTag, number, adapter, i, part, shard, object, mask, fails, false⟩ (decide (0 < fails)) s1

/-- The port die on which a request is sent again: that of a part is chosen anew (R244). -/
def retryDie (s : State) (d : DieId) (r : ChunkReq) : DieId :=
  if r.part && (switchPorts s d).isEmpty then (dieFor s r.number.toNat).getD d else d

/-- Whether a request is for a chunk of a load, and whether for one that is fetched again under R249. -/
def ofLoad (r : ChunkReq) (l : Load) : Bool := l.adapter == r.adapter && l.number == r.number && !r.part
def ofAgain (r : ChunkReq) (x : Refetch) : Bool := x.adapter == r.adapter && x.number == r.number && x.index == r.index && !r.part

/-- The failures of a chunk so far: those within the load, or within the refetch of R249, whatever slices have ended meanwhile (R263). -/
def failsOf (s : State) (r : ChunkReq) : Nat :=
  let load := match s.wts.load with | some l => if ofLoad r l then tabGet 0 l.fails r.index.toNat else 0 | none => 0
  let again := match s.wts.refetch.find? (ofAgain r) with | some x => x.fails | none => 0
  max r.fails (max load again)

/-- A failure of a chunk is kept with its load or its refetch. -/
def noteFail (r : ChunkReq) (n : Nat) (s : State) : State :=
  { s with wts := { s.wts with
      load := s.wts.load.map fun l => if ofLoad r l then { l with fails := tabSet l.fails r.index.toNat n } else l,
      refetch := s.wts.refetch.map fun x => if ofAgain r x then { x with fails := n } else x } }

/-- The third failure ends the work; an earlier one is counted in RETRIES, and the first after a check is recorded. -/
def failRequest (d : DieId) (r : ChunkReq) (check wait : Bool) (s : State) : State :=
  let n := failsOf s r + 1
  if 3 ≤ n then weightEnds d r.adapter r.number r.index r.part (if check then 0x0501 else 0x0507) s
  else
    let s0 := noteFail r n s
    let s1 := s0.setDie d { s0.dies[d.val] with wiRetries := satByte (s0.dies[d.val]).wiRetries }
    let s2 := if check then wiErr d 0x0501 r.index s1 else s1
    let r1 : ChunkReq := { r with fails := n, waiting := wait }
    if wait then s2.setDie d { s2.dies[d.val] with reqs := (s2.dies[d.val]).reqs ++ [r1] }
    else sendRequest (retryDie s2 d r1) r1 true s2

/-- The request of a tag taken out of those outstanding. -/
def takeRequest (d : DieId) (tag : BitVec 32) (s : State) : Option (ChunkReq × State) :=
  match takeFirst (fun r : ChunkReq => r.tag == tag) (s.dies[d.val]).reqs with
  | none => none
  | some (r, rest) => some (r, s.setDie d { s.dies[d.val] with reqs := rest })

/-! ### What is to be fetched (R244, R247, R249, R254) -/

/-- Whether a layer entry streams its weights under the memory mode in force (R36). -/
def streams (s : State) (e : LayerEntry) : Bool :=
  e.chunks != 0 && (s.eng.cfg.memMode == 1 || (s.eng.cfg.memMode == 2 && lfStreamed e))

/-- The chunks that a layer entry streams on a port die, in order. -/
def streamChunks (m : Manifest) (entry : Nat) (d : DieId) : List (BitVec 32) :=
  (m.layers.filter fun l => l.entry == entry).flatMap fun l =>
    ((List.range l.streamCount).map fun k => BitVec.ofNat 32 (l.streamFirst + k)).filter fun i =>
      match m.chunks[i.toNat]? with | some c => c.die == d.val | none => false

/-- The predictor record of a layer entry (R284). -/
def focusRec (im : Image) (e : LayerEntry) : Option FocusRec := im.focus[e.focusIndex]?

/-- The mode of a layer entry in a pass (R283). -/
def focusMode (s : State) (p : Pass) (entry : Nat) (e : LayerEntry) : FocusMode :=
  match s.eng.image, epochOf s p.epoch with
  | some im, some ep =>
    if !lfFocus e ∨ im.format = 2 ∨ ep.man.version = 1 ∨ s.eng.cfg.focusPolicy = 2 then .full
    else if s.eng.cfg.focusPolicy = 1 then .exact
    else match focusRec im e with
      | some r => if r.mode = 0 ∨ p.esc.contains entry then .exact else .bounded
      | none => .exact
  | _, _ => .full

/-- Whether a bounded layer pass is sampled: CRC-32C of PASS_SEQ, LAYER_ID and the epoch divides by SAMPLE_N (R294). -/
def sampledPass (s : State) (p : Pass) (e : LayerEntry) : Bool :=
  match s.eng.image.bind fun im => focusRec im e with
  | some r =>
    (crc32c (leBytes 4 (dField p.desc 0x20 4) ++ leBytes 2 e.layerId ++ leBytes 2 p.epoch.toNat)).toNat % r.sampleN == 0
  | none => false

/-- Whether a layer entry fetches by row mask in a pass (R283, R290, R294). -/
def maskedEntry (s : State) (p : Pass) (entry : Nat) (e : LayerEntry) : Bool :=
  let mode := focusMode s p entry e
  streams s e && mode != .full && !(mode == .bounded && sampledPass s p e)

/-- The next streamed layer entry of the pass, if its chunks are prefetched: one that fetches by row mask is not (R290). -/
def prefetchEntry (s : State) : Option Nat :=
  match s.eng.pass, s.eng.image with
  | some p, some im =>
    match p.todo.find? fun e => match im.layers[e]? with | some l => streams s l | none => false with
    | some e => match im.layers[e]? with
      | some l => if maskedEntry s p e l then none else some e
      | none => none
    | none => none
  | _, _ => none

/-- Every chunk that a port die would fetch now, in order, with its mask. -/
def wants (s : State) (d : DieId) : List (Bool × BitVec 16 × BitVec 32 × Option (BitVec 16)) :=
  let x := s.dies[d.val]
  let num : BitVec 16 := match s.eng.pass with | some p => p.epoch | none => 0
  let cur := x.due.map fun c => (false, num, c.1, c.2)
  let here (i : BitVec 32) : Bool := x.fetch.any fun b => !b.adapter && b.number == num && b.index == i
  let awaits := match s.eng.lp with
    | some lp => lp.masked && !(lp.started && x.mainDone && (lp.fmode != .exact || x.catchDone))
    | none => false
  let pre := if !awaits && x.due.all fun c => here c.1 then
      match prefetchEntry s, epochOf s num with
      | some e, some ep => (streamChunks ep.man e d).map fun i => (false, num, i, none)
      | _, _ => []
    else []
  let load := (loadWants s d).map fun c => (c.1, c.2.1, c.2.2, none)
  let again := (s.wts.refetch.filter fun r =>
    match chunkEntry s r.adapter r.number r.index with | some c => c.die == d.val | none => false).map
    fun r => (r.adapter, r.number, r.index, none)
  cur ++ pre ++ load ++ again

/-- Whether a frame carries a relayed chunk. -/
def relayFrame (b : ChunkBuf) (f : Frame) : Bool :=
  let h := frameHdr f.bytes
  f.ctx == 0 && hf h 3 1 == 1 && bitOf (hf h 6 1) 2 && hf h 4 2 == b.number.toNat && bitOf (hf h 6 1) 1 == b.adapter
    && hf h 8 4 == b.index.toNat

/-- Whether a relay of a chunk is still to be sent on some port (R251). -/
def relayPending (s : State) (b : ChunkBuf) : Bool :=
  s.ports.toList.any fun x =>
    x.xfer.txq[0].any (relayFrame b) || x.xfer.begun.any fun f => f.2.isNone && relayFrame b f.1

/-- The chunks in a fetch buffer: those fetched, and those that stay for their relays (R239, R251). -/
def fetchHeld (s : State) (d : DieId) : List ChunkBuf :=
  let x := s.dies[d.val]
  let same (b c : ChunkBuf) : Bool := b.number == c.number && b.adapter == c.adapter && b.index == c.index
  x.fetch ++ x.relays.filter fun b => relayPending s b && !(x.fetch.any (same b))

/-- The room of a fetch buffer, by WIRE_LEN. -/
def fetchRoom (s : State) (d : DieId) : Nat :=
  let x := s.dies[d.val]
  let held := (fetchHeld s d).foldl (fun n b => n + b.wire.length) 0
  let asked := x.reqs.foldl (fun n r =>
    if r.part then n else match chunkEntry s r.adapter r.number r.index with | some c => n + c.wireLen | none => n) 0
  32 * mib - held - asked

/-- Requests for the chunks of a list while the fetch buffer has room. -/
def requestAll (d : DieId) : List (Bool × BitVec 16 × BitVec 32 × Option (BitVec 16)) → State → State
  | [], s => s
  | (a, num, i, mask) :: t, s =>
    let x := s.dies[d.val]
    let have' := (x.reqs.any fun r => !r.part && r.adapter == a && r.number == num && r.index == i && r.mask == mask)
      || (x.fetch.any fun b => b.adapter == a && b.number == num && b.index == i && b.mask == mask)
    if have' then requestAll d t s
    else match chunkEntry s a num i with
      | none => requestAll d t s
      | some c =>
        if c.wireLen ≤ fetchRoom s d then requestAll d t (newRequest d a num i false c.shard c.object mask 0 s)
        else s

/-- A port die keeps requests outstanding for as many chunks as it has room for (R244). With no switch-facing port in
service, a chunk that is due ends the work with WEIGHT_PATH (R246). -/
def fetchMore (d : DieId) (s : State) : State :=
  if !(switchPorts s d).isEmpty then requestAll d (wants s d) s
  else match dueChunk s d with
    | some (a, num, i) => weightEnds d a num i false 0x0508 s
    | none => s

def fetchAll (s : State) : State := (List.finRange 8).foldl (fun s d => fetchMore d s) s

/-! ### Broadcast (R250, R251) -/

/-- The load that a broadcast message belongs to, with its role. -/
def castLoad (s : State) (h : BitVec 512) : Option Load :=
  match s.wts.load with
  | none => none
  | some l =>
    if (l.role = 1 ∨ l.role = 2) ∧ l.number.toNat = hf h 4 2 ∧ l.adapter = bitOf (hf h 6 1) 1 ∧ l.group.toNat = hf h 0x28 2
    then some l else none

/-- A message of a READER sent to the group on every switch-facing port in service. -/
def castOut (d : DieId) (h : BitVec 512) (pay : List Byte) (group : BitVec 16) (s : State) : State :=
  let f := hf h 6 1
  let h1 := hdrOf [(0, 4, hf h 0 4), (4, 2, hf h 4 2), (6, 1, if bitOf f 2 then f else f + 4), (8, 4, hf h 8 4),
    (0xC, 4, hf h 0xC 4), (0x10, 4, hf h 0x10 4), (0x14, 2, s.eng.cfg.engineId.toNat), (0x16, 2, 0xFFFF),
    (0x18, 2, hf h 0x18 2), (0x1C, 4, hf h 0x1C 4), (0x20, 8, hf h 0x20 8), (0x28, 2, group.toNat)]
  ((List.finRange 8).flatMap (switchPorts s)).foldl
    (fun s p => queueFrame p ⟨0, routeGroup d.val 15 group.toNat, hdrBytes h1 ++ pay⟩ s) s

/-- A broadcast message relayed on the ports of RELAY_MASK, once, with HOPS + 1 (R251). R251 has it sent on every port of RELAY_MASK, and
R369 by the die that holds the message: the model takes every port, of whichever die (DEDUCED, log entry 79). A chunk stays in the fetch buffer of the port die
that holds the message until its relays have been sent. -/
def relay (d : DieId) (from' : PortId) (h : BitVec 512) (pay : List Byte) (s : State) : State :=
  match castLoad s h with
  | none => s
  | some l =>
    let key := (BitVec.ofNat 8 (hf h 3 1), BitVec.ofNat 32 (hf h 8 4))
    if s.eng.cfg.relayHopsMax ≤ hf h 7 1 ∨ l.relayed.contains key then s
    else
      let h1 := h + BitVec.ofNat 512 (put 1 56)
      let s0 := { s with wts := { s.wts with load := some { l with relayed := l.relayed ++ [key] } } }
      let x := s0.dies[d.val]
      let kept : ChunkBuf := ⟨l.number, l.adapter, key.2, bitOf (hf h 6 1) 0, none, pay, 0⟩
      let s1 := if hf h 3 1 = 1 then s0.setDie d { x with relays := x.relays.filter (relayPending s0) ++ [kept] } else s0
      ((List.finRange 32).filter fun p => s.eng.cfg.relayMask.getLsbD p.val && p != from' && roleOf s p == 3
        && inServicePort s p && !(s.ports[p.val]).link.relayOff).foldl
        (fun s p => queueFrame p ⟨0, routeGroup d.val 15 (hf h 0x28 2), hdrBytes h1 ++ pay⟩ s) s1

/-! ### Injection (R242, R243) -/

/-- The header flit of a message that a port die injects. -/
def dieHeader (s : State) (d : DieId) (win : Nat) (sig : Bool) (seq off len syncId syncInc : Nat) : BitVec 256 :=
  BitVec.ofNat 256 (put (0xC0 + d.val) 8 + put 0xFF 16 + put 0xFF 24 + put (win % 8 + 8 * b2n sig) 32 + put (seq % 65536) 48
    + put off 64 + put len 96 + put syncId 128 + put syncInc 144 + put s.lpass 160)

/-- A payload as flits. -/
def flitsOf (bs : List Byte) : List (BitVec 256) :=
  (cut 32 (bs.length / 32) bs).map fun b => BitVec.ofNat 256 (leNat b)

/-- A message to be injected on a flow, with the next SEQ of the flow in the layer pass. -/
def injectMessage (d : DieId) (flow : Nat) (chunk : Option (BitVec 32)) (win : Nat) (sig : Bool) (off : Nat)
    (pay : List Byte) (syncId syncInc : Nat) (s : State) : State :=
  let x := s.dies[d.val]
  let seq := tabGet 0 x.seqs flow
  let h := dieHeader s d win sig seq.toNat off pay.length syncId syncInc
  s.setDie d { x with
    inject := x.inject ++ [⟨BitVec.ofNat 16 flow, chunk, h :: flitsOf pay⟩], seqs := tabSet x.seqs flow (seq + 1) }

/-- The flow of an ingress flow index in the plan that runs. -/
def flowIndex (s : State) (i : Nat) : Option Nat := ((runningPlan s).bind fun p => ingressFlow p i).map Prod.fst

/-- A piece injected (R242). -/
def injectPiece (d : DieId) (i : BitVec 32) (p : ManPiece) (o : List Byte × List Byte) (s : State) : State :=
  match flowIndex s p.target with
  | none => s
  | some f => injectMessage d f (some i) p.win (p.flags.getLsbD 0) p.dstOff (gather p o) p.syncId.toNat p.syncInc.toNat s

/-- A unit of a loader's DMAWR that fails link parity is written as it arrived, of which nothing is known, and MEM_LINK is raised by a
core of the cluster: which one the firmware uses is open, and the model's is its first (R222, R247; DESIGN CHOICE, log entry 77). -/
def linkUnit (ci : ClusterId) (region a n : Nat) (s : State) : State :=
  let k := s.cluster ci
  let s1 := (s.setCluster ci { k with mem := k.mem.put a (freeBytes s.free n) }).took n
  match coreOf ci 0 with
  | some c => memError c false region a s1
  | none => s1

/-- A piece written to stacked memory by the loader (R247), into the weight slot of its epoch; `bad` are its units, by number, whose
transfer fails link parity. -/
def writePiece (slot : Nat) (bad : List Nat) (p : ManPiece) (o : List Byte × List Byte) (s : State) : State :=
  if h : p.target < 768 then
    let ci : ClusterId := ⟨p.target, h⟩
    let l := layoutOf s p.target
    let b := regionsBelow s.eng.cfg l p.target p.win * mib
    let base := if p.win = 6 then b + slot * regionMib s.eng.cfg l p.target 6 * mib else b
    let out := gather p o
    let s1 := s.setCluster ci { s.cluster ci with mem := (s.cluster ci).mem.put (base + p.dstOff) out }
    (bad.filter fun u => decide (64 * u < out.length)).foldl
      (fun s u => linkUnit ci p.win (base + p.dstOff + 64 * u) (min 64 (out.length - 64 * u)) s) s1
  else s

/-- At the start mark of a layer pass, a port die sets out to fetch and inject what the pass streams (R244); by mask it
waits for the masks (R290). -/
def startIngress (s : State) : State :=
  let m := s.eng.pass.bind fun p => epochOf s p.epoch
  let due (d : DieId) : List (BitVec 32 × Option (BitVec 16)) :=
    match s.eng.lp, runningEntry s, m with
    | some lp, some e, some ep =>
      if streams s e && !lp.masked then (streamChunks ep.man lp.entry d).map fun i => (i, none) else []
    | _, _, _ => []
  let dies := Vector.ofFn fun (d : DieId) => { s.dies[d.val] with
    due := due d, inject := [], seqs := [], lens := [], maskMain := [], maskCatch := [], mainMsgs := 0, catchMsgs := 0,
    mainDone := false, catchDone := false }
  fetchAll { s with dies := dies }

/-- An aborted layer pass discards its chunks in the fetch and lens buffers (R244). -/
def abortIngress (s : State) : State :=
  let own (adapter : Bool) (n : BitVec 16) (i : BitVec 32) : Bool := match s.eng.lp, s.eng.pass.bind fun p => epochOf s p.epoch with
    | some lp, some ep =>
      if lp.kind = .work then
        !adapter && n == ep.number
          && ep.man.layers.any fun l => l.entry == lp.entry && inRange i.toNat l.streamFirst l.streamCount
      else lp.loadOf == some (adapter, n) && lp.chunks.contains i
    | some lp, none => lp.loadOf == some (adapter, n) && lp.chunks.contains i
    | none, _ => false
  let clean (x : Die) : Die :=
    { x with
      due := [], lens := [], inject := [],
      fetch := x.fetch.filter (fun b => !own b.adapter b.number b.index),
      reqs := x.reqs.filter (fun r => r.part || !own r.adapter r.number r.index) }
  { s with dies := s.dies.map clean }

end Sys2Proof.Machine
end

