-- ==== Sys2Proof/Machine/Weights.lean ====
section
/-! DEFINITION. Weight epochs and adapters (R250, R253 to R261), and the commands of weight ingress. -/

namespace Sys2Proof.Machine

open Sys2Proof

/-! ### Epochs (R253, R255, R257) -/

/-- Whether no layer pass and no pass is in flight. -/
def atBoundary (s : State) : Bool := s.eng.pass.isNone && s.eng.lp.isNone

/-- Whether epoch `b` is newer than `a` (R253). -/
def newer (b a : BitVec 16) : Bool :=
  let d := (b.toNat + 65535 - a.toNat) % 65535
  decide (1 ≤ d) && decide (d ≤ 32767)

/-- Whether admitted work is pinned to an epoch (R255). -/
def pinned (s : State) (n : BitVec 16) : Bool :=
  (s.eng.pass.any fun p => p.epoch == n) || s.red.steps.any fun t => t.epoch == n && t.outcome.isNone

/-- The weight slots that exist (R207); under Streaming none is needed. -/
def slotCount (s : State) : Nat :=
  match s.eng.image with
  | some im => if twoSlots s.eng.cfg im.layouts then 2 else 1
  | none => 1

/-- The slot that a new epoch takes, if one is free or none is needed: successive epochs alternate (R207). -/
def freeSlot (s : State) : Option (Option Nat) :=
  let used := (s.wts.current.toList ++ s.wts.draining.toList).filterMap (·.slot)
  if s.eng.cfg.memMode = 1 then some none
  else ((List.range (slotCount s)).find? fun k => !used.contains k).map some

/-- A load whose manifest has passed enters LOADING, or WAITING for a slot (R255). -/
def beginLoading (s : State) : State :=
  match s.wts.load with
  | none => s
  | some l =>
    if l.adapter then fetchAll { s with wts := { s.wts with load := some { l with st := .loading } } }
    else match freeSlot s with
      | some k => fetchAll { s with wts := { s.wts with load := some { l with st := .loading, slot := k } } }
      | none => { s with wts := { s.wts with load := some { l with st := .waiting } } }

/-- A load all of whose chunks are written is COMPLETE (R254). -/
def checkComplete (s : State) : State :=
  match s.wts.load with
  | none => s
  | some l => match l.man with
    | none => s
    | some m =>
      if l.st = .loading ∧ (neededChunks s m).all (fun i => l.loaded.contains i) then
        { s with wts := { s.wts with load := some { l with st := .complete } } }
      else s

/-- A COMPLETE epoch becomes CURRENT at a pass boundary at which none is DRAINING; its EPOCH_SWITCH completes (R255). An
escalated layer entry returns to BOUNDED (R296). -/
def promote (s : State) : State :=
  match s.wts.load with
  | none => s
  | some l => match l.man with
    | none => s
    | some m =>
      if l.adapter ∨ l.st ≠ .complete ∨ s.wts.draining.isSome ∨ !atBoundary s then s
      else completeAt l.q l.ticket 0 { s with
        wts := { s.wts with
          current := some ⟨l.number, l.slot, m⟩, draining := s.wts.current, load := none, held := false },
        coll := { s.coll with groupGone := (s.coll.groupGone.filter fun x => match m.scale with
          | some t => t.members.any fun y => y.1 == x
          | none => false) },
        eng := { s.eng with focusEsc := [] } }

/-! ### Adapters (R260, R261) -/

/-- A directory entry (R260). -/
def directoryEntry (a : Adapter) : List Byte :=
  let code := match a.st with | .empty => 0 | .loading => 1 | .ready => 2
  leBytes 1 code ++ leBytes 1 a.rank ++ leBytes 2 a.baseEpoch.toNat ++ leBytes 4 a.off ++ leBytes 4 a.size
    ++ leBytes 2 a.gen.toNat ++ leBytes 2 0

/-- Bytes of the adapter directory: 4,096 entries of 16 B (R259). -/
abbrev directoryBytes : Nat := 65536

/-- The directory written in every cluster (R260): a slot of which nothing is known is EMPTY, sixteen bytes of zero. -/
def writeDirectory (s : State) : State :=
  if s.eng.cfg.adapterMib = 0 then s
  else (List.finRange 768).foldl (fun (s : State) ci =>
    let k := s.cluster ci
    let a := regionBase s ci 2
    let s1 := s.setCluster ci { k with mem := k.mem.zero a (a + directoryBytes) }
    s1.wts.adapters.foldl (fun (s : State) e => regionWrite ci 2 (16 * e.1) (directoryEntry e.2) s) s1) s

/-- The chunks that write the area of a slot entry. -/
def slotChunks (m : Manifest) (x : ManSlot) : List (BitVec 32) :=
  ((List.range m.chunks.length).filter fun i => (chunkSlots m i).contains x.slot).map (BitVec.ofNat 32)

/-- A slot entry's adapter slot becomes LOADING. -/
def markSlot (m : Manifest) (t : Tab Adapter) (x : ManSlot) : Tab Adapter :=
  tabSet t x.slot { tabGet {} t x.slot with
    st := .loading, man := m.number, rank := x.rank, baseEpoch := m.baseEpoch, off := x.off, size := x.size }

/-- A LOADING slot all of whose chunks are loaded becomes READY, or EMPTY where RANK is 0. -/
def finishSlot (m : Manifest) (loaded : List (BitVec 32)) (t : Tab Adapter) (x : ManSlot) : Tab Adapter :=
  let a := tabGet {} t x.slot
  if a.st ≠ .loading ∨ a.man ≠ m.number ∨ !((slotChunks m x).all loaded.contains) then t
  else tabSet t x.slot { a with st := if x.rank = 0 then .empty else .ready, gen := if x.rank = 0 then a.gen else a.gen + 1 }

/-- Whether a slot that a manifest names is LOADING for it. -/
def slotLoading (s : State) (m : Manifest) : Bool :=
  m.slots.any fun x => let a := tabGet {} s.wts.adapters x.slot; a.st == .loading && a.man == m.number

/-- The changes of adapter slots at a pass boundary (R261): the slots that a manifest names become LOADING at the first, and each becomes
READY, or EMPTY, at the first boundary after its chunks are loaded. The EPOCH_SWITCH completes once all have left LOADING. -/
def adapterBoundary (s : State) : State :=
  match s.wts.load with
  | none => s
  | some l => match l.man with
    | none => s
    | some m =>
      if !l.adapter then s
      else if !l.marked then
        { s with wts := { s.wts with
          adapters := m.slots.foldl (markSlot m) s.wts.adapters, adapterMans := s.wts.adapterMans ++ [m],
          load := some { l with marked := true } } }
      else
        let s1 : State := { s with wts := { s.wts with adapters := m.slots.foldl (finishSlot m l.loaded) s.wts.adapters } }
        if l.st = .complete ∧ !slotLoading s1 m then completeAt l.q l.ticket 0 { s1 with wts := { s1.wts with load := none } }
        else s1

/-- The adapter manifests that no slot names are let go. -/
def trimAdapters (s : State) : State :=
  let used (m : Manifest) : Bool := s.wts.adapters.any fun e => e.2.st != .empty && e.2.man == m.number
  { s with wts := { s.wts with adapterMans := s.wts.adapterMans.filter used } }

/-- What a pass boundary does to epochs and adapters. -/
def epochBoundary (s : State) : State := writeDirectory (trimAdapters (adapterBoundary (promote s)))

/-- The same, where the engine stands at a pass boundary already. -/
def settleEpochs (s : State) : State := if atBoundary s then epochBoundary (checkComplete s) else checkComplete s

/-! ### Load slices (R247, R248) -/

/-- Whether the tiles of a chunk's pieces are in service (R458). -/
def chunkServed (s : State) (m : Manifest) (c : ManChunk) : Bool :=
  (piecesFrom m c.firstPiece c.pieces).all fun p =>
    p.dest == 0 || s.boot.inService.getLsbD (p.target / 16)

/-- The chunks of a manifest that wait in fetch buffers to be written, in chunk order. -/
def readyOf (s : State) (adapter : Bool) (number : BitVec 16) (m : Manifest) : List (BitVec 32) :=
  let held := s.dies.toList.flatMap fun x =>
    (x.fetch.filter fun b => b.adapter == adapter && b.number == number).map (·.index)
  ((List.range m.chunks.length).map (BitVec.ofNat 32)).filter fun i =>
    held.contains i && match m.chunks[i.toNat]? with | some c => isRegion c && chunkServed s m c | none => false

/-- The bytes that a cluster writes in a µs: four slices at the bandwidth that refresh leaves (R203, R219). -/
def clusterRate (s : State) (ci : Nat) : Nat :=
  if h : ci < 768 then
    let x := s.tiles[(physOf s (tileOfCi ⟨ci, h⟩)).val]
    4 * match b2n x.layer0.doubled + b2n x.layer1.doubled with | 0 => 325000 | 1 => 309000 | _ => 293000
  else 1300000

/-- As many chunks as a slice carries within LOAD_SLICE_US; the first is always taken. -/
def carry (s : State) (m : Manifest) : List (BitVec 32) → List (BitVec 32) → List (BitVec 32)
  | acc, [] => acc
  | acc, i :: t =>
    let set := acc ++ [i]
    let cs := set.filterMap fun k => m.chunks[k.toNat]?
    let us := s.eng.cfg.loadSliceUs
    let sum (f : ManChunk → Nat) : Nat := cs.foldl (fun n c => n + f c) 0
    let dieOk := (List.range 8).all fun d =>
      let dec := sum fun c => if c.die = d then c.decLen else 0
      let out := sum fun c => if c.die = d then
        (piecesFrom m c.firstPiece c.pieces).foldl (fun n p => n + p.rows * p.rowBytes) 0 else 0
      decide (dec ≤ us * 940000) && decide (out ≤ us * 940000)
    let targets := (cs.flatMap fun c => (piecesFrom m c.firstPiece c.pieces).map (·.target)).eraseDups
    let ciOk := targets.all fun ci =>
      decide (sum (fun c => (piecesFrom m c.firstPiece c.pieces).foldl
        (fun n p => if p.target = ci then n + p.rows * p.rowBytes else n) 0) ≤ us * clusterRate s ci)
    if acc.isEmpty || (dieOk && ciOk) then carry s m set t else acc

/-- A slice of the chunks of a manifest that are ready and that a test lets in. -/
def sliceFrom (s : State) (a : Bool) (n : BitVec 16) (ok : BitVec 32 → Bool) : Option ((Bool × BitVec 16) × List (BitVec 32)) :=
  match manOf s a n with
  | none => none
  | some m => match carry s m [] ((readyOf s a n m).filter ok) with
    | [] => none
    | l => some ((a, n), l)

/-- The next load slice of the chunks that are fetched again (R249), if any is ready. -/
def refetchSlice (s : State) : Option ((Bool × BitVec 16) × List (BitVec 32)) :=
  s.wts.refetch.findSome? fun r => sliceFrom s r.adapter r.number fun i =>
    s.wts.refetch.any fun x => x.index == i && x.number == r.number && x.adapter == r.adapter

/-- The manifest and the chunks of the next load slice, if any is ready. -/
def nextSlice (s : State) : Option ((Bool × BitVec 16) × List (BitVec 32)) :=
  match refetchSlice s with
  | some x => some x
  | none => match s.wts.load with
    | some l =>
      if l.st = .loading ∧ (!l.adapter ∨ l.marked) then sliceFrom s l.adapter l.number fun i => !l.loaded.contains i else none
    | none => none

/-- A load slice commits: its chunks count as loaded. -/
def sliceCommit (lp : LayerPass) (s : State) : State :=
  match lp.loadOf with
  | none => s
  | some (a, n) =>
    let load := s.wts.load.map fun l =>
      if l.adapter = a ∧ l.number = n then { l with loaded := (l.loaded ++ lp.chunks).eraseDups } else l
    settleEpochs (fetchAll { s with wts := { s.wts with
      load := load, refetch := s.wts.refetch.filter fun r => !(r.adapter == a && r.number == n && lp.chunks.contains r.index) } })

/-! ### Manifests under way (R238, R244, R245) -/

/-- The parts held, joined from part `i` on. -/
def joinParts (t : Tab (List Byte)) : Nat → Nat → List Byte
  | 0, _ => []
  | n + 1, i => match tabFind t i with | some b => b ++ joinParts t n (i + 1) | none => []

/-- The first part missing. -/
def firstGap (t : Tab (List Byte)) : Nat → Nat → Nat
  | 0, i => i
  | n + 1, i => if (tabFind t i).isSome then firstGap t n (i + 1) else i

/-- Whether every part of the manifest is held. -/
def manWhole (l : Load) : Bool := l.size != 0 && decide (l.size ≤ (joinParts l.parts l.parts.length 0).length)

/-- The part that the engine fetches itself next, on the die of R244. DESIGN CHOICE (log entry 86): where no port die has a switch-facing port in
service, the load ends at once with WEIGHT_PATH, recorded for PD(NUMBER mod 8); R246 has this for chunks. -/
def requestPart (s : State) : State :=
  match s.wts.load with
  | none => s
  | some l =>
    if l.st ≠ .fetching ∨ (l.role = 2 ∧ !l.ended) then s
    else
      let i := BitVec.ofNat 32 (firstGap l.parts l.parts.length 0)
      let asked := s.dies.toList.any fun x => x.reqs.any fun r => r.part && r.number == l.number && r.adapter == l.adapter
      if asked then s
      else match dieFor s l.number.toNat with
        | some d => newRequest d l.adapter l.number i true l.shard 0 none 0 s
        | none => endLoad 0x0508 (wiErr ⟨l.number.toNat % 8, Nat.mod_lt _ (by omega)⟩ 0x0508 i s)

/-- A READER whose chunks have all been sent to the group sends END (R250). -/
def readerEnd (d : DieId) (s : State) : State :=
  match s.wts.load with
  | none => s
  | some l => match l.man with
    | none => s
    | some m =>
            if l.role = 1 ∧ !l.ended ∧ (neededChunks s m).all (fun i => l.sent.contains i) then
        let h := hdrOf [(0, 2, magicWc), (2, 1, 1), (3, 1, 5), (4, 2, l.number.toNat), (6, 1, put (b2n l.adapter) 1)]
        castOut d h [] l.group { s with wts := { s.wts with load := some { l with ended := true } } }
      else s

/-- The manifest is whole: the checks of R238, and what follows. -/
def manifestDone (d : DieId) (s : State) : State :=
  match s.wts.load with
  | none => s
  | some l =>
    let bs := joinParts l.parts l.parts.length 0
    match manifestCheck s l.adapter l.number bs with
    | some code =>
      let s1 := if 0x0C00 ≤ code.toNat then secCode code s else s
      endLoad code s1
    | none =>
      settleEpochs (readerEnd d (beginLoading { s with wts := { s.wts with load := some { l with man := some (parseManifest bs) } } }))

/-- What a READER sends on to its group as it arrives. -/
def readerSend (d : DieId) (h : BitVec 512) (pay : List Byte) (s : State) : State :=
  match s.wts.load with
  | none => s
  | some l =>
    if l.role = 1 ∧ l.number.toNat = hf h 4 2 ∧ l.adapter = bitOf (hf h 6 1) 1 then
      let sent := if hf h 3 1 = 1 then l.sent ++ [BitVec.ofNat 32 (hf h 8 4)] else l.sent
      readerEnd d (castOut d h pay l.group { s with wts := { s.wts with load := some { l with sent := sent } } })
    else s

/-! ### Arrival of messages (R229, R245, R258) -/

/-- The checks of R229 on a message of a type. -/
def wcOk (h : BitVec 512) (ty : Nat) (pay : List Byte) : Bool :=
  hf h 0 2 == magicWc && hf h 2 1 == 1 && hf h 3 1 == ty && bits (hf h 6 1) 7 4 == 0 && hf h 0x2A 22 == 0
    && hf h 0xC 4 == pay.length && hf h 0x10 4 == (if pay.isEmpty then 0 else (crc32c pay).toNat)

def wcAdapter (h : BitVec 512) : Bool := bitOf (hf h 6 1) 1
def wcNumber (h : BitVec 512) : BitVec 16 := BitVec.ofNat 16 (hf h 4 2)
def wcIndex (h : BitVec 512) : BitVec 32 := BitVec.ofNat 32 (hf h 8 4)
def wcPart (h : BitVec 512) : Bool := hf h 3 1 == 3
def wcTag (h : BitVec 512) : BitVec 32 := BitVec.ofNat 32 (hf h 0x1C 4)

/-- A sender of a VC0 message that is an engine has been heard from (R360). -/
def wcHeard (h : BitVec 512) (s : State) : State :=
  let src := hf h 0x14 2
  if src < 0x8000 then heardFrom (src % 16384) s else s

/-- Whether a message answers a request that is outstanding: a CHUNK or MANIFEST_PART that the engine awaits (R229, R245). -/
def awaited (h : BitVec 512) (r : ChunkReq) : Bool :=
  !bitOf (hf h 6 1) 2 && r.part == wcPart h && r.number == wcNumber h && r.adapter == wcAdapter h
    && r.index == wcIndex h

/-- A message that fails the checks is discarded; the one awaited is fetched again (R229, R245). -/
def wcBad (d : DieId) (h : BitVec 512) (s : State) : State :=
  let x := s.dies[d.val]
  let s1 := s.setDie d { x with checkErrs := x.checkErrs + 1 }
  match takeRequest d (wcTag h) s1 with
  | some (r, s2) => if awaited h r then failRequest d r true false s2 else s1
  | none => s1

/-- A chunk taken into the fetch buffer of a port die. -/
def holdChunk (d : DieId) (h : BitVec 512) (pay : List Byte) (mask : Option (BitVec 16)) (fails : Nat) (s : State) : State :=
  let x := s.dies[d.val]
  s.setDie d { x with fetch := x.fetch ++ [⟨wcNumber h, wcAdapter h, wcIndex h, bitOf (hf h 6 1) 0, mask, pay, fails⟩] }

/-- The port die whose fetch buffer a broadcast chunk of the load is to go to: that of a MEMBER which still needs the chunk. -/
def castDie (h : BitVec 512) (s : State) : Option DieId :=
  match castLoad s h with
  | none => none
  | some l => match l.man with
    | none => none
    | some man => match man.chunks[(wcIndex h).toNat]? with
      | none => none
      | some c =>
        if hd : c.die < 8 then
          let have' := l.loaded.contains (wcIndex h)
            || (s.dies[c.die]).fetch.any fun b => b.number == l.number && b.adapter == l.adapter && b.index == wcIndex h
          if l.role ≠ 2 ∨ l.st ≠ .loading ∨ have' ∨ !((neededChunks s man).contains (wcIndex h)) then none else some ⟨c.die, hd⟩
        else none

/-- Whether a broadcast chunk finds no room in the fetch buffer that it is to go to: it keeps its place in the receive buffer of the port,
and the credits of VC0 with it, until there is room (R250). -/
def castFull (m : Msg) (s : State) : Bool :=
  match castDie m.hdr s with
  | some e => decide (32 * mib < ((fetchHeld s e).foldl (fun n b => n + b.wire.length) 0) + m.payload.length)
  | none => false

/-- A broadcast chunk of the load: relayed, and taken by a MEMBER that still needs it. -/
def castChunk (d : DieId) (port : PortId) (m : Msg) (s : State) : State :=
  let s1 := relay d port m.hdr m.payload s
  match castDie m.hdr s with
  | none => s1
  | some e =>
    let x := s1.dies[e.val]
    let asked (r : ChunkReq) : Bool := !r.part && r.number == wcNumber m.hdr && r.adapter == wcAdapter m.hdr && r.index == wcIndex m.hdr
    holdChunk e m.hdr m.payload none 0 (s1.setDie e { x with reqs := x.reqs.filter fun r => !asked r })

/-- CHUNK. -/
def execChunk (d : DieId) (port : PortId) (m : Msg) (s : State) : Res :=
  let s0 := wcHeard m.hdr (takeFrame d (msgBytes m) s)
  let h := m.hdr
  if !wcOk h 1 m.payload then .next (wcBad d h s0)
  else if bitOf (hf h 6 1) 2 && castFull m s then .next s
  else if !knownNumber s0 (wcAdapter h) (wcNumber h) then .next (countStale d s0)
  else if bitOf (hf h 6 1) 2 then .next (castChunk d port m s0)
  else match takeRequest d (wcTag h) s0 with
    | none => .next s0
    | some (r, s1) =>
      if r.part ∨ r.index ≠ wcIndex h ∨ r.number ≠ wcNumber h then .next s0
      else
        let s2 := holdChunk d h m.payload r.mask r.fails s1
        .next (fetchMore d (if r.mask.isNone then readerSend d h m.payload s2 else s2))

/-- A manifest part put with the others; the last one brings the checks. -/
def holdPart (d : DieId) (h : BitVec 512) (pay : List Byte) (s : State) : State :=
  match s.wts.load with
  | none => s
  | some l =>
    if l.st ≠ .fetching then s
    else
      let i := (wcIndex h).toNat
      let l1 : Load := { l with parts := tabSet l.parts i pay, size := if i = 0 then fieldAt pay 0x18 8 else l.size }
      let s1 := { s with wts := { s.wts with load := some l1 } }
      if manWhole l1 then manifestDone d s1 else requestPart s1

/-- MANIFEST_PART. -/
def execManifestPart (d : DieId) (port : PortId) (m : Msg) (s : State) : Res :=
  let s0 := wcHeard m.hdr (takeFrame d (msgBytes m) s)
  let h := m.hdr
  if !wcOk h 3 m.payload ∨ mib < m.payload.length then .next (wcBad d h s0)
  else if !knownNumber s0 (wcAdapter h) (wcNumber h) then .next (countStale d s0)
  else if bitOf (hf h 6 1) 2 then
    match castLoad s0 h with
    | none => .next s0
    | some l =>
      let s1 := relay d port h m.payload s0
      .next (if l.role = 2 ∧ (tabFind l.parts (wcIndex h).toNat).isNone then holdPart d h m.payload s1 else s1)
  else match takeRequest d (wcTag h) s0 with
    | none => .next s0
    | some (r, s1) =>
      if !r.part ∨ r.number ≠ wcNumber h then .next s0
      else .next (holdPart d h m.payload (readerSend d h m.payload s1))

/-- NACK: the request is sent again after 1 ms. -/
def execNack (d : DieId) (_port : PortId) (h : BitVec 512) (s : State) : Res :=
  let s0 := wcHeard h (takeFrame d (hdrBytes h) s)
  if !wcOk h 4 [] then
    .next (s0.setDie d { s0.dies[d.val] with checkErrs := (s0.dies[d.val]).checkErrs + 1 })
  else if !knownNumber s0 (wcAdapter h) (wcNumber h) then .next (countStale d s0)
  else match takeRequest d (wcTag h) s0 with
    | none => .next s0
    | some (r, s1) => .next (failRequest d r false true s1)

/-- A MEMBER fetches what the broadcast has not brought. -/
def fetchMissing (s : State) : State :=
  match s.wts.load with
  | none => s
  | some l =>
    if l.role = 2 ∧ !l.ended then
      let s1 := { s with wts := { s.wts with load := some { l with ended := true } } }
      fetchAll (requestPart s1)
    else s

/-- END of a broadcast. -/
def execEndMsg (d : DieId) (port : PortId) (h : BitVec 512) (s : State) : Res :=
  let s0 := wcHeard h (takeFrame d (hdrBytes h) s)
  if !wcOk h 5 [] then
    .next (s0.setDie d { s0.dies[d.val] with checkErrs := (s0.dies[d.val]).checkErrs + 1 })
  else if !knownNumber s0 (wcAdapter h) (wcNumber h) then .next (countStale d s0)
  else if (castLoad s0 h).isNone ∨ !bitOf (hf h 6 1) 2 then .next s0
  else .next (fetchMissing (relay d port h [] s0))

/-- BCAST_WAIT_EXPIRE. -/
def execBcastWaitExpire (s : State) : Res := .next (fetchMissing s)

/-- CHUNK_REQ_RETRY: the 1 ms after a NACK is over. -/
def execChunkReqRetry (d : DieId) (tag : BitVec 32) (s : State) : Res :=
  match takeRequest d tag s with
  | none => .next s
  | some (r, s1) =>
    if r.waiting then .next (sendRequest (retryDie s1 d r) { r with waiting := false } true s1) else .next s

/-- WEIGHT_TIMEOUT. -/
def execWeightTimeout (d : DieId) (tag : BitVec 32) (s : State) : Res :=
  match takeRequest d tag s with
  | none => .next s
  | some (r, s1) => if r.waiting then .next s else .next (failRequest d r false false s1)

/-! ### Decoding and injection (R239) -/

/-- A buffered chunk whose check failed is fetched again (R245). -/
def refetchBuf (d : DieId) (b : ChunkBuf) (c : ManChunk) (s : State) : State :=
  failRequest d ⟨(s.dies[d.val]).nextTag, b.number, b.adapter, b.index, false, c.shard, c.object, b.mask, b.fails, false⟩
    true false (s.setDie d { s.dies[d.val] with nextTag := (s.dies[d.val]).nextTag + 1 })

/-- A chunk of the layer pass that runs, the next in order on its port die: injected (R243). -/
def injectChunk (d : DieId) (b : ChunkBuf) (c : ManChunk) (parts : List (List ManPiece × List Byte)) (s : State) : State :=
  let one (s : State) (p : List ManPiece × List Byte) : State :=
    let o := requant (storedOf c) (targetOf c) p.2
    let x := s.dies[d.val]
    let s1 := s.setDie d { x with lens := x.lens ++ [⟨b.index, o.1, o.2, b.mask⟩] }
    p.1.foldl (fun s q => injectPiece d b.index q o s) s1
  let s1 := parts.foldl one s
  fetchMore d (s1.setDie d { s1.dies[d.val] with due := (s1.dies[d.val]).due.tail })

/-- The weight slot that the bytes of a manifest go to. -/
def slotFor (s : State) (adapter : Bool) (number : BitVec 16) : Nat :=
  let own := (s.wts.load.filter fun l => l.adapter == adapter && l.number == number).map (·.slot)
  ((own.or ((epochOf s number).map (·.slot))).join).getD 0

/-- A chunk of a load slice: written to stacked memory by the loader. `bad` are the units, by piece and unit number, whose transfer
fails link parity. A piece for an adapter slot that has since become EMPTY or another set's is left out (R249, R261). -/
def writeChunk (b : ChunkBuf) (c : ManChunk) (bad : List (Nat × Nat)) (parts : List (List ManPiece × List Byte)) (s : State) : State :=
  let slot := slotFor s b.adapter b.number
  let pieces := parts.flatMap fun p => let o := requant (storedOf c) (targetOf c) p.2; p.1.map fun q => (q, o)
  let live (q : ManPiece) : Bool := !b.adapter || (manOf s true b.number).any fun m => ownsArea s m q.dstOff
  ((List.range pieces.length).zip pieces).foldl (fun s x =>
    if live x.2.1 then writePiece slot ((bad.filter fun u => u.1 == x.1).map Prod.snd) x.2.1 x.2.2 s else s)
    (s.setLp (s.eng.lp.map fun l => { l with wrote := l.wrote ++ [b.index] }))

/-- Whether a buffered chunk may go through the lens now: the next of the layer pass, or one of the slice. -/
def stageable (s : State) (d : DieId) (b : ChunkBuf) : Bool :=
  match s.eng.lp with
  | none => false
  | some lp => lp.started &&
    (if lp.kind = .load then lp.loadOf == some (b.adapter, b.number) && lp.chunks.contains b.index
     else match (s.dies[d.val]).due with
      | (i, k) :: _ => !b.adapter && i == b.index && k == b.mask
          && (s.eng.pass.any fun p => p.epoch == b.number)
          && decide (((s.dies[d.val]).lens.map (·.index)).eraseDups.length < 2)
      | [] => false)

/-- CHUNK_STAGE_COMPLETE: a chunk leaves the fetch buffer decoded and checked, and is injected, or written with the units that fail link
parity on the way. -/
def execChunkStageComplete (d : DieId) (k : StagedChunk) (s : State) : Res :=
  let index := k.index
  let bad := k.bad
  let x := s.dies[d.val]
  match takeFirst (fun b : ChunkBuf => b.index == index && stageable s d b) x.fetch with
  | none => .next s
  | some (b, rest) =>
    match manOf s b.adapter b.number, chunkEntry s b.adapter b.number index with
    | some m, some c =>
      let s1 := s.setDie d { x with fetch := rest }
      match decodeChunk m index.toNat c b.lace b.mask b.wire with
      | .format => .next (weightEnds d b.adapter b.number index false 0x0502 s1)
      | .check => .next (refetchBuf d b c s1)
      | .ok parts => .next (if isRegion c then writeChunk b c bad parts s1 else injectChunk d b c parts s1)
    | _, _ => .next s

/-! ### Epoch switches -/

/-- EPOCH_RELEASE: no work pinned to an epoch remains (R255). -/
def execEpochRelease (number : BitVec 16) (s : State) : Res :=
  let w := s.wts
  if pinned s number then .next s
  else
    let waiting := w.load.any fun l => l.st == .waiting && !l.adapter
    let go (s1 : State) : State := settleEpochs (if waiting then beginLoading s1 else s1)
    match w.draining, w.current with
    | some e, _ => if e.number = number then .next (go (releaseEpoch e s)) else .next s
    | none, some e =>
      if e.number = number ∧ waiting then
        let s1 := releaseEpoch e s
        .next (go { s1 with wts := { s1.wts with held := true } })
      else .next s
    | none, none => .next s

/-- An EPOCH_SWITCH that is accepted: FETCHING (R255, R257). -/
def acceptSwitch (q : QueueId) (f : Fetched) (s : State) : State :=
  let g := dField f.d
  let wait := g 0x28 4
  let l : Load := {
    q := q, ticket := f.ticket, adapter := g 0x20 1 == 1, number := BitVec.ofNat 16 (g 0x22 2),
    role := BitVec.ofNat 8 (g 0x21 1), shard := BitVec.ofNat 16 (g 0x24 2), group := BitVec.ofNat 16 (g 0x26 2),
    bcastMs := if wait = 0 then 1000 else wait, st := .fetching, parts := [], size := 0, man := none, slot := none,
    loaded := [], relayed := [], ended := false }
  requestPart { s with wts := { s.wts with load := some l } }

/-- A base EPOCH_SWITCH by the newness of its NUMBER (R257): the code with which it completes at once, if it does. -/
def switchCode (s : State) (n : BitVec 16) : Option (BitVec 16) :=
  if n = 0 then some 0x0503
  else match s.wts.current with
    | some e =>
      if n = e.number then some 0
      else if !newer n e.number ∨ (s.wts.draining.any fun x => x.number == n || newer x.number n) then some 0x0503
      else none
    | none => if s.wts.draining.any fun x => x.number == n || newer x.number n then some 0x0503 else none

end Sys2Proof.Machine
end

