-- ==== Sys2Proof/Machine/Focus.lean ====
section
/-! DEFINITION. Focus fetch at the port dies and the root (R283, R289 to R292, R294 to R296, R299). -/

namespace Sys2Proof.Machine

open Sys2Proof

/-- Whether the host can reach the module's registers: the host die is up and the CXL link with it. -/
def hostUp (s : State) : Bool := s.host.linkUp && s.host.hostDie

/-! ### The mode of a layer pass (R283, R294) -/

/-- The focus header of a layer entry in a manifest. -/
def focusHdr (m : Manifest) (entry : Nat) : Option FocusHdr := m.focus.find? fun h => h.entry == entry

/-! ### Masks at a port die (R289 to R291) -/

/-- The 8 KiB of a mask buffer. -/
def maskBuf (bs : List Byte) : List Byte := bs ++ List.replicate (8192 - bs.length) 0

/-- A payload put into a buffer by OR at an offset. -/
def orInto (buf : List Byte) (off : Nat) (pay : List Byte) : List Byte :=
  buf.take off ++ ((buf.drop off).zip pay).map (fun x => x.1 ||| x.2) ++ buf.drop (off + pay.length)

/-- Bit `g` of a buffer. -/
def maskBit (buf : List Byte) (g : Nat) : Bool := (buf.getD (g / 8) 0).getLsbD (g % 8)

/-- The chunks of a port die in a focus entry, in order, with the masks of the row groups that `t` selects. -/
def maskedChunks (m : Manifest) (h : FocusHdr) (d : DieId) (t : Nat → Bool) : List (BitVec 32 × Option (BitVec 16)) :=
  let idx := (List.range h.groups.length).zip h.groups
  let own := (List.range m.chunks.length).filter fun i => (h.groups.any fun g => g.chunk == i) &&
    match m.chunks[i]? with | some c => c.die == d.val | none => false
  own.filterMap fun i =>
    let gs := (idx.filter fun g => g.2.chunk == i).map Prod.fst
    let mask := ((List.range gs.length).zip gs).foldl (fun n x => if t x.2 then n + 2 ^ x.1 else n) 0
    if mask = 0 then none else some (BitVec.ofNat 32 i, some (BitVec.ofNat 16 mask))

/-- Bytes padded with zero to a multiple of 32. -/
def padTo32 (bs : List Byte) : List Byte := bs ++ List.replicate (pad32 bs.length - bs.length) 0

/-- A sketch or an echo injected by SKETCH_DIE. -/
def focusInject (d : DieId) (h : FocusHdr) (dst : Nat) (pay : List Byte) (s : State) : State :=
  match flowIndex s h.sketchFlow with
  | none => s
  | some f => injectMessage d f none (h.sketchWin % 8) false dst (padTo32 pay) 0 0 s

/-- The first bytes of a buffer, as an echo. -/
def echoOf (h : FocusHdr) (buf : List Byte) : List Byte := (maskBuf buf).take ((h.groups.length + 7) / 8)

/-- The sketch payload. -/
def sketchPay (h : FocusHdr) : List Byte :=
  leBytes 4 h.emin.toNat ++ leBytes 4 h.groups.length ++ List.replicate 24 0 ++ h.codes

/-- Step 2 of R290. -/
def focusStep2 (d : DieId) (m : Manifest) (h : FocusHdr) (s : State) : State :=
  let x := s.dies[d.val]
  if x.mainDone ∨ x.mainMsgs < h.maskMsgs.getD d.val 0 then s
  else
    let s1 := s.setDie d { x with mainDone := true, due := x.due ++ maskedChunks m h d (maskBit x.maskMain) }
    let s2 := fetchMore d s1
    if h.sketchDie = d.val then focusInject d h h.mainEchoDst (echoOf h x.maskMain) s2 else s2

/-- Step 3 of R290. -/
def focusStep3 (d : DieId) (m : Manifest) (h : FocusHdr) (mode : FocusMode) (s : State) : State :=
  let x := s.dies[d.val]
  if mode ≠ .exact ∨ !x.mainDone ∨ x.catchDone ∨ x.catchMsgs < h.catchMsgs.getD d.val 0 then s
  else
    let new := maskedChunks m h d fun g => maskBit x.maskCatch g && !maskBit x.maskMain g
    let s2 := fetchMore d (s.setDie d { x with catchDone := true, due := x.due ++ new })
    if h.sketchDie = d.val then focusInject d h h.catchEchoDst (echoOf h x.maskCatch) s2 else s2

/-- What a port die does as the counts stand. -/
def focusSteps (d : DieId) (s : State) : State :=
  match s.eng.lp, s.eng.pass.bind fun p => epochOf s p.epoch with
  | some lp, some ep =>
    match focusHdr ep.man lp.entry with
    | some h => if lp.masked && lp.started then focusStep3 d ep.man h lp.fmode (focusStep2 d ep.man h s) else s
    | none => s
  | _, _ => s

/-- Step 1 of R290, at the start mark: the sketch goes out in exact mode, and counts of zero are met at once. -/
def startFocus (s : State) : State :=
  match s.eng.lp, s.eng.pass.bind fun p => epochOf s p.epoch with
  | some lp, some ep =>
    match focusHdr ep.man lp.entry with
    | none => s
    | some h =>
      if !lp.masked then s
      else
        let s1 := if hd : h.sketchDie < 8 then
            if lp.fmode = .exact then focusInject ⟨h.sketchDie, hd⟩ h h.sketchDst (sketchPay h) s else s
          else s
        (List.finRange 8).foldl (fun s d => focusSteps d s) s1
  | _, _ => s

/-- A message of a flow leaves what the port die has received. -/
def takeRx (d : DieId) (m : MeshMsg) (s : State) : State :=
  let x := s.dies[d.val]
  match x.rx.find? fun r => r.2 == m.hdr with
  | none => s
  | some (flow, _) =>
    match takeMessage flow x.rx with
    | some (h, p, rest) => if h = m.hdr ∧ p = m.payload then s.setDie d { x with rx := rest } else s
    | none => s

/-- The payload bytes of a mesh message. -/
def meshBytes (m : MeshMsg) : List Byte := (m.payload.flatMap flitBytes).take (hdrLength m.hdr)

/-- A mask message taken into its buffer, or the abort of R291. -/
def takeMask (d : DieId) (m : MeshMsg) (h : FocusHdr) (mode : FocusMode) (s : State) : State :=
  let x := s.dies[d.val]
  let win := hdrWin m.hdr
  let off := hdrOffset m.hdr
  let pay := meshBytes m
  let buf := orInto (maskBuf (if win = 1 then x.maskMain else x.maskCatch)) off pay
  let beyond := (List.range (8 * pay.length)).any fun b =>
    decide (h.groups.length ≤ 8 * off + b) && maskBit pay b
  let full := if win = 1 then decide (h.maskMsgs.getD d.val 0 ≤ x.mainMsgs)
    else decide (h.catchMsgs.getD d.val 0 ≤ x.catchMsgs)
  if 8192 < off + pay.length ∨ beyond ∨ full ∨ (win = 2 ∧ mode = .bounded) then dieAbort d 0x0604 s
  else focusSteps d (s.setDie d (if win = 1 then { x with maskMain := buf, mainMsgs := x.mainMsgs + 1 }
    else { x with maskCatch := buf, catchMsgs := x.catchMsgs + 1 }))

/-- MASK_MESSAGE: a message of another layer pass is dropped, and one in a full or sampled layer pass is ignored. -/
def execMaskMessage (d : DieId) (m : MeshMsg) (s : State) : Res :=
  let s0 := takeRx d m s
  let win := hdrWin m.hdr
  match s0.eng.lp, s0.eng.pass.bind fun p => epochOf s0 p.epoch with
  | some lp, some ep =>
    if hdrLpass m.hdr ≠ lp.number.toNat ∨ !lp.masked ∨ !lp.started ∨ (win ≠ 1 ∧ win ≠ 2) then .next s0
    else match focusHdr ep.man lp.entry with
      | some h => .next (takeMask d m h lp.fmode s0)
      | none => .next s0
  | _, _ => .next s0

/-! ### Escalation (R295, R296, R299) -/

/-- The counts of a layer pass that commits, added to the focus counters of its layer entry at the root (R295). -/
def countFocus (lp : LayerPass) (s : State) : State :=
  if lp.kind ≠ .work ∨ lp.heldFocus.isEmpty then s
  else
    let old := tabGet (0, 0) s.eng.focusCnt lp.entry
    let misses := old.1 + lp.heldFocus.foldl (fun n x => n + x.1.toNat) 0
    let active := old.2 + lp.heldFocus.foldl (fun n x => n + x.2.toNat) 0
    { s with eng := { s.eng with focusCnt := tabSet s.eng.focusCnt lp.entry (misses, active) } }

/-- The counts of a layer pass that commits, applied at the root: a sampled one is judged by its own. -/
def focusCommit (lp : LayerPass) (s0 : State) : State :=
  let s := countFocus lp s0
  match s.eng.image with
  | none => s
  | some im =>
    match (im.layers[lp.entry]?).bind fun e => focusRec im e with
    | none => s
    | some r =>
      if lp.kind ≠ .work ∨ !lp.sampled then s
      else
        let miss := lp.heldFocus.foldl (fun n x => n + x.1.toNat) 0
        let act := lp.heldFocus.foldl (fun n x => n + x.2.toNat) 0
        let beyond := decide (r.missLimit * act < miss * 1000)
        let pm := if act = 0 then (Config.freeWord s.free).toNat % 1001 else min 1000 (miss * 1000 / act)
        let s1 := s.took (if act = 0 then 1 else 0)
        let e := s1.eng
        let sample := BitVec.ofNat 32 (put (lp.entry % 4096) 20 + put (b2n beyond) 10 + pm)
        if beyond then
          advisory 0x0610 { s1 with eng := { e with
            focusSample := sample, focusLast := lp.entry,
            focusEsc := if e.focusEsc.contains lp.entry then e.focusEsc else e.focusEsc ++ [lp.entry] } }
        else { s1 with eng := { e with focusSample := sample } }

/-- FOCUS_CTL_CLEAR: every escalated layer entry returns to BOUNDED. -/
def execFocusCtlClear (s : State) : Res :=
  if hostUp s then .next { s with eng := { s.eng with focusEsc := [] } } else .next s

end Sys2Proof.Machine
end

