-- ==== Sys2Proof/Machine/Status.lean ====
section
/-! DEFINITION. The completion of a RUN_PASS: its status area (R405) with the reduction section (R329, R330). -/

namespace Sys2Proof.Machine

open Sys2Proof

def passSeq (p : Pass) : Nat := dField p.desc 0x20 4
def passStep (p : Pass) : Nat := dField p.desc 0x24 4
def passTraining (p : Pass) : Bool := bitOf (dField p.desc 0x28 4) 0
def passBackward (p : Pass) : Bool := bitOf (dField p.desc 0x28 4) 1
def passReqs (p : Pass) : Nat := dField p.desc 0x2C 4

/-- The status area of a pass; the duration is a free value, since the model has no clock. -/
def statusArea (p : Pass) (code : BitVec 16) (duration : Word) (sect : List Byte) : List Byte :=
  let n := p.reqs.length
  let off := 32 + round32 (8 * n)
  leBytes 2 code.toNat ++ leBytes 2 p.epoch.toNat ++ leBytes 4 (passSeq p) ++ leBytes 2 p.advisory.toNat
    ++ leBytes 1 p.placement ++ leBytes 1 (min 255 p.reruns) ++ leBytes 4 n ++ leBytes 4 (if sect.isEmpty then 0 else off)
    ++ leBytes 4 duration.toNat ++ leBytes 8 0
    ++ (p.reqs.flatMap fun r => leBytes 4 r.id.toNat ++ leBytes 2 r.status.toNat ++ leBytes 2 0)
    ++ List.replicate (round32 (8 * n) - 8 * n) 0 ++ sect

/-- A RUN_PASS completes with its status area (R400, R405). -/
def completeRun (p : Pass) (code : BitVec 16) (sect : List Byte) (s : State) : State :=
  let s1 := (s.hostWrite (dField p.desc 0x38 8) (statusArea p code (Config.freeWord s.free) sect)).took
  completeAt p.q p.ticket code s1

end Sys2Proof.Machine
end

