-- ==== Sys2Proof/Machine/Reduction.lean ====
section
/-! DEFINITION. Gradient sketches and reduction (chapter 10). -/

namespace Sys2Proof.Machine

open Sys2Proof

/-! ### Steps and sketches -/

def findStep (s : State) (step : Nat) : Option RedStep := s.red.steps.find? fun t => t.step.toNat == step

/-- A step replaced. -/
def setStep (t : RedStep) (s : State) : State :=
  { s with red := { s.red with steps := s.red.steps.map fun x => if x.step = t.step then t else x } }

/-- A sketch replaced. -/
def setSketch (k : Sketch) (s : State) : State :=
  { s with red := { s.red with sketches := s.red.sketches.map fun x =>
      if x.step = k.step ∧ x.index = k.index then k else x } }

def sketchAt (s : State) (step : BitVec 32) (index : Nat) : Option Sketch :=
  s.red.sketches.find? fun k => k.step == step && k.index == index

/-- The sketches of a step, in the order of R307. -/
def stepSketches (s : State) (step : BitVec 32) : List Sketch := s.red.sketches.filter fun k => k.step == step

/-- The port die of a sketch. -/
def sketchDie (k : Sketch) : DieId := ⟨k.ent.die % 8, Nat.mod_lt _ (by omega)⟩

def sketchElems (k : Sketch) : Nat := k.ent.rows * k.ent.cols

/-- Whether RED_ERR can hold a code: one of R331, or MEMBER_REMOVED (R332). -/
def redCode (code : BitVec 16) : Bool :=
  [0x0701, 0x0702, 0x0711, 0x0712, 0x0713, 0x0715, 0x0716, 0x0717, 0x0718, 0x0804].contains code.toNat

/-- RED_ERR and RED_ERR_STEP, if VALID is clear and the code is one that they hold (R332). -/
def redErr (d : DieId) (code : BitVec 16) (step : BitVec 32) (s : State) : State :=
  if bitOf s.red.err.toNat 31 || !redCode code then s
  else { s with red := { s.red with
    err := BitVec.ofNat 32 (put 1 31 + put d.val 28 + code.toNat), errStep := step } }

/-- A sketch that is held and not DONE or ENDED. -/
def sketchHeld (k : Sketch) : Bool := k.st != .intake && k.st != .done && k.st != .ended

/-! ### Frames (R314, R369) -/

/-- The header of a reduction message about a sketch. -/
def redHeader (s : State) (t : RedStep) (k : Sketch) (ty flags level seq contrib status elements crc blocks : Nat) :
    BitVec 512 :=
  hdrOf [(0, 2, magicF8), (2, 1, 1), (3, 1, ty), (4, 1, flags), (5, 1, level), (6, 1, k.k), (7, 1, k.ent.mside.toNat),
    (8, 2, k.ent.layerId.toNat), (0xA, 2, t.epoch.toNat), (0xC, 4, t.step.toNat), (0x10, 4, seq), (0x14, 4, k.ent.chunks),
    (0x18, 2, t.table.group.toNat), (0x1A, 2, s.eng.cfg.engineId.toNat), (0x1C, 2, contrib), (0x1E, 2, status),
    (0x20, 4, elements), (0x24, 4, crc), (0x28, 2, blocks)]

/-- A VC3 frame from a port die, or from the next die that has a switch-facing port in service. -/
def sendVc3 (d : DieId) (route : DieId → Word) (bs : List Byte) (s : State) : State :=
  match dieFor s d.val with
  | none => s
  | some e => sendSwitch e ⟨4, route e, bs⟩ s

/-- ABORT_REQ for a whole step to CONTROL_SHARD (R324). A member that sends nothing more for the step sends none (R322). -/
def abortReq (d : DieId) (t : RedStep) (k : Option Sketch) (code : BitVec 16) (s : State) : State :=
  if t.muted then redErr d code t.step s else
  let z : Sketch := { index := 0, step := t.step, ent := ⟨0, 0, 0, 0, 0, 0, 0, 0, 0, 0, 0, 0⟩ }
  let h := redHeader s t (k.getD z) 6 (put 1 5) 0 0 0 code.toNat 0 0 0
  sendVc3 d (fun e => routeTo 1 e.val 15 t.table.control.toNat) (hdrBytes h) (redErr d code t.step s)

/-- The elements in chunk `seq` of a sketch. -/
def chunkElems (k : Sketch) (seq : Nat) : Nat := min 65536 (sketchElems k - 65536 * seq)

/-- Whether a chunk is sampled (R323). -/
def chunkSampled (k : Sketch) (seq : Nat) : Bool :=
  (crc32c (leBytes 4 k.step.toNat ++ leBytes 2 k.ent.layerId.toNat ++ leBytes 1 k.ent.mside.toNat ++ leBytes 1 0
    ++ leBytes 4 seq)).toNat % 64 == 0

def anySampled (k : Sketch) : Bool := (List.range k.ent.chunks).any (chunkSampled k)

/-! ### Encoding (R114, R312, R322) -/

/-- z × 2^x rounded to an integer, ties to even. -/
def roundInt (z x : Int) : Int :=
  if 0 ≤ x then z * 2 ^ x.toNat
  else
    let n := shiftRound false z.natAbs (-x).toNat
    if z < 0 then -(n : Int) else n

/-- A value saturated to ±127, and whether it was. -/
def sat127 (v : Int) : Int × Bool := (max (-127) (min 127 v), decide (v < -127) || decide (127 < v))

/-- An FP32 value encoded at exponent E; `none` for a NaN or an infinity. -/
def encodeElem (e : Int) (v : BitVec 32) : Option (Int × Bool) :=
  match Fmt.fp32.decode v.toNat with
  | .fin _ d => some (sat127 (roundInt d.z (d.e - e)))
  | _ => none

def finiteElem (v : BitVec 32) : Bool := (encodeElem 0 v).isSome

/-- One block of 32: the codes, whether one saturated, and whether the block was substituted. -/
def encodeBlock (e : Int) (vs : List (BitVec 32)) : List Int × Bool × Bool :=
  if vs.all finiteElem then
    let rs := vs.map fun v => (encodeElem e v).getD (0, false)
    (rs.map Prod.fst, rs.any Prod.snd, false)
  else (vs.map fun _ => 0, false, true)

/-- The level-0 contribution of a chunk, padded to whole blocks (R312, R313). -/
def encodeSeq (k : Sketch) (seq : Nat) (twin : Bool) : RedSum :=
  let n := chunkElems k seq
  let blocks := (n + 31) / 32
  let bs := (cut 32 blocks ((k.elems.drop (65536 * seq)).take n)).map (encodeBlock (k.ent.e0 + k.k))
  let vals := bs.flatMap (·.1)
  let sub := (bs.filter (·.2.2)).length
  ⟨k.k, 0, seq, twin, vals ++ List.replicate (32 * blocks - vals.length) 0, bs.any (·.2.1), decide (0 < sub), sub, 1⟩

/-- Values as bytes: one byte each, or four with WIDE. -/
def sumBytes (wide : Bool) (vs : List Int) : List Byte :=
  vs.flatMap fun v => if wide then leBytes 4 (v % 4294967296).toNat else leBytes 1 (v % 256).toNat

/-- A DATA message. -/
def dataFrame (s : State) (t : RedStep) (k : Sketch) (c : RedSum) (ring wide : Bool) : List Byte :=
  let pay := sumBytes wide c.vals
  let flags := b2n c.ovf + 2 * b2n c.nfs + 4 * b2n c.twin + 8 * b2n ring + 16 * b2n wide
  hdrBytes (redHeader s t k 1 flags c.level c.seq c.contrib 0 (chunkElems k c.seq) (crc32c pay).toNat c.blocks) ++ pay

/-- The plane of a chunk (R305, R323). -/
def planeOf (t : RedStep) (twin : Bool) : Nat := if twin then 1 - t.table.primary else t.table.primary

/-- A DATA message sent on the switch-facing ports of its plane, in rotation. -/
def sendData (t : RedStep) (k : Sketch) (c : RedSum) (kind dst : Nat) (ring wide : Bool) (s : State) : State :=
  let d := sketchDie k
  sendOn d (planePorts s d (planeOf t c.twin)) ⟨1, routeTo kind d.val 15 dst, dataFrame s t k c ring wide⟩ s

/-- The chunks of a sketch in rising SEQ, with the twin of each sampled one. -/
def contributions (k : Sketch) : List RedSum :=
  (List.range k.ent.chunks).flatMap fun q =>
    encodeSeq k q false :: if chunkSampled k q then [encodeSeq k q true] else []

/-- The counters of an encoding that is sent: substituted blocks, and twin copies (R332). -/
def countSent (k : Sketch) (cs : List RedSum) (s : State) : State :=
  let sub := cs.foldl (fun n c => if c.twin then n else n + c.blocks) 0
  let twins := (cs.filter (·.twin)).length
  setSketch { k with nfsBlocks := min 65535 sub }
    { s with red := { s.red with nfs := incW s.red.nfs sub, twin := incW s.red.twin twins } }

/-! ### The tree (R316) -/

/-- Every chunk sent at level 0 on the tree. -/
def sendTree (t : RedStep) (k : Sketch) (s : State) : State :=
  if t.muted then s
  else
    let cs := contributions k
    cs.foldl (fun s c => sendData t k c 1 k.ent.shard.toNat false false s) (countSent k cs s)

/-! ### The ring (R115, R319) -/

/-- The members of a level-1 set, in table order. -/
def chainOf (t : RedStep) (set : Nat) : List (BitVec 14) := (t.table.members.filter fun m => m.2 == set).map Prod.fst

/-- This engine's level-1 set. -/
def mySet (s : State) (t : RedStep) : Nat :=
  match t.table.members.find? fun m => m.1 == s.eng.cfg.engineId with | some m => m.2 | none => 0

/-- The last members of the sets, in set order. -/
def tailsOf (t : RedStep) : List (BitVec 14) :=
  ((t.table.members.map Prod.snd).eraseDups).filterMap fun k => (chainOf t k).getLast?

/-- The member after this one in a chain, if it is not the last. -/
def nextIn (me : BitVec 14) : List (BitVec 14) → Option (BitVec 14)
  | a :: b :: t => if a = me then some b else nextIn me (b :: t)
  | _ => none

/-- The output of a hop over exponents that differ by `d` (R115). -/
def hop (d : Int) (c : RedSum) : RedSum :=
  let rs := c.vals.map fun v => sat127 (roundInt v (-d))
  { c with level := c.level + 1, vals := rs.map Prod.fst, ovf := c.ovf || rs.any Prod.snd }

/-- Two contributions of one chunk added (R115, R319). -/
def addSums (a b : RedSum) : RedSum :=
  { a with vals := (a.vals.zip b.vals).map fun p => p.1 + p.2, ovf := a.ovf || b.ovf, nfs := a.nfs || b.nfs,
           blocks := a.blocks + b.blocks, contrib := a.contrib + b.contrib }

/-- The final level delivered to SHARD. -/
def deliverRing (t : RedStep) (k : Sketch) (c : RedSum) (s : State) : State :=
  sendData t k c 1 k.ent.shard.toNat true false s

/-- A level-2 sum that holds this tail's own level-1 output: sent on, or finished by the last tail. -/
def ringLevel2 (t : RedStep) (k : Sketch) (c : RedSum) (s : State) : State :=
  match nextIn s.eng.cfg.engineId (tailsOf t) with
  | some nxt => sendData t k c 0 nxt.toNat true (c.contrib != (chainOf t (mySet s t)).length) s
  | none => deliverRing t k (hop (k.ent.e2 - k.ent.e1) c) s

/-- A level-1 output formed here by the last member of a set: delivered, or put into level 2. -/
def ringOutput (t : RedStep) (k : Sketch) (c : RedSum) (s : State) : State :=
  if t.table.levels ≠ 2 then deliverRing t k c s
  else if (tailsOf t).head? = some s.eng.cfg.engineId then ringLevel2 t k c s
  else
    let same (e : RedSum) : Bool := e.level == 1 && e.seq == c.seq && e.twin == c.twin && e.k == c.k
    match takeFirst same k.early with
    | some (e, rest) => ringLevel2 t k (addSums e c) (setSketch { k with early := rest } s)
    | none => setSketch { k with lvl1 := k.lvl1 ++ [c] } s

/-- A level-1 sum that holds this member's own codes: sent on, or rounded by the last member of the set. -/
def ringLevel1 (t : RedStep) (k : Sketch) (c : RedSum) (s : State) : State :=
  match nextIn s.eng.cfg.engineId (chainOf t (mySet s t)) with
  | some nxt => sendData t k c 0 nxt.toNat true (c.contrib != 1) s
  | none => ringOutput t k (hop (k.ent.e1 - k.ent.e0) c) s

/-- The sketch as it stands now. -/
def refresh (s : State) (k : Sketch) : Sketch := (sketchAt s k.step k.index).getD k

/-- A partial sum that has arrived for a sketch on the ring (R319). -/
def ringTake (t : RedStep) (k : Sketch) (c : RedSum) (s : State) : State :=
  if c.level = 0 then ringLevel1 t k (addSums c (encodeSeq k c.seq c.twin)) s
  else
    let same (e : RedSum) : Bool := e.seq == c.seq && e.twin == c.twin && e.k == c.k
    match takeFirst same k.lvl1 with
    | some (own, rest) => ringLevel2 t k (addSums c own) (setSketch { k with lvl1 := rest } s)
    | none => setSketch { k with early := k.early ++ [c] } s

/-- A sketch set going on the ring at its scale index: the first member of a set sends its chunks; what has arrived early
is taken. -/
def startRing (t : RedStep) (k : Sketch) (s : State) : State :=
  if t.muted then s
  else
    let cs := contributions k
    let early := k.early.filter fun c => c.k == k.k
    let k1 : Sketch := { k with early := k.early.filter fun c => c.k != k.k, lvl1 := [] }
    let s1 := countSent k1 cs (setSketch k1 s)
    let s2 := if (chainOf t (mySet s t)).head? = some s.eng.cfg.engineId
      then cs.foldl (fun s c => ringLevel1 t (refresh s k1) c s) s1 else s1
    early.foldl (fun s c => ringTake t (refresh s k1) c s) s2

/-! ### Commit, claims and refusals (R312, R316 to R318) -/

/-- Whether GRANT has arrived on every plane claimed. -/
def sketchGranted (k : Sketch) : Bool := k.claimed != 0 && (k.granted &&& k.claimed) == k.claimed

/-- The sketches of a port die that are granted are sent, in the order of R307: one that still waits for a GRANT holds back the later
ones (R316). -/
def sendGranted (t : RedStep) (d : DieId) (s : State) : State :=
  let waiting := (stepSketches s t.step).filter fun k => sketchDie k == d && k.st == .claim && !k.asked
  (waiting.takeWhile sketchGranted).foldl (fun s k => sendTree t { k with st := .tree } (setSketch { k with st := .tree } s)) s

/-- A sketch moves to the ring, or asks for the step's end in a large group (R317). -/
def refuseSketch (t : RedStep) (k : Sketch) (s : State) : State :=
  if 64 < t.table.members.length then
    sendGranted t (sketchDie k) (abortReq (sketchDie k) t (some k) 0x0713 (setSketch { k with st := .claim, asked := true } s))
  else
    let k1 : Sketch := { k with st := .ring, refused := true, path := 1 }
    sendGranted t (sketchDie k) (startRing t k1 (setSketch k1 { s with red := { s.red with refused := incW s.red.refused } }))

/-- The ports of a plane that count for claims: those with REDUCE (R373). -/
def claimPorts (s : State) (d : DieId) (plane : Nat) : List PortId :=
  (planePorts s d plane).filter fun p => (s.ports[p.val]).link.features.getLsbD 1

/-- REFUSE broadcast to the group by this engine (R318). -/
def sendRefuse (t : RedStep) (k : Sketch) (s : State) : State :=
  let h := redHeader s t k 4 0 0 0 0 0x0713 0 0 0
  sendVc3 (sketchDie k) (fun e => routeGroup e.val 15 t.table.group.toNat) (hdrBytes h) s

/-- CLAIM on a plane, to the leaf switch of the port (R316). -/
def sendClaim (t : RedStep) (k : Sketch) (plane : Nat) (s : State) : State :=
  let d := sketchDie k
  let ps := claimPorts s d plane
  let leaf := match ps.head? with | some p => (s.ports[p.val]).link.peerId.toNat | none => 0
  let flags := if plane = t.table.primary then 0 else 4
  let h := redHeader s t k 2 flags 0 0 1 0 (chunkElems k 0) 0 0
  sendOn d ps ⟨1, routeTo 1 d.val 15 leaf, hdrBytes h⟩ s

/-- A sketch whose layer pass has committed is encoded and claimed (R312, R316). -/
def claimSketch (t : RedStep) (k : Sketch) (s : State) : State :=
  let k1 : Sketch := { k with st := .claim, sampled := anySampled k }
  let s1 := setSketch k1 s
  if t.muted ∨ t.outcome.isSome then s1
  else if t.policy = 0 ∧ !(k.elems.all finiteElem) then
    abortReq (sketchDie k) t (some k) 0x0712 (setStep { t with muted := true } s1)
  else if k.refused then refuseSketch t k1 s1
  else
    let planes := t.table.primary :: if k1.sampled then [1 - t.table.primary] else []
    if planes.any fun p => (claimPorts s (sketchDie k) p).isEmpty then refuseSketch t k1 (sendRefuse t k1 s1)
    else
      let mask : BitVec 2 := BitVec.ofNat 2 ((planes.map fun p => 2 ^ p).foldl (· + ·) 0)
      planes.foldl (fun s p => sendClaim t k1 p s) (setSketch { k1 with claimed := mask, path := 0 } s1)

/-- The sketches of a backward layer pass that commits become held copies (R311). -/
def sketchCommit (lp : LayerPass) (s : State) : State :=
  match s.eng.pass with
  | none => s
  | some p =>
    if lp.kind ≠ .work ∨ !passBackward p then s
    else
      let ks := (s.red.sketches.filter fun k => k.step.toNat == passStep p && k.ent.entry == lp.entry && k.st == .intake)
      ks.foldl (fun s k =>
        let x := s.dies[(sketchDie k).val]
        let word (e : Nat) : BitVec 32 :=
          BitVec.ofNat 32 (leNat ((List.range 4).map fun i => (cellGet x.intake (k.ent.intakeOff + 4 * e + i)).getD 0))
        let elems := (List.range (sketchElems k)).map word
        match findStep s k.step.toNat with
        | some t => claimSketch t { k with elems := elems } s
        | none => s) s

/-! ### Intake (R310, R311) -/

/-- The intake ranges of the sketches of a layer entry on a port die. -/
def sketchRanges (s : State) (entry : Nat) (d : DieId) : List IntakeRange :=
  match s.eng.pass with
  | none => []
  | some p => (s.red.sketches.filter fun k => k.step.toNat == passStep p && passBackward p && k.ent.entry == entry
      && sketchDie k == d).map fun k => ⟨k.ent.intakeOff, 4 * sketchElems k, some k.index, 0, 0⟩

/-- MiB of committed sketches that a port die holds. -/
def heldBytes (s : State) (d : DieId) : Nat :=
  (s.red.sketches.filter fun k => sketchHeld k && sketchDie k == d).foldl (fun n k => n + 4 * sketchElems k) 0

/-- Whether every port die has room for the intake of a layer entry (R311). -/
def intakeRoom (s : State) (entry : Nat) : Bool :=
  (List.finRange 8).all fun d =>
    decide (heldBytes s d + (sketchRanges s entry d).foldl (fun n r => n + r.len) 0 ≤ 64 * mib)

/-- RED_INTAKE raised at a port die (R310). -/
def redIntakeFault (d : DieId) (s : State) : State :=
  let step : BitVec 32 := match s.eng.pass with | some p => BitVec.ofNat 32 (passStep p) | none => 0
  dieAbort d 0x0701 (redErr d 0x0701 step s)

/-- A message of window 3 written into the intake. -/
def intakePut (d : DieId) (m : MeshMsg) (s : State) : State :=
  let x := s.dies[d.val]
  let off := hdrOffset m.hdr
  let pay := meshBytes m
  let fits (r : IntakeRange) : Bool := decide (r.lo ≤ off) && decide (off + pay.length ≤ r.lo + r.len)
  if x.ranges.any fits then
    s.setDie d { x with
      intake := cellSplice x.intake off (off + pay.length) (cellsOf off pay),
      ranges := x.ranges.map fun r => if fits r then { r with got := r.got + pay.length } else r }
  else redIntakeFault d s

/-- Whether every sketch of a port die has received what it should (R310). -/
def intakeExact (x : Die) : Bool := x.ranges.all fun r => r.sketch.isNone || r.got == r.len

/-! ### Outcomes (R324 to R326, R329) -/

/-- The reduction section of a step. -/
def stepSection (s : State) (t : RedStep) (p : Pass) (code : BitVec 16) : List Byte :=
  redSection t.step.toNat t.epoch.toNat t.table.group.toNat code.toNat t.decider.toNat p.resets (stepSketches s t.step)

/-- A step that is decided and whose pass has ended completes its RUN_PASS and is let go (R325). -/
def finishStep (step : BitVec 32) (s : State) : State :=
  match findStep s step.toNat with
  | none => s
  | some t => match t.outcome, t.done with
    | some code, some (p, passCode) =>
      let final := if code = 0 then passCode else code
      let sect := stepSection s t p code
      let s1 := { s with red := { s.red with
        steps := s.red.steps.filter fun x => x.step != t.step,
        sketches := s.red.sketches.filter fun k => k.step != t.step } }
      completeRun p final sect s1
    | _, _ => s

/-- The step's reduction ends OK once every sketch has its result: a decision that stands, whatever comes later (R324). Its RUN_PASS
completes once the pass has ended too. -/
def checkStep (step : BitVec 32) (s : State) : State :=
  match findStep s step.toNat with
  | none => s
  | some t =>
    if t.outcome.isNone ∧ (stepSketches s t.step).all (fun k => k.st == .done) then
      finishStep step (setStep { t with outcome := some 0 } s)
    else finishStep step s

/-- A step ends with a code: what is not DONE is ENDED (R325). While its pass runs, the shuttles raise an abort. -/
def endStep (t : RedStep) (code decider : BitVec 16) (s : State) : State :=
  if t.outcome.isSome then s
  else
    let endOne (k : Sketch) : Sketch :=
      if k.step = t.step ∧ k.st ≠ .done then
        { k with st := .ended, status := code, path := 2, elems := [], early := [], lvl1 := [] } else k
    let s1 := setStep { t with outcome := some code, decider := decider }
      { s with red := { s.red with sketches := s.red.sketches.map endOne } }
    match t.done with
    | some _ => finishStep t.step s1
    | none => abortFrom (.shuttle 0) code .none (endPassBy code s1)

/-- A step-wide RESULT OK answers an ABORT_REQ that came after the step had been decided: the member adopts that decision (R324). -/
def adoptOk (t : RedStep) (decider : BitVec 16) (s : State) : State :=
  if t.outcome.isSome then s
  else
    let endOne (k : Sketch) : Sketch :=
      if k.step = t.step then { k with st := .done, elems := [], early := [], lvl1 := [] } else k
    finishStep t.step (setStep { t with outcome := some 0, decider := decider }
      { s with red := { s.red with sketches := s.red.sketches.map endOne } })

/-! ### Messages (R315) -/

/-- The checks of MAGIC, VERSION, TYPE, reserved fields and PAYLOAD_CRC. -/
def f8Ok (h : BitVec 512) (ty : Nat) (pay : List Byte) : Bool :=
  hf h 0 2 == magicF8 && hf h 2 1 == 1 && hf h 3 1 == ty && bits (hf h 4 1) 7 6 == 0 && bits (hf h 6 1) 7 2 == 0
    && hf h 0x2B 21 == 0 && hf h 0x24 4 == (if pay.isEmpty then 0 else (crc32c pay).toNat)

/-- The step and sketch that a message names, if this port die holds them. -/
def f8Sketch (s : State) (d : DieId) (h : BitVec 512) : Option (RedStep × Sketch) :=
  match findStep s (hf h 0xC 4) with
  | none => none
  | some t =>
    if t.table.group.toNat ≠ hf h 0x18 2 then none
    else ((stepSketches s t.step).find? fun k => k.ent.layerId.toNat == hf h 8 2 && k.ent.mside.toNat == hf h 7 1
      && sketchDie k == d).map fun k => (t, k)

/-- A message taken from the inbox, its sender heard from. -/
def f8Take (d : DieId) (h : BitVec 512) (pay : List Byte) (s : State) : State :=
  let s1 := takeFrame d (hdrBytes h ++ pay) s
  let src := hf h 0x1A 2
  if src < 0x8000 then heardFrom (src % 16384) s1 else s1

/-- A message that fails the checks: one that was due leads to ABORT_REQ with RED_FRAME. -/
def f8Bad (d : DieId) (h : BitVec 512) (s : State) : State :=
  match findStep s (hf h 0xC 4) with
  | some t => if t.outcome.isNone then abortReq d t none 0x0702 s else s
  | none => s

def f8Stale (s : State) : State := { s with red := { s.red with stale := incW s.red.stale } }

/-- INTAKE_MESSAGE: a window-3 message into the intake; another window than 1, 2 or 3 is an error (R310). -/
def takeIntake (d : DieId) (m : MeshMsg) (s : State) : State :=
  let win := hdrWin m.hdr
  match s.eng.lp with
  | none => s
  | some lp =>
    if !lp.started ∨ hdrLpass m.hdr ≠ lp.number.toNat ∨ win = 1 ∨ win = 2 then s
    else if win = 3 then intakePut d m s
    else redIntakeFault d s

/-- GRANT on a plane (R316). -/
def execGrant (d : DieId) (plane : Fin 2) (h : BitVec 512) (s : State) : Res :=
  let s0 := f8Take d h [] s
  if !f8Ok h 3 [] then .next (f8Bad d h s0)
  else match f8Sketch s0 d h with
    | none => .next (f8Stale s0)
    | some (t, k) =>
      if k.st ≠ .claim ∨ k.asked ∨ t.outcome.isSome then .next s0
      else
        let k1 : Sketch := { k with granted := k.granted ||| (1#2 <<< plane.val) }
        .next (sendGranted t (sketchDie k) (setSketch k1 s0))

/-- REFUSE (R317). A sketch whose layer pass has not committed takes the ring once it has. -/
def execRefuse (d : DieId) (h : BitVec 512) (s : State) : Res :=
  let s0 := f8Take d h [] s
  if !f8Ok h 4 [] then .next (f8Bad d h s0)
  else match f8Sketch s0 d h with
    | none => .next (f8Stale s0)
    | some (t, k) =>
      if t.outcome.isSome then .next s0
      else if k.st = .intake then .next (setSketch { k with refused := true } s0)
      else if k.st = .claim ∨ k.st = .tree then .next (refuseSketch t k s0)
      else .next s0

/-- The values of a DATA payload; the code 0x80 decodes as −127 and sets OVF (R115). -/
def dataVals (wide : Bool) (pay : List Byte) : List Int × Bool :=
  if wide then ((cut 4 (pay.length / 4) pay).map fun b => signedOf 32 (leNat b), false)
  else (pay.map fun b => if b = 0x80 then -127 else b.toInt, pay.contains 0x80)

/-- The partial sum that a DATA message brings. -/
def sumOf (h : BitVec 512) (pay : List Byte) : RedSum :=
  let fl := hf h 4 1
  let v := dataVals (bitOf fl 4) pay
  ⟨bits (hf h 6 1) 1 0, hf h 5 1, hf h 0x10 4, bitOf fl 2, v.1, bitOf fl 0 || v.2, bitOf fl 1, hf h 0x28 2, hf h 0x1C 2⟩

/-- RED_DATA: a member of the ring adds its codes and sends the sum on (R319). -/
def execRedData (d : DieId) (m : Msg) (s : State) : Res :=
  let h := m.hdr
  let s0 := f8Take d h m.payload s
  if !f8Ok h 1 m.payload then .next (f8Bad d h s0)
  else match f8Sketch s0 d h with
    | none => .next (f8Stale s0)
    | some (t, k) =>
      if hf h 0xA 2 ≠ t.epoch.toNat then .next (abortReq d t (some k) 0x0716 s0)
      else if t.outcome.isSome ∨ t.muted ∨ k.st = .done ∨ k.st = .ended then .next s0
      else
        let c := sumOf h m.payload
        if k.st = .ring ∧ c.k = k.k then .next (ringTake t k c s0)
        else if k.st ≠ .ring ∨ k.k < c.k then .next (setSketch { k with early := k.early ++ [c] } s0)
        else .next s0

/-- A sketch's RESULT RETRY at a scale index: encoded again at it and sent on the same path (R321). A duplicate, whose scale index is no
later one, changes nothing (R383). -/
def retrySketch (t : RedStep) (k : Sketch) (scale : Nat) (s : State) : State :=
  if scale ≤ k.k then s else
  let k1 : Sketch := { k with k := scale, retries := k.retries + 1, asked := false }
  let s1 := setSketch k1 { s with red := { s.red with retries := incW s.red.retries } }
  if k.st = .ring then startRing t k1 s1 else sendTree t k1 s1

/-- RESULT (R324). -/
def execResult (d : DieId) (h : BitVec 512) (s : State) : Res :=
  let s0 := f8Take d h [] s
  let code := BitVec.ofNat 16 (hf h 0x1E 2)
  let src := BitVec.ofNat 16 (hf h 0x1A 2 % 32768)
  if !f8Ok h 5 [] then .next (f8Bad d h s0)
  else if bitOf (hf h 4 1) 5 then
    match findStep s0 (hf h 0xC 4) with
    | none => .next (f8Stale s0)
    | some t =>
      if t.table.group.toNat ≠ hf h 0x18 2 then .next (f8Stale s0)
      else if hf h 0x2A 1 = 2 ∨ hf h 0x2A 1 = 3 then .next (endStep t code src (redErr d code t.step s0))
      else if hf h 0x2A 1 = 0 then .next (adoptOk t src s0)
      else .next s0
  else match f8Sketch s0 d h with
    | none => .next (f8Stale s0)
    | some (t, k) =>
      if t.outcome.isSome ∨ (k.st ≠ .tree ∧ k.st ≠ .ring) then .next s0
      else if hf h 0x2A 1 = 0 then
        let k1 : Sketch := { k with st := .done, elems := [], early := [], lvl1 := [], nfsSeen := bitOf (hf h 4 1) 1 }
        .next (checkStep t.step (setStep { t with decider := src } (setSketch k1 s0)))
      else if hf h 0x2A 1 = 1 then .next (retrySketch t k (bits (hf h 6 1) 1 0) s0)
      else .next s0

/-- RED_TIMEOUT: a sketch without an outcome asks CONTROL_SHARD to end the step (R326). -/
def execRedTimeout (sk : Nat) (s : State) : Res :=
  match s.red.sketches.find? fun k => k.index == sk && (k.st == .tree || k.st == .ring) && !k.asked with
  | none => .next s
  | some k => match findStep s k.step.toNat with
    | none => .next s
    | some t => .next (abortReq (sketchDie k) t (some k) 0x0717 (setSketch { k with asked := true } s))

/-- RED_SHARD_LOST: no decision follows, and the member ends the step on its own (R326). -/
def execRedShardLost (s : State) : Res :=
  match s.red.sketches.find? fun k => k.asked && sketchHeld k with
  | none => .next s
  | some k => match findStep s k.step.toNat with
    | none => .next s
    | some t => .next (endStep t 0x0718 0xFFFF (redErr (sketchDie k) 0x0718 t.step s))

/-- A step admitted with its backward pass (R311, R324). -/
def admitStep (p : Pass) (s : State) : State :=
  match (epochOf s p.epoch).bind fun e => e.man.scale with
  | none => s
  | some table =>
    let step := BitVec.ofNat 32 (passStep p)
    let ks := ((List.range table.sketches.length).zip table.sketches).map fun x =>
      ({ index := x.1, ent := x.2, step := step } : Sketch)
    { s with red := { s.red with
      steps := (s.red.steps.filter fun t => t.step != step)
        ++ [{ step := step, epoch := p.epoch, table := table, policy := s.eng.cfg.nonfinitePolicy }],
      sketches := (s.red.sketches.filter fun k => k.step != step) ++ ks } }

/-- The end of a backward pass: its step waits for its outcome, or, after an error, asks that every member end (R414). -/
def passEndsStep (p : Pass) (code : BitVec 16) (s : State) : State :=
  match findStep s (passStep p) with
  | none => completeRun p code [] s
  | some t =>
    let t1 : RedStep := { t with done := some (p, code) }
    let s1 := setStep t1 s
    if code = 0 ∨ t.outcome.isSome then checkStep t.step s1
    else abortReq ⟨0, by omega⟩ t1 none code s1

/-- The section of a forward TRAINING pass (R329). -/
def forwardSection (s : State) (p : Pass) : List Byte :=
  let group := match (epochOf s p.epoch).bind fun e => e.man.scale with | some t => t.group.toNat | none => 0
  redSection (passStep p) p.epoch.toNat group 0 0xFFFF p.resets []

end Sys2Proof.Machine
end

