-- ==== Sys2Proof/Machine/CollData.lean ====
section
/-! DEFINITION. How the chunks of a collective move (R336, R340, R341, R343 to R349), and the frames of R350. -/

namespace Sys2Proof.Machine

open Sys2Proof

/-! ### Operations -/

/-- An operation of an instance, by its operands (R335): a queue descriptor's own, or a binding's. `kind` is 0 BARRIER,
1 BROADCAST, 2 ALL_GATHER, 3 REDUCE_SCATTER; `die` is a binding's port die. -/
structure CollOp where
  tag : BitVec 32
  kind : Nat
  setSize : Nat
  bf16 : Bool
  root : Nat
  block : Nat
  chunk : Nat
  die : Option DieId
  desc : BitVec 1024

/-- The operation of a descriptor. -/
def collOp (bound : Bool) (d : BitVec 1024) : CollOp :=
  let c := dField d 0x3C 4
  { tag := BitVec.ofNat 32 (dField d 0x24 4), kind := if bound then dField d 0x5E 1 else dField d 0x20 1,
    setSize := dField d 0x23 1, bf16 := dField d 0x22 1 == 0, root := dField d 0x2C 2, block := dField d 0x38 4,
    chunk := if c = 0 then 262144 else c,
    die := if bound then some ⟨dField d 0x52 1 % 8, Nat.mod_lt _ (by omega)⟩ else none, desc := d }

def Inst.bound (k : Inst) : Bool := match k.id with | .queue _ => false | .bound _ _ _ => true

/-- The operations of an instance. -/
def Inst.ops (k : Inst) : List CollOp :=
  if k.bound then k.binds.map fun b => collOp true b.desc else [collOp false k.desc]

def Inst.n (k : Inst) : Nat := k.members.length

/-- TIMEOUT_US is 50,000 when the operand is 0 (R335). The timer itself is the environment's. -/
def Inst.undecided (k : Inst) : Bool := k.started && (k.st == .opened || k.st == .prepared || k.st == .aborted)

/-- The bytes of results that an operation gives this member (R336, R341). -/
def CollOp.resultBytes (o : CollOp) (n : Nat) : Nat :=
  match o.kind with | 0 => 0 | 2 => n * o.block | _ => o.block

/-- The blocks that member `me` contributes. -/
def CollOp.ownBlocks (o : CollOp) (n me : Nat) : Nat :=
  match o.kind with | 1 => if me = o.root then 1 else 0 | 2 => 1 | 3 => n | _ => 0

/-- The offsets of the chunks of a block (R344). -/
def CollOp.offsets (o : CollOp) : List Nat := (List.range ((o.block + o.chunk - 1) / o.chunk)).map fun i => i * o.chunk

/-- The block under which a member's own chunk travels: its own index in an ALL_GATHER. -/
def CollOp.ownBlock (o : CollOp) (me b : Nat) : Nat := if o.kind = 2 then me else b

/-- The bytes of the chunk at an offset. -/
def CollOp.chunkLen (o : CollOp) (off : Nat) : Nat := min o.chunk (o.block - off)

/-- The chunks of a block. -/
def CollOp.perBlock (o : CollOp) : Nat := (o.block + o.chunk - 1) / o.chunk

/-- The port die that carries the chunk at an offset of a block of a buffer: that of its number in the buffer (R343), or the die of the
binding (R341). -/
def CollOp.dieAt (o : CollOp) (block off : Nat) : DieId :=
  o.die.getD ⟨(block * o.perBlock + off / o.chunk) % 8, Nat.mod_lt _ (by omega)⟩

/-- The chunks of a member's contribution, by block of its buffer and offset, in their order. -/
def CollOp.own (o : CollOp) (n me : Nat) : List (Nat × Nat) :=
  (List.range (o.ownBlocks n me)).flatMap fun b => o.offsets.map fun off => (b, off)

/-! ### Paths (R345 to R348) -/

/-- The positions to which a broadcast goes on from position `p`. -/
def castNext (n s p : Nat) : List Nat :=
  if s = 0 then (if p + 1 < n then [p + 1] else [])
  else (if p % s = 0 ∧ p + s < n then [p + s] else []) ++ (if p + 1 < n ∧ (p + 1) % s ≠ 0 then [p + 1] else [])

/-- The members to which member `me` passes on block `b` of an ALL_GATHER. -/
def gatherNext (n s me b : Nat) : List Nat :=
  if s = 0 then (if b = (me + 1) % n then [] else [(me + 1) % n])
  else
    let q := me % s
    let k := me / s
    let sets := n / s
    let inSet := k * s + (q + 1) % s
    (if b / s = k ∧ b ≠ inSet then [inSet] else [])
      ++ (if b / s = (k + 1) % sets then [] else [(k + 1) % sets * s + q])

/-- One FP32 addition of R348. -/
def sumFp32 (a b : Nat) : Nat := (Fmt.fp32.ofFp false (fpAdd (Fmt.fp32.decode a) (Fmt.fp32.decode b)).1).1

/-- The elements of a contribution, widened to FP32. -/
def widenElems (bf16 : Bool) (bs : List Byte) : List Nat :=
  if bf16 then (cut 2 (bs.length / 2) bs).map fun x => (Fmt.fp32.ofFp false (Fmt.bf16.decode (leNat x))).1
  else (cut 4 (bs.length / 4) bs).map leNat

/-- FP32 words as bytes. -/
def wordBytes (ws : List Nat) : List Byte := ws.flatMap (leBytes 4)

/-- A sum converted to ELEM, rounded once to nearest even. -/
def narrowElems (bf16 : Bool) (ws : List Nat) : List Byte :=
  if bf16 then ws.flatMap fun w => leBytes 2 (Fmt.bf16.ofFp false (Fmt.fp32.decode w)).1 else wordBytes ws

/-- What a member holds of a block and offset from a source. -/
def heldFrom (held : List CollChunk) (tag : BitVec 32) (src : Option Nat) (block off : Nat) : Option CollChunk :=
  held.find? fun c => c.tag == tag && c.src == src && c.block == block && c.off == off

/-- Two sums added element by element; the contributions add. -/
def addParts (a b : List Nat × Nat) : List Nat × Nat := ((a.1.zip b.1).map fun x => sumFp32 x.1 x.2, a.2 + b.2)

def sumWords (c : CollChunk) : List Nat × Nat := (widenElems false c.data, c.contrib)

/-- What member `me` sends or keeps for a chunk of a REDUCE_SCATTER once it holds what it needs: the member it goes to, the sum,
and whether it is the result. -/
def reduceStep (o : CollOp) (n me : Nat) (held : List CollChunk) (b off : Nat) : Option (Nat × List Nat × Nat × Bool) :=
  let s := if o.setSize = 0 then n else o.setSize
  let q := me % s
  match heldFrom held o.tag none b off with
  | none => none
  | some own =>
    let mine := (widenElems o.bf16 own.data, 1)
    let setSum : Option (List Nat × Nat) :=
      if q = 0 then some mine else (heldFrom held o.tag (some (me - 1)) b off).map fun c => addParts (sumWords c) mine
    match setSum with
    | none => none
    | some x =>
      if q + 1 < s then some (me + 1, x.1, x.2, false)
      else
        let total : Option (List Nat × Nat) :=
          if me < s then some x else (heldFrom held o.tag (some (me - s)) b off).map fun c => addParts (sumWords c) x
        total.map fun t => if me + 1 = n then (b, t.1, t.2, true) else (me + s, t.1, t.2, false)

/-! ### Order (R344, R348) -/

/-- The offsets of a block whose chunks a member has passed on, in increasing order: those before the first that it does not hold. -/
def CollOp.passed (o : CollOp) (held : List CollChunk) (b : Nat) : List Nat :=
  o.offsets.takeWhile fun off => held.any fun c => c.tag == o.tag && c.block == b && c.off == off

/-- The offsets of its block that a chunk lets pass. -/
def CollOp.freed (o : CollOp) (held : List CollChunk) (c : CollChunk) : List Nat :=
  (o.passed (held ++ [c]) c.block).drop (o.passed held c.block).length

/-- The blocks and offsets of a REDUCE_SCATTER that member `me` has reduced: blocks in increasing order, and the chunks of a block in
increasing order. -/
def CollOp.reduced (o : CollOp) (n me : Nat) (held : List CollChunk) : List (Nat × Nat) :=
  ((List.range n).flatMap fun b => o.offsets.map fun off => (b, off)).takeWhile fun x =>
    (reduceStep o n me held x.1 x.2).isSome

/-! ### Frames (R350) -/

/-- The header of a frame of an instance. -/
def collHeader (s : State) (k : Inst) (ty flags cls tag dst block off len crc status contrib value : Nat) : BitVec 512 :=
  let ids : Nat × Nat × Nat := match k.id with
    | .queue _ => (k.attempt, 0, 0xFFFF)
    | .bound p e a => (a % 256, p.toNat, e.toNat)
  hdrOf [(0, 2, magicCl), (2, 1, 1), (3, 1, ty), (4, 1, flags + 2 * b2n k.bound), (5, 1, cls), (6, 1, ids.1), (8, 4, tag),
    (0xC, 4, ids.2.1), (0x10, 2, ids.2.2), (0x12, 2, k.epoch.toNat), (0x14, 2, s.eng.cfg.engineId.toNat), (0x16, 2, dst),
    (0x18, 2, k.me), (0x1A, 2, block), (0x1C, 4, off), (0x20, 4, len), (0x24, 4, crc), (0x28, 2, status),
    (0x2A, 2, contrib), (0x2C, 4, value)]

/-- A DATA frame to a member, from the port die `d` of its chunk here to the die `e` of its chunk there (R369). -/
def sendColl (k : Inst) (o : CollOp) (d e : DieId) (dst : Nat) (c : CollChunk) (s : State) : State :=
  let id := (k.members.getD dst 0).toNat
  let h := collHeader s k 1 (b2n c.wide + 4 * b2n k.esc) 0 o.tag.toNat id c.block c.off c.data.length
    (crc32c c.data).toNat 0 c.contrib 0
  sendSwitch d ⟨if k.esc then 3 else 2, routeTo 0 d.val e.val id, hdrBytes h ++ c.data⟩ s

/-! ### Instances -/

def instAt (s : State) (id : CollId) : Option Inst := s.coll.insts.find? fun k => k.id == id

/-- An instance put in, in place of the one of its identity. -/
def putInst (k : Inst) (s : State) : State :=
  let rest := s.coll.insts.filter fun x => x.id != k.id
  { s with coll := { s.coll with insts := rest ++ [k] } }

/-- A result reaches this member: a bound one is injected on INJ_FLOW (R341), and one of a queue waits for a slice (R343). -/
def takeResult (k : Inst) (o : CollOp) (block off : Nat) (data : List Byte) (s : State) : State :=
  match instAt s k.id with
  | none => s
  | some x =>
    if !k.bound then
      putInst { x with results := x.results ++ [⟨o.tag, none, block, off, 0, false, data⟩] } s
    else
      let g := dField o.desc
      let s1 := putInst { x with resDone := x.resDone + data.length } s
      match flowIndex s1 (g 0x58 2) with
      | none => s1
      | some f =>
        injectMessage (o.dieAt block off) f none (g 0x53 1 % 8) (g 0x5A 2 != 0 || g 0x5C 2 != 0)
          (g 0x60 4 + block * o.block + off) data (g 0x5A 2) (g 0x5C 2) s1

/-- A chunk of a BROADCAST or ALL_GATHER passed on: sent to the members after this one, and a result here (R346, R347). -/
def passChunk (k : Inst) (o : CollOp) (c : CollChunk) (s : State) : State :=
  let n := k.n
  if o.kind = 1 then
    let p := (k.me + n - o.root % n) % n
    let d := o.dieAt 0 c.off
    takeResult k o 0 c.off c.data
      ((castNext n o.setSize p).foldl (fun s p' => sendColl k o d d ((p' + o.root) % n) c s) s)
  else
    let d := o.dieAt (if c.src.isNone then 0 else c.block) c.off
    let c1 := { c with contrib := 1 }
    takeResult k o c.block c.off c.data
      ((gatherNext n o.setSize k.me c.block).foldl (fun s m => sendColl k o d (o.dieAt c.block c.off) m c1 s) s)

/-- A chunk of a REDUCE_SCATTER reduced: the partial sum goes on, or the result to its member (R348). -/
def passSum (k : Inst) (o : CollOp) (b off : Nat) (s : State) : State :=
  match reduceStep o k.n k.me k.held b off with
  | none => s
  | some (dst, ws, contrib, final) =>
    let d := o.dieAt b off
    if final then
      let data := narrowElems o.bf16 ws
      if dst = k.me then takeResult k o 0 off data s
      else sendColl k o d (o.dieAt 0 off) dst ⟨o.tag, none, b, off, contrib, false, data⟩ s
    else sendColl k o d d dst ⟨o.tag, none, b, off, contrib, true, wordBytes ws⟩ s

/-- A chunk that this member now holds: what it lets this member send on and keep, in the order of R344 and R348. A second copy changes
nothing. -/
def takeChunk (id : CollId) (c : CollChunk) (s : State) : State :=
  match instAt s id with
  | none => s
  | some k =>
    match k.ops.find? fun o => o.tag == c.tag with
    | none => s
    | some o =>
      if k.held.any (fun x => x.tag == c.tag && x.src == c.src && x.block == c.block && x.off == c.off && x.wide == c.wide)
      then s
      else
        let k1 := { k with held := k.held ++ [c] }
        let s1 := putInst k1 s
        if o.kind = 3 then
          if c.src.isSome && !c.wide then takeResult k1 o 0 c.off c.data s1
          else
            ((o.reduced k.n k.me k1.held).drop (o.reduced k.n k.me k.held).length).foldl
              (fun s x => passSum k1 o x.1 x.2 s) s1
        else if o.kind = 0 then s1
        else
          (o.freed k.held c).foldl (fun s off =>
            match k1.held.find? fun x => x.tag == o.tag && x.block == c.block && x.off == off with
            | some x => passChunk k1 o x s
            | none => s) s1

/-- A chunk of this member's own contribution, by block of its buffer. -/
def takeOwn (id : CollId) (o : CollOp) (me b off : Nat) (data : List Byte) (s : State) : State :=
  takeChunk id ⟨o.tag, none, o.ownBlock me b, off, 1, false, data⟩ s

/-! ### Bound contributions (R340, R341) -/

/-- The size of a binding's intake. -/
def bindIntake (n me : Nat) (d : BitVec 1024) : Nat :=
  let o := collOp true d
  o.ownBlocks n me * o.block

/-- The intake ranges of the bindings of the instance that runs, on a port die. -/
def bindRanges (k : Inst) (d : DieId) : List IntakeRange :=
  (k.binds.filter fun b => dField b.desc 0x52 1 == d.val).map fun b =>
    ⟨dField b.desc 0x54 4, bindIntake k.n k.me b.desc, none, b.tag, 0⟩

/-- The bytes of the intake from an address, if all have arrived. -/
def intakeBytes (x : Die) (a n : Nat) : Option (List Byte) :=
  (List.range n).foldr (fun i r => match r, cellGet x.intake (a + i) with | some t, some b => some (b :: t) | _, _ => none)
    (some [])

/-- The chunks of a bound contribution all of whose bytes have arrived at a port die are taken (R341). -/
def boundChunks (d : DieId) (s : State) : State :=
  match s.eng.lp.bind (·.inst) with
  | none => s
  | some id => match instAt s id with
    | none => s
    | some k =>
      (k.ops.filter fun o => o.die == some d).foldl (fun s o =>
        (o.own k.n k.me).foldl (fun s x =>
          match intakeBytes s.dies[d.val] (dField o.desc 0x54 4 + x.1 * o.block + x.2) (o.chunkLen x.2) with
          | some data => takeOwn id o k.me x.1 x.2 data s
          | none => s) s) s

/-- Whether every binding of a port die has received exactly its intake (R340). -/
def bindExact (x : Die) : Bool := x.ranges.all fun r => r.sketch.isSome || r.got == r.len

/-- Whether a frame is a DATA frame of an instance. -/
def dataOf (k : Inst) (f : Frame) : Bool :=
  let h := frameHdr f.bytes
  (f.ctx == 2 || f.ctx == 3) && hf h 0 2 == magicCl && hf h 3 1 == 1 && bitOf (hf h 4 1) 1 == k.bound
    && (match k.id with
      | .queue t => hf h 8 4 == t.toNat
      | .bound p e a => hf h 0xC 4 == p.toNat && hf h 0x10 2 == e.toNat && hf h 6 1 == a % 256)

/-- Whether a DATA frame of an instance has been queued and not acknowledged by the return of its credits (R342, R354). -/
def dataPending (s : State) (k : Inst) : Bool :=
  s.ports.toList.any fun p => p.xfer.txq.toList.any (·.any (dataOf k)) || p.xfer.owed.any fun b => dataOf k b.1

/-- Whether every result of an instance has been written or injected. -/
def resultsDone (k : Inst) : Bool := k.resDone == k.ops.foldl (fun n o => n + o.resultBytes k.n) 0

/-- Whether every contribution of this member has been sent on. -/
def contribSent (k : Inst) : Bool :=
  k.ops.all fun o =>
    if o.kind = 3 then decide ((o.reduced k.n k.me k.held).length = (o.own k.n k.me).length)
    else (o.own k.n k.me).all fun x => (o.passed k.held (o.ownBlock k.me x.1)).contains x.2

/-! ### Room in the reduction buffers (R343) -/

/-- The bytes that an operation of a queue instance keeps in the reduction buffer of a port die: chunks that it holds and has not passed
on, and results that wait for a slice. -/
def opBytes (k : Inst) (d : DieId) (o : CollOp) : Nat :=
  let done := o.reduced k.n k.me k.held
  let waits (c : CollChunk) : Bool :=
    if o.kind = 3 then !(c.src.isSome && !c.wide) && !(done.contains (c.block, c.off)) else !((o.passed k.held c.block).contains c.off)
  let mine (c : CollChunk) : Bool := c.tag == o.tag && o.dieAt c.block c.off == d
  ((k.held.filter fun c => mine c && waits c) ++ k.results.filter mine).foldl (fun n c => n + c.data.length) 0

/-- The bytes of DATA frames that a port die holds until they are acknowledged. -/
def pendingBytes (s : State) (d : DieId) : Nat :=
  let data (f : Frame) : Nat := if (f.ctx == 2 || f.ctx == 3) && hf (frameHdr f.bytes) 3 1 == 1 then f.bytes.length - 64 else 0
  (portsOf d).foldl (fun n p =>
    let x := s.ports[p.val].xfer
    (x.txq[2] ++ x.txq[3] ++ x.owed.map Prod.fst).foldl (fun n f => n + data f) n) 0

/-- Whether the reduction buffer of a port die has room for some bytes of a queue collective, beside the sketches that it holds, the
intake of the layer pass and what else collectives keep there. -/
def collRoom (s : State) (d : DieId) (need : Nat) : Bool :=
  let insts := (s.coll.insts.filter fun k => !k.bound && k.started).flatMap fun k => k.ops.map fun o => opBytes k d o
  decide (heldBytes s d + (s.dies[d.val]).ranges.foldl (fun n r => n + r.len) 0 + pendingBytes s d + insts.foldl (· + ·) 0 + need
    ≤ 64 * mib)

/-- INTAKE_MESSAGE: a window-3 message into the intake, and the chunks of contributions that it completes. -/
def execIntakeMessage (d : DieId) (m : MeshMsg) (s : State) : Res :=
  .next (boundChunks d (takeIntake d m (takeRx d m s)))

/-! ### Collective slices (R343) -/

/-- An instance that has data to move between staging and the port dies. -/
def sliceWork (k : Inst) : Bool :=
  !k.bound && k.started && k.st == .opened && (!k.results.isEmpty || (!k.moved && k.ops.any fun o => decide (0 < o.ownBlocks k.n k.me)))

/-- The instance that the next collective slice serves. -/
def nextCollSlice (s : State) : Option CollId := (s.coll.insts.find? sliceWork).map (·.id)

/-- The chunks of a contribution moved from SRC to their port dies in order, until one finds no room. -/
def moveOwn (id : CollId) (o : CollOp) : List (Nat × Nat) → State → State
  | [], s => s
  | (b, off) :: rest, s =>
    if !collRoom s (o.dieAt b off) (o.chunkLen off) then s
    else match instAt s id with
      | none => s
      | some k =>
        let r := winRead s (dField o.desc 0x40 8 + b * o.block + off) (o.chunkLen off) s.free
        moveOwn id o rest (takeOwn id o k.me b off r.1 (putInst { k with sent := k.sent + 1 } { s with free := r.2 }))

/-- The first results of an instance written to DST. -/
def writeResults (n : Nat) (k : Inst) (o : CollOp) (s : State) : State :=
  let out := k.results.take n
  let write (s : State) (c : CollChunk) : State := winWrite (dField o.desc 0x48 8 + c.block * o.block + c.off) c.data s
  let bytes := out.foldl (fun n c => n + c.data.length) 0
  out.foldl write (putInst { k with results := k.results.drop n, resDone := k.resDone + bytes } s)

/-- What a collective slice moves, as it starts: the results that have arrived, and the chunks of the contribution for which the port
dies have room; and its transfers by unit, each with whether it writes and its window offset. -/
def sliceMoves (id : CollId) (s : State) : (Nat × Nat) × List (Bool × Nat) :=
  match instAt s id with
  | none => ((0, 0), [])
  | some k => match if k.st = .opened then k.ops.head? else none with
    | none => ((0, 0), [])
    | some o =>
      let rest := (o.own k.n k.me).drop k.sent
      let after := (instAt (moveOwn id o rest (writeResults k.results.length k o s)) id).getD k
      let own := rest.take (after.sent - k.sent)
      let units (w : Bool) (h n : Nat) : List (Bool × Nat) := (List.range ((n + 63) / 64)).map fun i => (w, h + 64 * i)
      ((k.results.length, own.length),
        (k.results.flatMap fun c => units true (dField o.desc 0x48 8 + c.block * o.block + c.off) c.data.length)
          ++ own.flatMap fun x => units false (dField o.desc 0x40 8 + x.1 * o.block + x.2) (o.chunkLen x.2))

/-- A collective slice that commits: it writes its results to DST, and moves its chunks of the contribution from SRC to the port dies. -/
def collSliceCommit (moves : Nat × Nat) (id : CollId) (s : State) : State :=
  match instAt s id with
  | none => s
  | some k =>
    match if k.st = .opened then k.ops.head? else none with
    | none => s
    | some o =>
      let own := o.own k.n k.me
      let s1 := moveOwn id o ((own.drop k.sent).take moves.2) (writeResults moves.1 k o s)
      match instAt s1 id with
      | some x => if x.sent = own.length then putInst { x with moved := true } s1 else s1
      | none => s1

/-- The transfers of a collective slice checked as it starts: of the units by number, `bad` fail link parity (R221, R222, R343). The built-in
mover is firmware, and DESIGN CHOICE (log entry 85): as with the loader, the cluster's first core records and raises the error. -/
def checkMoves (bad : List Nat) (us : List (Bool × Nat)) (s : State) : State :=
  ((List.range us.length).zip us).foldl (fun (s : State) x =>
    let h := x.2.2
    match coreOf (winCluster h) 0 with
    | none => s
    | some c =>
      if !x.2.1 then readUnit c 1 (winAddr h) (!bad.contains x.1) s
      else if bad.contains x.1 then writeUnit c 1 (winAddr h) (List.replicate 64 0) false s
      else s) s

end Sys2Proof.Machine
end

