-- ==== Sys2Proof/Machine/RepairRec.lean ====
section
/-! DEFINITION. The repair record as the cartridge holds it: the bytes of a record, and the record that valid bytes hold (R464, R493,
R494). -/

namespace Sys2Proof.Machine

open Sys2Proof

/-- SIZE of a repair record. -/
abbrev recordSize : Nat := 0xD80

/-- The layout of R493 with a given CRC. -/
def recordLayout (r : RepairRecord) (crc : Nat) : List Byte :=
  [0x43, 0x51, 0x52, 0x44] ++ leBytes 2 1 ++ leBytes 2 recordSize ++ leBytes 4 r.seq.toNat ++ leBytes 4 crc ++ leBytes 2 0x46
    ++ List.replicate 46 0 ++ r.tileMap ++ r.darn ++ List.replicate 14 0 ++ leBytes 80 r.edge.toNat ++ List.replicate 48 0
    ++ r.cores.flatMap fun w => leBytes 4 w.toNat

/-- The bytes of a record, its CRC computed with that field taken as zero. -/
def recordBytes (r : RepairRecord) : List Byte := recordLayout r (crc32c (recordLayout r 0)).toNat

/-- Whether a word of CORES is in the encoding of CLUSTER_ROWS (R495). -/
def rowsOk (w : BitVec 32) : Bool :=
  (List.range 8).all fun r => let v := bits w.toNat (4 * r + 3) (4 * r); decide (v ≤ 8) || decide (14 ≤ v)

/-- The ranges of the fields: TILE_MAP, DARN and CORES. -/
def recordInRange (r : RepairRecord) : Bool :=
  ((List.range 48).all fun i => let v := (r.tileMap.getD i 0).toNat; v == i || v == 48 || v == 49 || v == 0xFF)
  && (r.darn.all fun d => decide (d.toNat ≤ 2)) && r.cores.all rowsOk

/-- The fields of a copy. -/
def parseRecord (bs : List Byte) : RepairRecord where
  seq := BitVec.ofNat 32 (fieldAt bs 0x8 4)
  tileMap := (bs.drop 0x40).take 48
  darn := (bs.drop 0x70).take 2
  edge := BitVec.ofNat 640 (fieldAt bs 0x80 80)
  cores := (List.range 800).map fun i => BitVec.ofNat 32 (fieldAt bs (0x100 + 4 * i) 4)

/-- The record that a copy holds, if the copy is valid (R464, R494): MAGIC, FORMAT, SIZE, TARGET, the CRC, RSVD bytes of zero, and fields
within their ranges. -/
def recordOf (bs : List Byte) : Option RepairRecord :=
  let body := bs.take recordSize
  let r := parseRecord body
  let zero (o n : Nat) : Bool := ((body.drop o).take n).all (· == 0)
  if decide (recordSize ≤ bs.length) && body.take 4 == [0x43, 0x51, 0x52, 0x44] && fieldAt body 4 2 == 1 && fieldAt body 6 2 == recordSize
      && fieldAt body 0x10 2 == 0x46 && zero 0x12 46 && zero 0x72 14 && zero 0xD0 48 && recordInRange r
      && fieldAt body 0xC 4 == (crc32c (body.take 0xC ++ List.replicate 4 0 ++ body.drop 0x10)).toNat then some r
  else none

/-- A copy with a record written at its start; the rest of its space stays. -/
def putRecord (r : RepairRecord) (copy : List Byte) : List Byte := recordBytes r ++ copy.drop recordSize

end Sys2Proof.Machine
end

