-- ==== Sys2Proof/Machine/Sites.lean ====
section
/-! DEFINITION. Sites of hardware errors, their attribution and condemnation, the repair record, and the scheduling of
repairs (R476, R480, R481, R488, R489, R493, R494). -/

namespace Sys2Proof.Machine

open Sys2Proof

/-- 24 hours in ms. -/
abbrev dayMs : Nat := 86400000

/-- Loupe's time in ms since cold start, counted by its samples. -/
def nowMs (s : State) : Nat := s.mgmt.uptime

/-! ### Sites (R476) -/

/-- The logical tile that holds a site; 63 for a site in none. -/
def sitePt : Site → Nat
  | .core c => (ptOf c).val
  | .slice ci _ _ => ci.val / 16
  | .link c _ => (ptOf c).val
  | .bridge c _ => (ptOf c).val
  | .tatLink n => match n with
    | .core c => (ptOf c).val
    | .router c => (ptOf c).val
    | .cluster ci => ci.val / 16
    | .tile pt => pt.val
    | _ => 63
  | .edge d link => match edgeRouter d link with | some (c, _) => (ptOf c).val | none => 63
  | .none => 63

/-- The errors attributed within the last 24 h (R480). -/
def recentErrs (s : State) : List SiteErr := s.flt.sites.filter fun e => decide (nowMs s < e.ms + dayMs)

/-- FLT_ERR (R496): the first hardware error since VALID was cleared. -/
def fltErr (code : BitVec 16) (pt : Nat) (s : State) : State :=
  if bitOf s.flt.err.toNat 31 then s
  else { s with flt := { s.flt with err := BitVec.ofNat 32 (put 1 31 + put pt 24 + code.toNat) } }

/-! ### Rows and tiles (R24, R25, R495) -/

/-- The physical tile that serves a cluster. -/
def physCi (s : State) (ci : ClusterId) : PhysTile := physOf s (tileOfCi ci)

/-- ROWr of a cluster. -/
def rowOf (s : State) (ci : ClusterId) (row : Nat) : Nat :=
  bits (s.tiles[(physCi s ci).val]).rows[ci.val % 16].toNat (4 * row + 3) (4 * row)

/-- ROWr of a physical tile's cluster replaced. -/
def setRow (t : PhysTile) (k : Fin 16) (row v : Nat) (s : State) : State :=
  let x := s.tiles[t.val]
  let old := x.rows[k.val].toNat
  let w := BitVec.ofNat 32 (old - put (bits old (4 * row + 3) (4 * row)) (4 * row) + put v (4 * row))
  s.setTile t { x with rows := x.rows.set k.val w }

/-- A row that holds a failed core. -/
def rowFailed (s : State) (ci : ClusterId) (row : Nat) : Bool := rowOf s ci row != 15

/-- The row of a core within its cluster. -/
def rowIn (c : CoreId) : Nat := inCluster c / 8

/-- The failed physical columns of a row of a physical tile's cluster, as far as they are known: CLUSTER_ROWS names one, and the tests and
condemnations of this run name two. DESIGN CHOICE (log entry 83): of a row that the repair record alone gives as failed twice, the columns
stay unknown until a test names them. -/
def failedCols (x : PTile) (k row r : Nat) : BitVec 9 := if r < 9 then 1#9 <<< r else tabGet 0 x.pairs (8 * k + row)

/-- The physical column that a logical column uses, the c-th working one of the row; `none` for an unserved one (R25, R489). -/
def physCol (s : State) (ci : ClusterId) (row col : Nat) : Option Nat :=
  let r := rowOf s ci row
  let bad := failedCols s.tiles[(physCi s ci).val] (ci.val % 16) row r
  if r = 14 ∧ col = 7 then none
  else if r = 15 then some col
  else ((List.range 9).filter fun c => !bad.getLsbD c)[col]?

/-- What a site is physically now (R476, R480). -/
def physSite (s : State) (site : Site) : PhysSite :=
  let core (kind : Nat) (c : CoreId) (inp : Nat) : PhysSite :=
    ⟨some (physCi s (ciOf c)), (ciOf c).val % 16, [kind, rowIn c, (physCol s (ciOf c) (rowIn c) (inCluster c % 8)).getD 9, inp]⟩
  match site with
  | .core c => core 0 c 0
  | .slice ci sl layer => ⟨some (physCi s ci), ci.val % 16, [1, sl, layer]⟩
  | .link c inp => if inp = 4 then core 0 c 0 else core 2 c inp
  | .bridge c inp => core 3 c inp
  | .tatLink n => match n with
    | .core c => core 4 c 0
    | .router c => core 5 c 0
    | .cluster ci => ⟨some (physCi s ci), ci.val % 16, [6]⟩
    | .tile pt => ⟨some (physOf s pt), 16, [7]⟩
    | .die d => ⟨none, 16, [8, d.val]⟩
    | .shuttle k => ⟨none, 16, [9, k.val]⟩
    | .root => ⟨none, 16, [10]⟩
  | .edge d link =>
    let at' := (edgeRouter d link).map Prod.fst
    ⟨at'.map fun c => physCi s (ciOf c), (at'.map fun c => (ciOf c).val % 16).getD 16, [11, d.val, link]⟩
  | .none => ⟨none, 16, []⟩

/-- Whether a logical tile has been marked unserved (R489). -/
def tileUnserved (s : State) (pt : TileId) : Bool := (s.flt.tileMap[pt.val]) == 0xFF

/-- Whether a logical core is unserved (R489). -/
def coreUnserved (s : State) (c : CoreId) : Bool :=
  tileUnserved s (ptOf c) || (rowOf s (ciOf c) (rowIn c) == 14 && inCluster c % 8 == 7)

/-- The bit of an edge link in EDGE of the repair record (R493). -/
def edgeBit (d : DieId) (link : Nat) : Nat := if d.val < 2 then d.val * 128 + link else 256 + (d.val - 2) * 64 + link

def edgeRetired (s : State) (d : DieId) (link : Nat) : Bool := s.flt.edge.getLsbD (edgeBit d link)

/-! ### The repair record (R493, R494) -/

/-- The map and the darning tiles as a relocation under way will leave them: a darning tile that it replaces is failed. -/
def relocated (r : Repair) (f : Vector (BitVec 8) 48 × Vector (BitVec 2) 2) : Vector (BitVec 8) 48 × Vector (BitVec 2) 2 :=
  match r with
  | .relocate pt d _ =>
    let old := (f.1[pt.val]).toNat
    (f.1.set pt.val (BitVec.ofNat 8 (48 + d.val)), if old = 48 then f.2.set 0 2 else if old = 49 then f.2.set 1 2 else f.2)
  | _ => f

/-- The repair record as Loupe holds it: what is in service, with the relocations under way as they will leave it (R484 step 1). -/
def recordNow (s : State) : RepairRecord :=
  let f := s.flt.repairs.foldl (fun f r => relocated r f) (s.flt.tileMap, s.flt.darn)
  { seq := s.flt.recSeq
    tileMap := f.1.toList
    darn := f.2.toList.map fun d => d.setWidth 8
    edge := s.flt.edge
    cores := s.tiles.toList.flatMap fun t => t.rows.toList }

/-- Whether one sequence number is newer than another (R464). -/
def seqNewer (a b : BitVec 32) : Bool := decide (1 ≤ (a - b).toNat) && decide ((a - b).toNat ≤ 0x7FFFFFFF)

/-- The record of a cartridge that is valid and newer (R464, R494). -/
def newerRecord (c : Cartridge) : Option RepairRecord :=
  match recordOf c.rec0, recordOf c.rec1 with
  | some a, some b => if seqNewer b.seq a.seq then some b else some a
  | some a, none => some a
  | none, r => r

/-- The record written with the next SEQ, over the copy that does not hold the newer valid one (R494). -/
def writeRecord (s : State) : State :=
  let s1 := { s with flt := { s.flt with recSeq := s.flt.recSeq + 1 } }
  let r := recordNow s1
  match s1.boot.cart with
  | none => s1
  | some c =>
    let first := match recordOf c.rec0, recordOf c.rec1 with
      | some a, some b => seqNewer b.seq a.seq
      | some _, none => false
      | none, _ => true
    { s1 with boot := { s1.boot with cart := some (if first then { c with rec0 := putRecord r c.rec0 } else { c with rec1 := putRecord r c.rec1 }) } }

/-! ### Scheduling (R22, R481, R484, R488, R489) -/

/-- FLT_REPAIR (R496). -/
def repairWord (r : Repair) (applied : Bool) : Word :=
  let ap := put (b2n applied) 28
  BitVec.ofNat 32 (ap + match r with
    | .shift ci row pcol _ => put 1 29 + put (ci.val / 16) 22 + put ci.val 10 + put row 7 + put pcol 3
    | .relocate t d _ => put 2 29 + put t.val 22 + put d.val 20
    | .restore t _ => put 3 29 + put t.val 22
    | .edge d link => put 4 29 + (match edgeRouter d link with | some (c, _) => put (ptOf c).val 22 | none => 0)
    | .loseTile t => put 5 29 + put t.val 22
    | .loseRow ci row _ => put 6 29 + put (ci.val / 16) 22 + put ci.val 10 + put row 7)

/-- A repair scheduled, and shown in FLT_REPAIR. -/
def addRepair (r : Repair) (s : State) : State :=
  { s with flt := { s.flt with repairs := s.flt.repairs ++ [r], repairReg := repairWord r false } }

/-- Whether a tile already awaits relocation, or awaits being marked unserved. -/
def tilePending (s : State) (pt : TileId) : Bool :=
  s.flt.repairs.any fun r => match r with
    | .relocate t _ _ => t == pt
    | .loseTile t => t == pt
    | _ => false

/-- The darning tile that R22 prefers for a logical tile. -/
def darnPrefers (pt : TileId) : Fin 2 := if pt.val < 24 then 0 else 1

/-- The darning tile that a logical tile takes (R22). -/
def darnFor (s : State) (pt : TileId) : Option (Fin 2) :=
  let d := darnPrefers pt
  if s.flt.darn[d.val] = 0 then some d
  else if s.flt.darn[1 - d.val] = 0 then some (1 - d) else none

def darnTile (d : Fin 2) : PhysTile := ⟨48 + d.val, by omega⟩

/-- A darning tile taken: its eFuse is closed, and its test runs (R484 steps 1 and 2). -/
def takeDarn (d : Fin 2) (s : State) : State :=
  let t := darnTile d
  let x := s.tiles[t.val]
  let s1 := s.setTile t { x with powered := true, fuse := .closed, st := .selftest, test := 1 }
  { s1 with flt := { s1.flt with darn := s1.flt.darn.set d.val 1 } }

/-- A relocation scheduled: its darning tile is taken, and the record is written. -/
def beginDarn (pt : TileId) (d : Fin 2) (s : State) : State := writeRecord (addRepair (.relocate pt d false) (takeDarn d s))

/-- A higher logical tile that is to take the darning tile that `pt` prefers, where the other one is spare (R488). -/
def rivalOf (s : State) (pt : TileId) : Option (TileId × Bool) :=
  let d := darnPrefers pt
  if s.flt.darn[1 - d.val] ≠ 0 then none
  else s.flt.repairs.findSome? fun r => match r with
    | .relocate q e tested => if e = d ∧ pt.val < q.val ∧ darnPrefers q = d then some (q, tested) else none
    | _ => none

/-- The lower logical tile takes the darning tile that two need, tested or not, and the other tile takes the other one (R488). DESIGN CHOICE
(log entry 83): it does so while the relocation of the higher one has not been applied and the other darning tile is spare. -/
def swapDarn (pt q : TileId) (tested : Bool) (s : State) : State :=
  let d := darnPrefers pt
  let s1 : State := { s with flt := { s.flt with repairs := s.flt.repairs.map fun r => match r with
    | .relocate t e b => if t = q ∧ e = d then .relocate pt d b else r
    | _ => r } }
  let s2 : State := { s1 with flt := { s1.flt with repairReg := repairWord (.relocate pt d tested) false } }
  beginDarn q (1 - d) s2

/-- A relocation scheduled for a condemned tile, or nothing where no darning tile is left. -/
def seekDarn (pt : TileId) (s : State) : Option State :=
  match rivalOf s pt with
  | some (q, tested) => some (swapDarn pt q tested s)
  | none => (darnFor s pt).map fun d => beginDarn pt d s

/-- A case for which a tile was condemned is noted. -/
def noteCase (pt : TileId) (row : Option (ClusterId × Nat × BitVec 9)) (s : State) : State :=
  if s.flt.cases.contains (pt, row) then s else { s with flt := { s.flt with cases := s.flt.cases ++ [(pt, row)] } }

/-- A tile condemned for relocation. -/
def relocateTile (pt : TileId) (s : State) : State :=
  if tileUnserved s pt then s
  else
    let s1 := noteCase pt none s
    if tilePending s pt then s1 else (seekDarn pt s1).getD (addRepair (.loseTile pt) s1)

/-- A row without its logical column 7, unless it is so already or is to be. -/
def loseRow (ci : ClusterId) (row : Nat) (cols : BitVec 9) (s : State) : State :=
  if rowOf s ci row == 14 || (s.flt.repairs.any fun r => match r with | .loseRow k w _ => k == ci && w == row | _ => false) then s
  else addRepair (.loseRow ci row cols) s

/-- A second failed core in a row: the tile is relocated, or the row loses its logical column 7 (R481, R489). `cols` are the failed physical
columns. -/
def rowAgain (ci : ClusterId) (row : Nat) (cols : BitVec 9) (s : State) : State :=
  let pt := tileOfCi ci
  let s1 := noteCase pt (some (ci, row, cols)) s
  if tilePending s pt then s1 else (seekDarn pt s1).getD (loseRow ci row cols s1)

/-- A core condemned: a shift, or what R481 and R488 give in its place. DESIGN CHOICE (log entry 83): the same core condemned again while its
shift is pending adds nothing, tested or not. -/
def condemnCore (c : CoreId) (s : State) : State :=
  let ci := ciOf c
  let row := rowIn c
  let col := (physCol s ci row (inCluster c % 8)).getD 0
  let mine (r : Repair) : Option Nat := match r with | .shift k r' p _ => if k = ci ∧ r' = row then some p else none | _ => none
  match s.flt.repairs.findSome? mine with
  | some p =>
    if p = col then s
    else rowAgain ci row ((1#9 <<< p) ||| (1#9 <<< col)) { s with flt := { s.flt with
      repairs := s.flt.repairs.filter fun r => (mine r).isNone } }
  | none =>
    if rowFailed s ci row then rowAgain ci row (failedCols s.tiles[(physCi s ci).val] (ci.val % 16) row (rowOf s ci row) ||| (1#9 <<< col)) s
    else addRepair (.shift ci row col false) s

/-- An edge link condemned. -/
def condemnEdge (d : DieId) (link : Nat) (s : State) : State :=
  if s.flt.repairs.contains (.edge d link) || edgeRetired s d link then s else addRepair (.edge d link) s

/-- The repair that a condemned site calls for (R481). -/
def condemn (site : Site) (s : State) : State :=
  match site with
  | .core c => condemnCore c s
  | .slice ci _ _ => relocateTile (tileOfCi ci) s
  | .bridge c _ => relocateTile (ptOf c) s
  | .edge d link => condemnEdge d link s
  | .none => s
  | .link c inp =>
    if inp = 4 then condemnCore c s
    else match neighbour c inp with
      | none => condemnCore c s
      | some (.die d, link, _) => condemnEdge d link s
      | some (.router k, _, _) =>
        if ciOf k ≠ ciOf c then relocateTile (ptOf c) s
        else if !rowFailed s (ciOf c) (rowIn c) then condemnCore c s
        else if !rowFailed s (ciOf k) (rowIn k) then condemnCore k s
        else relocateTile (ptOf c) s
  | .tatLink n => match n with
    | .core c => condemnCore c s
    | .router c => condemnCore c s
    | .cluster ci => relocateTile (tileOfCi ci) s
    | .tile pt => relocateTile pt s
    | _ => s

/-- Whether FLT_ERR holds an error of a code in a tile, the last one or one like it (R496). -/
def errShown (s : State) (code : BitVec 16) (pt : Nat) : Bool :=
  bitOf s.flt.err.toNat 31 && bits s.flt.err.toNat 29 24 == pt % 64 && bits s.flt.err.toNat 15 0 == code.toNat

/-- An error that decides a run, attributed to its site; a site that R480 condemns gets its repair. `ended` says that it ended
the work under R478: LIMIT is set where FLT_ERR holds that error (DEDUCED, log entry 84: R496 says that LIMIT speaks of the error that the
register holds; one of the same code in the same tile counts as that error come again). -/
def siteError (site prev : Site) (ident : BitVec 32) (code : BitVec 16) (ended : Bool) (s : State) : State :=
  let s1 := fltErr code (sitePt site) s
  let key := physSite s1 site
  let s2 : State := { s1 with flt := { s1.flt with
    hw := incW s1.flt.hw,
    err := if ended && errShown s1 code (sitePt site) then s1.flt.err ||| 0x40000000#32 else s1.flt.err,
    sites := if site = .none then s1.flt.sites else recentErrs s1 ++ [⟨key, code, ident, nowMs s1⟩] } }
  let passes := ((recentErrs s2).filter fun e => e.site == key).map (·.ident)
  if site ≠ .none ∧ (prev = site ∨ ended ∨ 3 ≤ passes.eraseDups.length) then condemn site s2 else s2

/-! ### Service (R457, R489, R490) -/

/-- The logical tiles in service, as a count. -/
def tilesInService (s : State) : Nat := ((List.range 48).filter fun i => s.boot.inService.getLsbD i).length

/-- Anything unserved (R489, R490). -/
def anyUnserved (s : State) : Bool :=
  (List.finRange 48).any (tileUnserved s) || (List.range 640).any (fun i => s.flt.edge.getLsbD i)
  || (List.finRange 768).any fun ci => !tileUnserved s (tileOfCi ci) && (List.range 8).any fun r => rowOf s ci r == 14

/-- ENGINE_STATE changes: vector 0, and the Redfish event (R395, R503). -/
def setEngine (e : EngState) (s : State) : State :=
  if s.boot.eng = e then s else msix 0 (logNamed "EngineStateChanged" { s with boot := { s.boot with eng := e } })

/-- ENGINE_STATE: STATE, TILES, IMAGE and WINDOW (R393). -/
def engineParts (s : State) : EngState × Nat × Bool × Bool :=
  (s.boot.eng, tilesInService s, s.eng.image.isSome, s.eng.cfg.window)

/-- Vector 0 is sent where ENGINE_STATE differs from what it was (R395). -/
def noteEngine (was s : State) : State := if engineParts s = engineParts was then s else msix 0 s

end Sys2Proof.Machine
end

