-- ==== Sys2Proof/Machine/Programs.lean ====
section
/-! DEFINITION. What a layer pass runs on each core (R86, R489), and the power of the scratchpad segments that it uses (R124, R125). -/

namespace Sys2Proof.Machine

open Sys2Proof

/-! ### What the layer pass runs on each core -/

/-- The core entry of a core in a layer entry and placement, if it is not empty (R86). -/
def progAt (im : Image) (place entry : Nat) (c : CoreId) : Option CoreProg :=
  im.progs.find? fun g => g.place == place && g.layer == entry && g.core == c.val

/-- The core entries of a layer entry in the placement in force that an engine serves, with their cores. -/
def progsOf (s : State) (entry : Nat) : List (CoreId × CoreProg) :=
  match s.eng.image with
  | none => []
  | some im => (im.progs.filter fun g => g.place == s.eng.placement && g.layer == entry).filterMap fun g =>
      if h : g.core < 49152 then
        let c : CoreId := ⟨g.core, h⟩
        if coreUnserved s c then none else some (c, g)
      else none

/-- The layer entry of a layer pass of a pass; none for a slice. -/
def lpEntry (lp : LayerPass) : Option Nat := if lp.kind = .work then some lp.entry else none

/-- The core entries that a layer pass runs. -/
def lpProgs (s : State) (lp : LayerPass) : List (CoreId × CoreProg) :=
  match lpEntry lp with | some e => progsOf s e | none => []

/-- The program of a core in a list of core entries. -/
def progIn (ps : List (CoreId × CoreProg)) (c : CoreId) : Option CoreProg := (ps.find? fun x => x.1 == c).map Prod.snd

/-! ### Scratchpad segments (R124, R125) -/

/-- The segments of a mask that are OFF begin to wake. -/
def wakeSegs (seg : BitVec 8) (k : Core) : Core :=
  let one (i : Fin 8) : SegState := if seg.getLsbD i.val && k.spad.segs[i.val] == .off then .waking else k.spad.segs[i.val]
  { k with spad := { k.spad with segs := Vector.ofFn one } }

/-- The segments outside a mask go OFF, and their contents are lost. -/
def dropSegs (seg : BitVec 8) (k : Core) : Core :=
  (List.finRange 8).foldl (fun k (i : Fin 8) =>
    if seg.getLsbD i.val || k.spad.segs[i.val] == .off then k
    else
      let k1 := k.clearSeg i.val
      { k1 with spad := { k1.spad with segs := k1.spad.segs.set i.val .off } }) k

/-- The segments that a layer entry's tasks use begin to wake, on every core. -/
def wakeFor (entry : Nat) (s : State) : State :=
  (progsOf s entry).foldl (fun s x => s.setCore x.1 (wakeSegs x.2.seg (s.core x.1))) s

/-- The segments that a layer entry does not use go OFF on the cores whose last task committed (R124). -/
def dropFor (entry : Nat) (s : State) : State :=
  let ps := progsOf s entry
  { s with cores := s.cores.map fun e =>
      if h : e.1 < 49152 then
        if e.2.task.segsDue then
          (e.1, dropSegs (match progIn ps ⟨e.1, h⟩ with | some g => g.seg | none => 0) e.2)
        else e
      else e }

end Sys2Proof.Machine
end

