-- ==== Sys2Proof/Machine/Passes.lean ====
section
/-! DEFINITION. The end of a layer pass: its abort, its commit, its re-run, and the end of a pass (R28, R196 to R198, R223, R400,
R417, R442, R477, R478). -/

namespace Sys2Proof.Machine

open Sys2Proof

/-! ### Aborting (R195 to R197) -/

/-- A cause noted in its class: the first of each class is kept, and FIRST is the first of all. -/
def noteCause (cls : AbortClass) (code : BitVec 16) (lp : LayerPass) : LayerPass :=
  let l1 : LayerPass := if lp.hw.isNone && lp.ext.isNone && lp.prog.isNone then { lp with first := code } else lp
  match cls with
  | .hardware => { l1 with hw := l1.hw.or (some code) }
  | .external => { l1 with ext := l1.ext.or (some code) }
  | .program => { l1 with prog := l1.prog.or (some code) }

/-- ABORT sent down the tree: to every tile hub in service and every port die. -/
def abortDown (code : BitVec 16) (s : State) : State :=
  let p := packet 10 0 0 0 0 0 0 s.lpass code.toNat
  let tiles := (List.finRange 48).filter fun t => s.boot.inService.getLsbD t.val
  (List.finRange 8).foldl (fun s d => s.send .root (.die d) p) (tiles.foldl (fun s t => s.send .root (.tile t) p) s)

/-- The tiles in service. -/
def servedTiles (s : State) : List TileId := (List.finRange 48).filter fun t => s.boot.inService.getLsbD t.val

/-- RELEASE of a barrier. -/
def releasePkt (s : State) (scope id value : Nat) : BitVec 96 := packet 9 scope id 0 0 0 0 s.lpass value

/-- RELEASE sent by the root to every tile hub in service and every port die. -/
def releaseAll (scope id value : Nat) (s : State) : State :=
  let p := releasePkt s scope id value
  let s1 := (servedTiles s).foldl (fun s t => s.send .root (.tile t) p) s
  if id = 0xFFFF then (List.finRange 8).foldl (fun s d => s.send .root (.die d) p) s1 else s1

/-- The decision goes from OPEN or PREPARED to ABORTED; the chunks of the layer pass and the ADDs held for it are discarded (R181,
R244). -/
def openAbort (code : BitVec 16) (s : State) : State :=
  match s.eng.lp with
  | none => s
  | some lp =>
    let t := s.tat
    abortDown code (abortIngress ({ s with tat := { t with
        dieAcks := 0, hub := { t.hub with acks := (~~~s.boot.inService).setWidth 64 } } }.setLp
      (some { lp with decision := .aborted, settling := false, acked := false, held := [] })))

/-! ### The end of a task (R126, R417) -/

/-- The words of a core record. -/
def taskRecord (k : Core) : List Word :=
  let r := k.recs
  [k.task.lpass, r.fault, r.faultPc, r.faultAddr, r.perr, r.perrMask, r.winFault, r.meshErr, r.syncErr, r.memErr,
    r.memErrAddr, k.cnt.spCycles, k.cnt.spMatched, 0]

/-- Whether a task holds a set VALID in any of the registers. -/
def recordDue (k : Core) : Bool :=
  let r := k.recs
  [r.fault, r.perr, r.winFault, r.meshErr, r.syncErr, r.memErr].any fun w => bitOf w.toNat 31

/-- The wait entries of cores leave an object (R189). -/
def dropCoreWaits (e : Nat × SyncObj) : Nat × SyncObj :=
  (e.1, { e.2 with waiters := e.2.waiters.filter fun w => decide (0xD0 ≤ w.gy.toNat) })

/-- The tasks of the layer pass end, on every core, and with them the waits of the cores. Its stitch plan has ended with the layer-end
barrier or with the abort: routers and port dies fire no more (R161, R163), and
its intake has become held copies or is discarded (R311). -/
def endTasks (committed : Bool) (s : State) : State :=
  let sparse := match runningEntry s with | some e => lfSparse e | none => false
  let work := s.eng.lp.any fun lp => lp.kind == .work
  let one (e : Nat × Core) : Nat × Core :=
    let k := e.2
    (e.1, { k with
      status := if sparse || recordDue k then taskRecord k else k.status,
      run := .idle,
      router := { k.router with running := false },
      task := { k.task with
        prevCommitted := committed, segsDue := committed && work, prevInstall := if work then s.eng.installs else 0 } })
  let e := s.eng
  let idle := if sparse then s.eng.passNo :: List.replicate 13 0 else e.idleRecord
  let t := s.tat
  { s with
    cores := s.cores.map one, dies := s.dies.map fun x => { x with running := false, ranges := [], intake := [] }, eng := { e with idleRecord := idle, lastCommitted := committed, carry := committed && work },
    clusters := s.clusters.map (fun c => (c.1, { c.2 with objs := c.2.objs.map dropCoreWaits })),
    tat := { t with objs := t.objs.map dropCoreWaits } }

/-! ### The end of a pass (R400, R442) -/

/-- The unit of the weights w_i of R442: the whole is 48 × 2^32. -/
abbrev weightUnit : Nat := 4294967296

/-- The weights at an install: each 1 ÷ 48. -/
def startWeights : List Nat := List.replicate 48 weightUnit

/-- The weights after a pass, from the rail energy that each image tile drew. -/
def nextWeights (ws es : List Nat) : List Nat :=
  let total := es.foldl (· + ·) 0
  if total = 0 then ws
  else (ws.zip es).map fun x => (7 * x.1 + x.2 * (48 * weightUnit) / total) / 8

/-- The streamed chunks of an epoch that port dies have fetched, or asked for, for layer passes that now never run are discarded, and the
room is free again (R244). -/
def dropStreamed (number : BitVec 16) (s : State) : State :=
  let own (adapter : Bool) (n : BitVec 16) (i : BitVec 32) : Bool := !adapter && n == number && !((chunkEntry s false n i).any isRegion)
  let clean (x : Die) : Die :=
    { x with
      fetch := x.fetch.filter (fun b => !own b.adapter b.number b.index),
      reqs := x.reqs.filter (fun r => r.part || !own r.adapter r.number r.index) }
  { s with dies := s.dies.map clean }

/-- A pass ends with a code: its weights are updated, and its RUN_PASS completes, or waits for its reduction. -/
def endPass (code : BitVec 16) (s : State) : State :=
  match s.eng.pass with
  | none => s
  | some p =>
    let e := s.eng
    let s0 := dropStreamed p.epoch s
    let s1 := { s0 with eng := { e with
      pass := none, lp := none, parked := none, weights := nextWeights e.weights e.energy, energy := [],
      training := e.training && !(passBackward p || code != 0),
      stepResets := if passTraining p && !passBackward p && code == 0 then p.resets else 0 } }
    if passBackward p then passEndsStep p code s1
    else completeRun p code (if passTraining p then forwardSection s1 p else []) s1

/-! ### Commit (R28, R181, R196) -/

/-- The held ADDs applied together, and the WAIT_SYNC that they satisfy. -/
def applyHeld (lp : LayerPass) (s : State) : State :=
  afterRoot (lp.held.foldl (fun s a => objAdd a.1.toNat a.2 s) s)

/-- Every ABORT_PASS that waits is answered once no layer pass runs (R413, R414). -/
def answerAborts (s : State) : State :=
  if s.eng.lp.any fun lp => lp.started then s
  else s.eng.abortReq.foldl (fun s m => takeWord m 0 s) { s with eng := { s.eng with abortReq := [] } }

/-- The layer pass commits, with the final RELEASE (R192, R196). A pass that an external cause has ended runs no further layer pass
(R414); one of a span that has lost a member ends with MEMBER_REMOVED even after its last layer pass (R35, R360). Within a pass, the segments that the next layer entry does not use go OFF (R124).
An ABORT_PASS that came too late is answered (R413). -/
def commitLp (s : State) : State :=
  answerAborts (match s.eng.lp with
  | none => s
  | some lp =>
    let s0 := (releaseAll 2 0xFFFF 0 s).setLp (some { lp with decision := .committed, held := [] })
    let s1 := endTasks true (sketchCommit lp (focusCommit lp (applyHeld lp s0)))
    match lp.kind with
    | .load => sliceCommit lp (s1.setLp none)
    | .coll => match lp.inst with
      | some id => collSliceCommit lp.moves id (s1.setLp none)
      | none => s1.setLp none
    | .work => match s1.eng.pass with
      | none => s1.setLp none
      | some p =>
        if p.spanLost then endPass 0x0804 s1
        else match p.todo with
        | [] => endPass 0 s1
        | next :: _ => match p.ended with
          | some code => endPass code s1
          | none => dropFor next (s1.setLp none))

/-! ### Re-run (R28, R223, R477) -/

/-- The layer pass is to run again. A unit that failed its check in any of its runs and that nothing has written since is remembered
(R223). -/
def rerunLp (s : State) : State :=
  match s.eng.lp with
  | none => s
  | some lp =>
    let l : LayerPass := { lp with
      started := false, markFails := 0, decision := .opened, first := 0, hw := none, ext := none, prog := none,
      prevSite := lp.site, site := .none, held := [], heldFocus := [], settling := false, slip := false,
      runs := lp.runs + 1, memPrev := ((lp.memPrev ++ lp.memNow).eraseDups).filter (fun u => unitFailed s u.1 u.2.1 u.2.2),
      memNow := [], memAgain := [], wrote := [], dispose := none, acked := false }
    let e := s.eng
    let f := s.flt
    { s with
      eng := { e with lp := some l, pass := e.pass.map fun p => if lp.kind = .work then { p with reruns := p.reruns + 1 } else p },
      flt := { f with reruns := incW f.reruns } }

/-- The chunk of a live manifest whose piece writes a unit (R223, R249). -/
def chunkAt (m : Manifest) (ci : ClusterId) (region off : Nat) : Option Nat :=
  (List.range m.chunks.length).find? fun i =>
    match m.chunks[i]? with
    | none => false
    | some c => (piecesFrom m c.firstPiece c.pieces).any fun p =>
        p.dest == 1 && p.target == ci.val && p.win == region && decide (p.dstOff ≤ off)
          && decide (off < p.dstOff + p.rows * p.rowBytes)

/-- A chunk to be fetched again. -/
def addRefetch (number : BitVec 16) (adapter : Bool) (i : Nat) (s : State) : State :=
  let r : Refetch := { number := number, adapter := adapter, index := BitVec.ofNat 32 i }
  if s.wts.refetch.any fun x => x.number == number && x.adapter == adapter && x.index == r.index then s
  else { s with wts := { s.wts with refetch := s.wts.refetch ++ [r] } }

/-- The slices of which a unit has failed in this run after it had been rewritten are condemned (R480). -/
def condemnRewritten (lp : LayerPass) (s : State) : State :=
  lp.memNow.eraseDups.foldl (fun s u =>
    let a := regionBase s u.1 u.2.1 + u.2.2
    if s.flt.rewritten.contains u then condemn (.slice u.1 (sliceOf a) (layerOf a)) s else s) s

/-- What R223 does to a unit of region 2, 4 or 6 that failed again. -/
def mendUnit (u : ClusterId × Nat × Nat) (s : State) : State :=
  let ci := u.1
  let region := u.2.1
  let off := u.2.2
  let s1 : State := if s.flt.rewritten.contains u then s else { s with flt := { s.flt with rewritten := s.flt.rewritten ++ [u] } }
  if region = 4 then
    let s2 := regionWrite ci 4 (off / 64 * 64) (List.replicate 64 0) s1
    { s2 with eng := { s2.eng with pass := s2.eng.pass.map fun p => { p with resets := min 65535 (p.resets + 1) } } }
  else if region = 2 then
    match s1.wts.adapterMans.findSome? fun m => if ownsArea s1 m off then (chunkAt m ci 2 off).map fun i => (m.number, i) else none with
    | some (n, i) => addRefetch n true i s1
    | none => s1
  else
    match s1.eng.pass.bind fun p => epochOf s1 p.epoch with
    | some e => match chunkAt e.man ci 6 off with
      | some i => addRefetch e.number false i s1
      | none => s1
    | none => s1

/-- The units that failed in this run and in an earlier one, with no write between (R223). -/
def againUnits (lp : LayerPass) : List (ClusterId × Nat × Nat) := lp.memAgain

/-- The code with which R223 ends the pass, if it does. DESIGN CHOICE (log entry 85): where units of several regions have failed again in one
run, MEM_IMAGE_LOST goes before MEM_CHECK, and either before the units that R223 mends. -/
def memEnd (us : List (ClusterId × Nat × Nat)) : Option (BitVec 16) :=
  if us.any fun u => u.2.1 == 0 || u.2.1 == 7 then some 0x0406
  else if us.any fun u => u.2.1 == 1 || u.2.1 == 3 || u.2.1 == 5 then some 0x0402
  else none

/-- Every DMA write to region 1 that a core has begun is complete: a pass signals its completion only then (R45, R213). -/
def stagingWritten (s : State) : Bool :=
  s.cores.all fun e => e.2.units.dmaRun.all fun o => !(o.write && o.region == 1) || decide (o.rows * o.len / 64 ≤ o.next)

/-- Work ended under R478. -/
def noteLimit (s : State) : State := { s with flt := { s.flt with limit := incW s.flt.limit } }

/-- The image that memory held is lost (R223, R485). -/
def loseImage (s : State) : State := msix 0 { s with eng := { s.eng with imageLost := true } }

/-! ### Disposition (R198, R223, R478) -/

/-- A load slice ends with a code: with it the load (R263), or the refetch of the chunks that it carried. -/
def endSlice (lp : LayerPass) (code : BitVec 16) (s : State) : State :=
  match lp.loadOf with
  | none => s
  | some (a, n) =>
    if s.wts.load.any fun l => l.adapter == a && l.number == n then endLoad code s
    else refetchFails ⟨0, by omega⟩ a n code (lp.chunks.headD 0) s

/-- A re-run that needs weight chunks fetched again first is put aside until they are loaded; the port dies fetch them (R223, R249). -/
def parkLp (s : State) : State :=
  if !(s.eng.lp.any fun lp => lp.kind == .work) then s
  else fetchAll { s with eng := { s.eng with parked := s.eng.lp, lp := none } }

/-- A re-run after the units that failed again are mended: it waits for the chunks that this has fetched again (R223). -/
def rerunMended (us : List (ClusterId × Nat × Nat)) (s : State) : State :=
  let s1 := us.foldl (fun s u => mendUnit u s) s
  if s1.wts.refetch == s.wts.refetch then rerunLp s1 else parkLp (rerunLp s1)

/-- The work of the layer pass ends with a code. -/
def endWork (code : BitVec 16) (s : State) : State :=
  match s.eng.lp with
  | none => s
  | some lp => match lp.kind with
    | .load => endSlice lp code (s.setLp none)
    | .coll => s.setLp none
    | .work => endPass code (s.setLp none)

/-- The disposition of an aborted layer pass of a pass or a load by the first class present. DESIGN CHOICE (log entry 84): a fourth run that
R223 ends with a code of its own is not ended under R478. -/
def disposeLp (s : State) : State :=
  match s.eng.lp with
  | none => s
  | some lp =>
    let s0 := endTasks false s
    match lp.ext, lp.hw with
    | some code, _ => endWork code s0
    | none, some code =>
      let last := memEnd (againUnits lp)
      let beyond := decide (4 ≤ lp.runs)
      let s1 := condemnRewritten lp (siteError lp.site lp.prevSite lp.ident code (beyond && last.isNone) s0)
      match last with
      | some c => endWork c (if c = 0x0406 then loseImage s1 else s1)
      | none =>
        if beyond then endWork code (noteLimit ((againUnits lp).foldl (fun s u => mendUnit u s) s1))
        else rerunMended (againUnits lp) s1
    | none, none => endWork lp.first s0

end Sys2Proof.Machine
end

