-- ==== Sys2Proof/Machine/Collective.lean ====
section
/-! DEFINITION. Collective instances: their decisions on leader and members, their descriptors and bindings, their frames
(R333 to R339, R342, R350 to R361). -/

namespace Sys2Proof.Machine

open Sys2Proof

/-! ### Records (R363) -/

/-- Whether COLL_ERR can hold a code: one of R362, or EPOCH_STALE (R363). -/
def collCode (code : BitVec 16) : Bool := (decide (0x0801 ≤ code.toNat) && decide (code.toNat ≤ 0x0808)) || code == 0x0503

/-- COLL_ERR and COLL_ERR_ID, if VALID is clear and the code is one that they hold; CLASS 3 is a record only. -/
def collErr (k : Inst) (cls : Nat) (code : BitVec 16) (s : State) : State :=
  let c := s.coll
  if bitOf c.err.toNat 31 || !collCode code then s
  else
    let id := match k.id with | .queue t => t | .bound p _ _ => p
    { s with coll := { c with
      err := BitVec.ofNat 32 (put 1 31 + put cls 29 + put (b2n k.bound) 28 + code.toNat), errId := id } }

def classNo : AbortClass → Nat
  | .hardware => 0
  | .external => 1
  | .program => 2

def classAt : Nat → AbortClass
  | 0 => .hardware
  | 1 => .external
  | _ => .program

/-- COLL_ALREADY_COMPLETE: counted in COLL_LATE and recorded (R356). -/
def takeAlready (k : Inst) (s : State) : State :=
  collErr k 3 0x0803 { s with coll := { s.coll with late := incW s.coll.late } }

/-! ### Sending -/

/-- A control frame to a member. -/
def collCtl (k : Inst) (ty cls status value dst : Nat) (s : State) : State :=
  let id := (k.members.getD dst 0).toNat
  sendRoot id (collHeader s k ty 0 cls (match k.id with | .queue t => t.toNat | _ => 0) id 0 0 0 0 status 0 value) s

/-- A control frame to every member but this one. -/
def collAll (k : Inst) (ty cls status : Nat) (s : State) : State :=
  (List.range k.n).foldl (fun s i => if i = k.me then s else collCtl k ty cls status 0 i s) s

/-! ### The member (R342, R354, R355) -/

/-- The contents of DST are undefined after an abort (R338). -/
def loseDst (k : Inst) (s : State) : State :=
  let h := dField k.desc 0x48 8
  let n := (collOp false k.desc).resultBytes k.n
  if s.eng.cfg.window && decide (h + n ≤ winBytes) then loseWindow h n s else s

/-- A decided queue instance completes its descriptor. -/
def queueEnds (k : Inst) (code : BitVec 16) (s : State) : State :=
  let s0 := putInst { k with st := if code = 0 then .committed else .closed, held := [], results := [] } s
  let s1 := if code = 0 then s0 else loseDst k s0
  let c := s1.coll
  let s2 : State := if code = 0x0801 then { s1 with coll := { c with timeouts := incW c.timeouts } } else s1
  match k.q with
  | some (q, i) => completeAt q i code s2
  | none => s2

/-- Whether the layer pass in flight is a bound one of an instance. -/
def isBoundLp (s : State) (id : CollId) : Bool := s.eng.lp.any fun lp => lp.kind == .work && lp.inst == some id

/-- COMMIT taken at this member. -/
def memberCommit (k : Inst) (s : State) : State :=
  if k.st = .committed ∨ k.st = .closed then s
  else if !k.bound then queueEnds k 0 s
  else if isBoundLp s k.id && s.eng.lp.any (fun lp => lp.decision == .prepared) then
    commitLp (putInst { k with st := .committed, held := [] } s)
  else s

/-- DIGEST (R352). -/
def collDigest (k : Inst) : BitVec 32 :=
  let zeroed (d : BitVec 1024) : List Byte :=
    (List.range 96).map fun i =>
      let o := 0x20 + i
      if (0x30 ≤ o ∧ o < 0x38) ∨ (0x40 ≤ o ∧ o < 0x50) then 0 else BitVec.ofNat 8 (dField d o 1)
  let ds := if k.bound then k.binds.map (·.desc) else [k.desc]
  crc32c (ds.flatMap zeroed ++ k.members.flatMap fun m => leBytes 2 m.toNat)

/-- A queue instance begins its next attempt (R355). Its escalation lasts until it is decided (R358). -/
def nextAttempt (k : Inst) (s : State) : State :=
  let barrier := dField k.desc 0x20 1 == 0
  let k1 : Inst := { k with
    attempt := k.attempt + 1, st := .opened, lead := .opened, first := 0, hw := none, ext := none, prog := none,
    joins := [], ready := if barrier && k.me == 0 then [0] else [], acks := [], sentReady := barrier,
    held := [], results := [], resDone := 0, moved := false, sent := 0, ahead := [] }
  let s1 := k.ahead.foldl (fun s c => takeChunk k.id c s) (putInst k1 s)
  if k.me = 0 then s1
  else
    let s2 := collCtl k1 2 0 0 k1.digest.toNat 0 s1
    if barrier then collCtl k1 3 0 0 0 0 s2 else s2

/-- A bound layer pass closes as DISPOSE says (R342, R355). The hardware error of another member, with which the fourth run ends, is one off
the module (R478, R496). -/
def closeBound (s : State) : State :=
  match s.eng.lp with
  | none => s
  | some lp => match lp.dispose with
    | none => s
    | some out =>
      let s0 := endTasks false s
      let f (s : State) : State :=
        match lp.hw with
        | some code => siteError lp.site lp.prevSite lp.ident code (out.isSome && decide (4 ≤ lp.runs)) s
        | none => match out with
          | none => { s with flt := { s.flt with hw := incW s.flt.hw } }
          | some code => if classOf code = .hardware then siteError .none .none lp.ident code true s else s
      match out with
      | some code => endWork code (if classOf code = .hardware then noteLimit (condemnRewritten lp (f s0)) else s0)
      | none => rerunMended (againUnits lp) (condemnRewritten lp (f s0))

/-- DISPOSE taken at this member: a code that ends the instance, or a re-run. -/
def memberDispose (k : Inst) (out : Option (BitVec 16)) (s : State) : State :=
  if k.st = .committed ∨ k.st = .closed then s
  else if !k.bound then
    match out with
    | some code => queueEnds k code (collErr k (classNo (classOf code)) code s)
    | none => nextAttempt k s
  else
    let s1 := putInst { k with st := .closed, held := [] } s
    let s2 := match out with
      | some code =>
        let c := s1.coll
        collErr k (classNo (classOf code)) code (if code = 0x0801 then { s1 with coll := { c with timeouts := incW c.timeouts } } else s1)
      | none => s1
    if !isBoundLp s2 k.id then s2
    else match s2.eng.lp with
      | none => s2
      | some lp =>
        let l1 : LayerPass := { lp with dispose := some out }
        if lp.acked then closeBound (s2.setLp (some l1))
        else if lp.decision = .aborted then s2.setLp (some l1)
        else openAbort (out.getD 0x0807) (s2.setLp (some (noteCause .external (out.getD 0x0807) l1)))

/-! ### The leader (R354, R355) -/

/-- The outcome by the first class present: a code, or a re-run. A queue instance has at most four attempts, and a bound one as
many runs as R477 allows. -/
def leaderOutcome (k : Inst) (s : State) : Option (BitVec 16) :=
  match k.ext, k.hw with
  | some code, _ => some code
  | none, some code =>
    if k.bound then (if s.eng.lp.any fun lp => decide (4 ≤ lp.runs) then some code else none)
    else if 3 ≤ k.attempt then some 0x0807 else none
  | none, none => some 0x0802

/-- The leader's decision is CLOSED, and DISPOSE is sent with an outcome. -/
def leaderEnd (k : Inst) (out : Option (BitVec 16)) (s : State) : State :=
  let s1 := putInst { k with lead := .closed } s
  let s2 := collAll k 7 (b2n out.isSome) (out.getD 0).toNat s1
  match instAt s2 k.id with
  | some x => memberDispose x out s2
  | none => s2

/-- Every ABORT_ACK is in, or their time is up. -/
def leaderDispose (k : Inst) (s : State) : State := leaderEnd k (leaderOutcome k s) s

/-- ABORT_ACK of a member taken by the leader: with every member's in, it disposes (R354). -/
def leaderAck (k : Inst) (i : Nat) (s : State) : State :=
  if k.lead ≠ .aborted then s
  else
    let k1 : Inst := { k with acks := if k.acks.contains i then k.acks else k.acks ++ [i] }
    if k.started ∧ k1.acks.length = k.n then leaderDispose k1 (putInst k1 s) else putInst k1 s

/-- The leader's ABORT taken at this member: a queue instance answers ABORT_ACK, the leader its own, and a bound one once its own are in. -/
def memberAbort (k : Inst) (code : BitVec 16) (cls : Nat) (s : State) : State :=
  let s0 := collErr k cls code s
  if !k.started ∨ (k.st ≠ .opened ∧ k.st ≠ .prepared) then s0
  else
    let k1 : Inst := { k with st := .aborted, held := [], results := [] }
    if !k.bound then
      if k.me = 0 then leaderAck k1 0 (putInst k1 s0)
      else collCtl k1 6 0 0 0 0 (putInst k1 s0)
    else
      let s1 := putInst k1 s0
      match s1.eng.lp with
      | some lp =>
        if isBoundLp s1 k.id && (lp.decision == .opened || lp.decision == .prepared) then
          openAbort code (s1.setLp (some (noteCause (classAt cls) code lp)))
        else s1
      | none => s1

/-- An abort that the leader takes. -/
def leaderAbort (k : Inst) (code : BitVec 16) (cls : Nat) (s : State) : State :=
  let note (k : Inst) : Inst :=
    match cls with
    | 0 => { k with hw := k.hw.or (some code) }
    | 1 => { k with ext := k.ext.or (some code) }
    | _ => { k with prog := k.prog.or (some code) }
  match k.lead with
  | .opened =>
    let k1 : Inst := { note k with lead := .aborted, first := code, acks := [] }
    let s1 := collAll k1 5 cls code.toNat (collErr k1 cls code (putInst k1 s))
    memberAbort k1 code cls s1
  | .aborted => putInst (note k) s
  | .committed => takeAlready k (collAll k 8 0 0x0803 s)
  | _ => s

/-- READY taken by the leader: with every member's in, COMMIT. -/
def leaderReady (k : Inst) (i : Nat) (s : State) : State :=
  if k.lead ≠ .opened then s
  else
    let k1 : Inst := { k with ready := if k.ready.contains i then k.ready else k.ready ++ [i] }
    if k.started ∧ k1.ready.length = k.n then
      let k2 : Inst := { k1 with lead := .committed }
      memberCommit k2 (collAll k2 4 0 0 (putInst k2 s))
    else putInst k1 s

/-- The leader compares a JOIN with its own (R352). Where both EPOCH and DIGEST differ it takes both aborts, the external one first (R354). -/
def joinCheck (k : Inst) (i : Nat) (digest : BitVec 32) (epoch : BitVec 16) (s : State) : State :=
  if digest = k.digest ∧ epoch = k.epoch then putInst { k with joins := k.joins ++ [(i, digest, epoch)] } s
  else
    let s1 := if epoch = k.epoch then s else leaderAbort k 0x0503 1 s
    if digest = k.digest then s1 else leaderAbort ((instAt s1 k.id).getD k) 0x0805 2 s1

/-- An abort that this member asks for, which it records once the leader answers (R356), or raises as the leader. -/
def raiseInst (id : CollId) (code : BitVec 16) (cls : Nat) (s : State) : State :=
  match instAt s id with
  | none => s
  | some k =>
    if !k.undecided then s
    else if k.me = 0 then leaderAbort k code cls s
    else collCtl k 5 cls code.toNat 0 0 s

/-- READY of this member. -/
def sendReady (k : Inst) (s : State) : State :=
  let k1 : Inst := { k with sentReady := true }
  let s1 := putInst k1 s
  if k.me = 0 then leaderReady k1 0 s1 else collCtl k1 3 0 0 0 0 s1

/-- A queue instance that has written its results and whose contributions are acknowledged sends READY (R354). -/
def settleOne (k : Inst) (s : State) : State :=
  if k.bound || !k.started || k.st != .opened || k.sentReady then s
  else
    let noOwn := k.ops.all fun o => o.ownBlocks k.n k.me == 0
    if (k.moved || noOwn) && contribSent k && resultsDone k && !dataPending s k then sendReady k s else s

def collSettle (s : State) : State :=
  s.coll.insts.foldl (fun s k => match instAt s k.id with | some x => settleOne x s | none => s) s

/-! ### Starting (R338, R352, R357, R360) -/

/-- An instance starts on this engine: what frames brought before is kept, and JOIN is sent. -/
def beginInst (k : Inst) (s : State) : State :=
  let old := instAt s k.id
  let early := match old with | some x => if x.started then none else some x | none => none
  let k0 : Inst := { k with started := true, digest := collDigest k }
  let k1 : Inst := match early with
    | some x => { k0 with
        lead := x.lead, first := x.first, hw := x.hw, ext := x.ext, prog := x.prog, ready := x.ready, acks := x.acks }
    | none => k0
  let s1 := putInst k1 s
  if k1.me ≠ 0 then collCtl k1 2 0 0 k1.digest.toNat 0 s1
  else
    let joins := match early with | some x => x.joins | none => []
    let compare (s : State) : State :=
      joins.foldl (fun s j => match instAt s k.id with | some y => joinCheck y j.1 j.2.1 j.2.2 s | none => s) s
    if k1.lead = .aborted then
      let s2 := compare (collAll k1 5 (match k1.ext, k1.hw with | some _, _ => 1 | none, some _ => 0 | _, _ => 2) k1.first.toNat s1)
      memberAbort ((instAt s2 k.id).getD k1) k1.first 1 s2
    else match early with
      | none => s1
      | some x => compare (x.held.foldl (fun s c => takeChunk k.id c s) s1)

/-- Whether a member set holds an engine of the lost list (R360). -/
def anyLost (s : State) (ms : List (BitVec 14)) : Bool := ms.any fun m => s.coll.lost.contains m

/-- Whether a set that a SET operand names has lost a member whom software has not replaced yet: the span until an image is installed, the
group until the CURRENT epoch's scale table gives another membership, and a list while it names an engine of the lost list (R35, R360, R361;
log entry 78). -/
def setGone (s : State) (set : Nat) (ms : List (BitVec 14)) : Bool :=
  anyLost s ms || match set with
    | 0 => s.coll.spanGone
    | 1 => ms.any fun m => s.coll.groupGone.contains m
    | _ => false

/-- The members of the installed image's span. -/
def spanMembers (s : State) : List (BitVec 14) :=
  match s.eng.image with
  | some im => im.span.map fun x => x.setWidth 14
  | none => []

/-- The members of the CURRENT epoch's group. -/
def groupMembers (s : State) : List (BitVec 14) :=
  match s.wts.current.bind fun e => e.man.scale with
  | some t => t.members.map Prod.fst
  | none => []

/-- An engine put on the lost list, and noted as lost to the span and the group that it belongs to. -/
def noteLost (id : BitVec 14) (s : State) : State :=
  let c := s.coll
  let c1 : Coll := if c.lost.contains id then c else { c with lost := c.lost ++ [id], lastLost := id }
  { s with coll := { c1 with
    spanGone := c.spanGone || (spanMembers s).contains id,
    groupGone := if (groupMembers s).contains id && !c.groupGone.contains id then c.groupGone ++ [id] else c.groupGone } }

/-- The pass in flight of a span that has lost a member commits no further: it ends with MEMBER_REMOVED, and its layer pass is aborted unless
a bound instance decides it (R35). -/
def loseSpanPass (id : BitVec 14) (s : State) : State :=
  if s.eng.pass.isNone || !(spanMembers s).contains id || id == s.eng.cfg.engineId then s
  else
    let s1 : State := { s with eng := { s.eng with pass := s.eng.pass.map fun p => { p with spanLost := true } } }
    if s.coll.insts.any fun k => k.bound && k.undecided && isBoundLp s k.id then endPassBy 0x0804 s1
    else shuttleAbort 0x0804 s1

/-- An engine is lost (R35, R360). -/
def memberLost (id : BitVec 14) (s : State) : State :=
  let s1 := noteLost id s
  loseSpanPass id (s1.coll.insts.foldl (fun s x =>
    match instAt s x.id with
    | none => s
    | some k =>
      if !k.undecided || !k.members.contains id || id == s.eng.cfg.engineId then s
      else if k.members.head? = some id then memberDispose k (some 0x0804) s
      else raiseInst k.id 0x0804 1 s) s1)

/-! ### Descriptors (R333, R335, R337, R338) -/

/-- The member set of a COLLECTIVE, if it can be formed. -/
def formSet (s : State) (d : BitVec 1024) (list : List (BitVec 16)) : Option (List (BitVec 14)) :=
  let me := s.eng.cfg.engineId
  let own (least : Nat) (ms : List (BitVec 14)) : Option (List (BitVec 14)) :=
    if least ≤ ms.length ∧ ms.contains me then some ms else none
  match dField d 0x21 1 with
  | 0 => own 2 (spanMembers s)
  | 1 => own 1 (groupMembers s)
  | 2 =>
    let ms := list.map fun (x : BitVec 16) => (x.setWidth 14 : BitVec 14)
    if ms.length = dField d 0x2E 2 ∧ ms.length ≤ 16384 ∧ ms.eraseDups.length = ms.length then own 2 ms else none
  | _ => none

/-- Whether every operand of a COLLECTIVE is in range (R335, R337), given the number of members. -/
def collOperandOk (s : State) (d : BitVec 1024) (n : Nat) (me : Nat) : Bool :=
  let g := dField d
  let op := g 0x20 1
  let kind := if op = 4 then g 0x5E 1 else op
  let data := op ≠ 0 ∧ op ≠ 5
  let queue := op < 4
  let o := collOp (op == 4) d
  let srcLen := o.ownBlocks n me * o.block
  let t := g 0x28 4
  let c := g 0x3C 4
  decide (op ≤ 5) && decide (g 0x21 1 ≤ 2)
  && (if data ∧ kind = 3 then g 0x22 1 == 0 || g 0x22 1 == 10 else g 0x22 1 == 0)
  && (g 0x23 1 == 0 || (decide (2 ≤ g 0x23 1) && decide (g 0x23 1 ≤ 128)))
  && (t == 0 || (decide (1000 ≤ t) && decide (t ≤ 10000000)))
  && (!decide (data ∧ kind = 1) || decide (g 0x2C 2 < n))
  && (if g 0x21 1 = 2 then decide (2 ≤ g 0x2E 2) && decide (g 0x2E 2 ≤ 16384) && g 0x30 8 % 8 == 0 else g 0x2E 2 == 0)
  && (!decide data || (decide (32 ≤ o.block) && decide (o.block ≤ 268435456) && o.block % 32 == 0))
  && (!decide data || c == 0 || (c % 4096 == 0 && decide (4096 ≤ c) && decide (c ≤ 1048576)))
  && bits (g 0x53 1) 7 3 == 0 && g 0x5F 1 == 0 && g 0x64 28 == 0
  && (op != 4 || (decide (g 0x52 1 ≤ 7) && g 0x54 4 % 32 == 0 && decide (1 ≤ kind) && decide (kind ≤ 3) && g 0x60 4 % 32 == 0))
  && (g 0x23 1 == 0 || kind == 0 || kind == 1 || op == 5 || n % g 0x23 1 == 0)
  && (!decide queue || s.eng.cfg.window)
  && (!decide (queue ∧ data) || (decide (g 0x40 8 + srcLen ≤ winBytes) && decide (g 0x48 8 + o.resultBytes n ≤ winBytes)
    && g 0x40 8 % 32 == 0 && g 0x48 8 % 32 == 0))

/-- The member index of this engine. -/
def myIndex (s : State) (ms : List (BitVec 14)) : Nat := ms.findIdx fun m => m == s.eng.cfg.engineId

/-- A queue COLLECTIVE that is dispatched. -/
def startColl (q : QueueId) (list : List (BitVec 16)) (f : Fetched) (s : State) : State :=
  match formSet s f.d list with
  | none => complete q f 0x0806 s
  | some ms =>
    if setGone s (dField f.d 0x21 1) ms then complete q f 0x0804 s
    else
      let me := myIndex s ms
      let ok := collOperandOk s f.d ms.length me
      let barrier := dField f.d 0x20 1 == 0
      let id : CollId := .queue (BitVec.ofNat 32 (dField f.d 0x24 4))
      let s1 := beginInst { id := id, members := ms, me := me, desc := f.d, q := some (q, f.ticket) } s
      if !ok then raiseInst id 0x0806 2 s1
      else match instAt s1 id with
        | some k => if barrier && k.st == .opened then sendReady k s1 else collSettle s1
        | none => s1

/-- Whether a queue COLLECTIVE must wait: 16 are undecided, or one with its TAG is (R334, R338). -/
def collWaits (s : State) (d : BitVec 1024) : Bool :=
  let qs := s.coll.insts.filter fun k => !k.bound && k.undecided
  decide (16 ≤ qs.length) || qs.any fun k => k.id == .queue (BitVec.ofNat 32 (dField d 0x24 4))

/-- The dispatch of a queue COLLECTIVE with one OP; one with an OP that is not used is dispatched by any. -/
def execColl (op : Nat) (q : QueueId) (list : List (BitVec 16)) (s : State) : Res :=
  let fits (d : BitVec 1024) : Bool := dField d 0x20 1 == op || decide (6 ≤ dField d 0x20 1)
  match headOf s q 3 with
  | some f => if fits f.d && collWaits s f.d then .next s else .next (dispatch q 3 fits (startColl q list) s)
  | none => .next (dispatch q 3 fits (startColl q list) s)

def execBarrier (q : QueueId) (list : List (BitVec 16)) (s : State) : Res := execColl 0 q list s
def execBroadcast (q : QueueId) (list : List (BitVec 16)) (s : State) : Res := execColl 1 q list s
def execAllGather (q : QueueId) (list : List (BitVec 16)) (s : State) : Res := execColl 2 q list s
def execReduceScatter (q : QueueId) (list : List (BitVec 16)) (s : State) : Res := execColl 3 q list s

/-! ### Bindings (R339) -/

/-- The bindings in force and those that wait for a pass boundary. -/
def allBindings (s : State) : List Binding :=
  s.coll.bindings ++ (s.coll.binds.filter fun b => b.1).map fun b => b.2.1

/-- TIMEOUT_US in force: 50,000 where the operand is 0 (R335). -/
def timeoutUs (d : BitVec 1024) : Nat := if dField d 0x28 4 = 0 then 50000 else dField d 0x28 4

/-- The checks of a BIND beside the bindings `bs`. -/
def bindOk (s : State) (im : Image) (bs : List Binding) (d : BitVec 1024) (n me : Nat) : Bool :=
  let g := dField d
  let entry := g 0x50 2
  let same := bs.filter fun b => b.entry == entry
  let lo := g 0x54 4
  let len := bindIntake n me d
  let sketches := match s.wts.current.bind fun e => e.man.scale with | some t => t.sketches | none => []
  let flowOk (p : Nat) : Bool :=
    match (im.layers[entry]?).bind fun e => planAt im p e.plan with
    | none => false
    | some pl => match ingressFlow pl (g 0x58 2) with
      | some (_, f) => f.srcGy == 0xC0 + g 0x52 1
      | none => false
  g 0x21 1 == 0
  && (match im.layers[entry]? with | some e => lfSplit e | none => false)
  && decide (same.length < 4) && decide (bs.length < 64)
  && same.all (fun b => timeoutUs b.desc == timeoutUs d)
  && (placesOf im).all flowOk
  && !(sketches.any fun k => k.entry == entry && k.die == g 0x52 1 && overlap lo len k.intakeOff (4 * k.rows * k.cols))
  && !(same.any fun b => dField b.desc 0x52 1 == g 0x52 1 && overlap lo len (dField b.desc 0x54 4) (bindIntake n me b.desc))
  && decide (lo + len ≤ 64 * mib)

/-- BIND or UNBIND dispatched: held until the next pass boundary. -/
def startBind (make : Bool) (q : QueueId) (list : List (BitVec 16)) (f : Fetched) (s : State) : State :=
  match s.eng.image, formSet s f.d list with
  | some im, some ms =>
    let me := myIndex s ms
    if collOperandOk s f.d ms.length me && (!make || bindOk s im (allBindings s) f.d ms.length me) then
      let b : Binding := ⟨dField f.d 0x50 2, BitVec.ofNat 32 (dField f.d 0x24 4), f.d⟩
      { s with coll := { s.coll with binds := s.coll.binds ++ [(make, b, q, f.ticket)] } }
    else complete q f 0x0806 s
  | _, _ => complete q f 0x0806 s

def execBind (q : QueueId) (list : List (BitVec 16)) (s : State) : Res :=
  .next (dispatch q 3 (fun d => dField d 0x20 1 == 4 || decide (6 ≤ dField d 0x20 1)) (startBind true q list) s)

def execUnbind (q : QueueId) (list : List (BitVec 16)) (s : State) : Res :=
  .next (dispatch q 3 (fun d => dField d 0x20 1 == 5 || decide (6 ≤ dField d 0x20 1)) (startBind false q list) s)

/-- Whether a BIND that has waited still passes the checks of R337 and R339: an image may have been installed since. -/
def bindHolds (s : State) (d : BitVec 1024) : Bool :=
  match s.eng.image, formSet s d [] with
  | some im, some ms =>
    let me := myIndex s ms
    collOperandOk s d ms.length me && bindOk s im s.coll.bindings d ms.length me
  | _, _ => false

/-- At a pass boundary, each BIND and UNBIND takes effect and completes. -/
def applyBinds (s : State) : State :=
  let one (s : State) (x : Bool × Binding × QueueId × Nat) : State :=
    let c := s.coll
    let rest := c.bindings.filter fun b => !(b.entry == x.2.1.entry && b.tag == x.2.1.tag)
    let s0 : State := { s with coll := { c with bindings := rest } }
    if !x.1 then completeAt x.2.2.1 x.2.2.2 0 s0
    else if bindHolds s0 x.2.1.desc then
      completeAt x.2.2.1 x.2.2.2 0 { s with coll := { c with bindings := rest ++ [x.2.1] } }
    else completeAt x.2.2.1 x.2.2.2 0x0806 s
  s.coll.binds.foldl one { s with coll := { s.coll with binds := [] } }

/-- The bindings of a layer entry, in increasing TAG. -/
def entryBindings (s : State) (entry : Nat) : List Binding :=
  let insert (l : List Binding) (b : Binding) : List Binding :=
    l.filter (fun x => decide (x.tag.toNat < b.tag.toNat)) ++ b :: l.filter fun x => decide (b.tag.toNat ≤ x.tag.toNat)
  (s.coll.bindings.filter fun b => b.entry == entry).foldl insert []

/-- The bound instance of a layer pass that starts (R352); a lost member ends the pass instead (R360). -/
def startBound (s : State) : State :=
  match s.eng.lp, s.eng.pass, s.eng.image with
  | some lp, some p, some im =>
    let bs := entryBindings s lp.entry
    let ms : List (BitVec 14) := im.span.map fun x => x.setWidth 14
    if lp.kind ≠ .work ∨ bs.isEmpty then s
    else if setGone s 0 ms then shuttleAbort 0x0804 (s.setLp (some { lp with inst := none }))
    else
      let seq := BitVec.ofNat 32 (passSeq p)
      let id : CollId := .bound seq (BitVec.ofNat 16 lp.entry) (lp.runs - 1)
      let live (k : Inst) : Bool := match k.id with | .bound q _ _ => q == seq | .queue _ => true
      let c := s.coll
      let s1 : State := { s with coll := { c with insts := c.insts.filter live } }
      beginInst { id := id, members := ms, me := myIndex s ms, binds := bs, epoch := p.epoch }
        (s1.setLp (some { lp with inst := some id }))
  | _, _, _ => s

/-- Every local ABORT_ACK is in: a bound member answers the leader (R342). -/
def boundAcked (s : State) : State :=
  match s.eng.lp.bind fun lp => if lp.kind = .work then lp.inst else none with
  | none => s
  | some id => match instAt s id with
    | none => s
    | some k => if k.me = 0 then leaderAck k 0 s else collCtl k 6 0 0 0 0 s

/-- The stitch plan ends: routers and port dies fire no more (R161). -/
def stopPlan (s : State) : State :=
  { s with
    cores := s.cores.map fun e => (e.1, { e.2 with router := { e.2.router with running := false } }),
    dies := s.dies.map fun x => { x with running := false } }

/-- The layer-end barrier of a bound layer pass has completed without a slip: its plan has ended, and it is PREPARED (R161, R342). -/
def boundPrepared (id : CollId) (s : State) : State :=
  match s.eng.lp, instAt s id with
  | some lp, some k =>
    let k1 : Inst := { k with st := .prepared }
    sendReady k1 (putInst k1 (stopPlan (s.setLp (some { lp with decision := .prepared }))))
  | _, _ => s

/-! ### Frames (R350, R351) -/

/-- The checks of MAGIC, VERSION, TYPE, the RSVD fields, LENGTH and PAYLOAD_CRC. -/
def collOk (h : BitVec 512) (ty : Nat) (pay : List Byte) : Bool :=
  hf h 0 2 == magicCl && hf h 2 1 == 1 && hf h 3 1 == ty && bits (hf h 4 1) 7 3 == 0 && hf h 7 1 == 0 && hf h 0x33 13 == 0
    && hf h 0x20 4 == pay.length && hf h 0x24 4 == (if pay.isEmpty then 0 else (crc32c pay).toNat)

/-- Whether a frame names an instance: one of a queue by its TAG alone (R334). -/
def collNames (h : BitVec 512) (k : Inst) : Bool :=
  match k.id with
  | .queue t => !bitOf (hf h 4 1) 1 && hf h 8 4 == t.toNat
  | .bound p e a => bitOf (hf h 4 1) 1 && hf h 0xC 4 == p.toNat && hf h 0x10 2 == e.toNat && hf h 6 1 == a % 256

def collFind (s : State) (h : BitVec 512) : Option Inst := s.coll.insts.find? (collNames h)

/-- Whether a frame belongs to the attempt that an instance is in. -/
def thisAttempt (h : BitVec 512) (k : Inst) : Bool := k.bound || hf h 6 1 == k.attempt

def collStale (s : State) : State := { s with coll := { s.coll with stale := incW s.coll.stale } }

/-- A frame taken, its sender heard from. -/
def collTake (d : DieId) (h : BitVec 512) (pay : List Byte) (s : State) : State :=
  heardFrom (hf h 0x14 2 % 16384) (takeFrame d (hdrBytes h ++ pay) s)

/-- COLL_FRAME for an instance whose frame is discarded or lost (R351, R383). -/
def collFrameLost (d : DieId) (k : Inst) (s : State) : State :=
  if !k.undecided then s
  else if k.bound then (if isBoundLp s k.id then dieAbort d 0x0807 s else s)
  else raiseInst k.id 0x0807 0 s

/-- A frame that fails the checks is discarded; one that was due is a fault. -/
def collBad (d : DieId) (h : BitVec 512) (s : State) : State :=
  match collFind s h with
  | some k => collFrameLost d k s
  | none => s

/-- The identity that a frame's header spells. -/
def collIdOf (h : BitVec 512) : CollId :=
  if bitOf (hf h 4 1) 1 then .bound (BitVec.ofNat 32 (hf h 0xC 4)) (BitVec.ofNat 16 (hf h 0x10 2)) (hf h 6 1)
  else .queue (BitVec.ofNat 32 (hf h 8 4))

/-- Whether a frame of a type, which names no instance here, is the first of an instance that this engine leads (R357): JOIN, READY, or the
ABORT of another member go to the leader only, and DATA of a bound instance may come to it, the head of its span. DATA of a queue instance
names nothing that makes this engine its leader (DEDUCED, log entry 78). -/
def firstAtLeader (s : State) (h : BitVec 512) (ty : Nat) : Bool :=
  let bound := bitOf (hf h 4 1) 1
  let head := !bound || (spanMembers s).head? == some s.eng.cfg.engineId
  head && (ty == 2 || ((ty == 3 || ty == 5) && hf h 0x18 2 != 0) || (ty == 1 && bound))

/-- What the leader keeps of an instance before its own start. -/
def earlyInst (h : BitVec 512) : Inst := { id := collIdOf h }

/-- A control frame that names an instance. One of another attempt of a queue instance than the present one changes nothing
(DEDUCED, log entry 78). -/
def execCtl (d : DieId) (h : BitVec 512) (ty : Nat) (run : Inst → State → State) (s : State) : Res :=
  let s0 := collTake d h [] s
  if !collOk h ty [] then .next (collBad d h s0)
  else match collFind s0 h with
    | some k => .next (if thisAttempt h k then run k s0 else s0)
    | none => .next (if firstAtLeader s0 h ty then run (earlyInst h) (putInst (earlyInst h) s0) else collStale s0)

/-- COLL_DATA: a chunk is checked and taken, and what follows of it. It stays in the receive buffer while the reduction buffer of its die has
no room for it (R343). A chunk of the next attempt of an aborted instance is kept for it. -/
def execCollData (d : DieId) (m : Msg) (s : State) : Res :=
  let h := m.hdr
  let s0 := collTake d h m.payload s
  if !collOk h 1 m.payload then .next (collBad d h s0)
  else match collFind s0 h with
    | none =>
      let k := earlyInst h
      let c : CollChunk := ⟨BitVec.ofNat 32 (hf h 8 4), some (hf h 0x18 2), hf h 0x1A 2, hf h 0x1C 4, hf h 0x2A 2, bitOf (hf h 4 1) 0, m.payload⟩
      .next (if firstAtLeader s0 h 1 then putInst { k with held := [c] } s0 else collStale s0)
    | some k =>
      let tag := if k.bound then BitVec.ofNat 32 (hf h 8 4) else match k.id with | .queue t => t | _ => 0
      let c : CollChunk := ⟨tag, some (hf h 0x18 2), hf h 0x1A 2, hf h 0x1C 4, hf h 0x2A 2, bitOf (hf h 4 1) 0, m.payload⟩
      if !k.started then .next (putInst { k with held := k.held ++ [c] } s0)
      else if !thisAttempt h k then
        .next (if k.st = .aborted ∧ hf h 6 1 = k.attempt + 1 then putInst { k with ahead := k.ahead ++ [c] } s0 else s0)
      else if k.st ≠ .opened then .next s0
      else if !k.bound && !collRoom s d m.payload.length then .next s
      else .next (collSettle (takeChunk k.id c s0))

/-- JOIN taken by the leader, which compares it or, before its own start, keeps it (R352, R357). A JOIN of a decided queue instance begins
another with its TAG. -/
def leaderJoin (h : BitVec 512) (k : Inst) (s : State) : State :=
  let idx := hf h 0x18 2
  let digest := BitVec.ofNat 32 (hf h 0x2C 4)
  let epoch := BitVec.ofNat 16 (hf h 0x12 2)
  if !k.started then putInst { k with joins := k.joins ++ [(idx, digest, epoch)] } s
  else if k.undecided then joinCheck k idx digest epoch s
  else if k.bound then s
  else putInst { earlyInst h with joins := [(idx, digest, epoch)] } s

/-- JOIN. One of a decided instance's TAG may carry any ATTEMPT of the instance that it begins. -/
def execJoin (d : DieId) (h : BitVec 512) (s : State) : Res :=
  let s0 := collTake d h [] s
  if !collOk h 2 [] then .next (collBad d h s0)
  else match collFind s0 h with
    | some k => .next (if thisAttempt h k || !k.undecided then leaderJoin h k s0 else s0)
    | none => .next (if firstAtLeader s0 h 2 then leaderJoin h (earlyInst h) s0 else collStale s0)

def execReady (d : DieId) (h : BitVec 512) (s : State) : Res := execCtl d h 3 (fun k => leaderReady k (hf h 0x18 2)) s

def execCommit (d : DieId) (h : BitVec 512) (s : State) : Res := execCtl d h 4 memberCommit s

/-- COLL_ABORT_FRAME: to the leader from a member, or to a member from the leader. -/
def execCollAbortFrame (d : DieId) (h : BitVec 512) (s : State) : Res :=
  let code := BitVec.ofNat 16 (hf h 0x28 2)
  execCtl d h 5 (fun k => if k.me = 0 then leaderAbort k code (hf h 5 1) else memberAbort k code (hf h 5 1)) s

def execCollAbortAck (d : DieId) (h : BitVec 512) (s : State) : Res :=
  execCtl d h 6 (fun k => leaderAck k (hf h 0x18 2)) s

def execDispose (d : DieId) (h : BitVec 512) (s : State) : Res :=
  let out := if hf h 5 1 = 0 then none else some (BitVec.ofNat 16 (hf h 0x28 2))
  execCtl d h 7 (fun k => memberDispose k out) s

def execAlready (d : DieId) (h : BitVec 512) (s : State) : Res := execCtl d h 8 takeAlready s

/-- A DATA frame in the escalated class: ESC stands in its FLAGS, at bit 2 of byte 4. -/
def escFrame (f : Frame) : Frame :=
  { f with ctx := 3, bytes := f.bytes.take 4 ++ [f.bytes.getD 4 0 ||| 4] ++ f.bytes.drop 5 }

/-- The DATA frames of an instance that wait on a port, none of whose flits has been sent, go to the escalated context. -/
def escQueue (k : Inst) (x : PortXfer) : PortXfer :=
  let fixed := if x.sentOf[2] = 0 then [] else x.txq[2].take 1
  let open_ := if x.sentOf[2] = 0 then x.txq[2] else x.txq[2].drop 1
  { x with
    txq := (x.txq.set 2 (fixed ++ open_.filter fun f => !dataOf k f)).set 3
      (x.txq[3] ++ (open_.filter (dataOf k)).map escFrame) }

/-- The DATA of an instance goes in the escalated class from now on, what is queued and not begun with it (R358). -/
def escalateInst (k : Inst) (s : State) : State :=
  if !k.undecided || k.esc then s
  else
    let s1 := putInst { k with esc := true } s
    { s1 with
      coll := { s1.coll with escs := incW s1.coll.escs },
      ports := s1.ports.map fun p => { p with xfer := escQueue k p.xfer } }

def execEscalate (d : DieId) (h : BitVec 512) (s : State) : Res := execCtl d h 9 escalateInst s

/-- SYNC_UPDATE: OPER with VALUE on OBJECT at the root (R182, R353). -/
def execSyncUpdate (d : DieId) (h : BitVec 512) (s : State) : Res :=
  let s0 := collTake d h [] s
  let obj := hf h 0x30 2
  let v := BitVec.ofNat 32 (hf h 0x2C 4)
  if !collOk h 10 [] then .next s0
  else if obj < 0xC000 then .next (collStale s0)
  else match hf h 0x32 1 with
    | 1 => .next (afterRoot (objAdd obj v s0))
    | 2 => .next (afterRoot (objSet obj v s0))
    | 3 => .next (afterRoot (objTarget obj v s0))
    | _ => .next s0

/-! ### Timers and requests (R354, R356 to R358, R360) -/

/-- COLL_TIMEOUT at the leader. -/
def execCollTimeout (id : CollId) (s : State) : Res :=
  match instAt s id with
  | some k => if k.me = 0 ∧ k.lead = .opened ∧ (k.undecided ∨ !k.started) then .next (leaderAbort k 0x0801 1 s) else .next s
  | none => .next s

/-- COLL_HALF_TIMEOUT: the leader sends ESCALATE to every member. -/
def execCollHalfTimeout (id : CollId) (s : State) : Res :=
  match instAt s id with
  | some k => if k.started ∧ k.me = 0 ∧ k.lead = .opened then .next (escalateInst k (collAll k 9 0 0 s)) else .next s
  | none => .next s

/-- COLL_ABORTED_TIMEOUT: an ABORT_ACK is missing, and the leader disposes without it. -/
def execCollAbortedTimeout (id : CollId) (s : State) : Res :=
  match instAt s id with
  | some k => if k.started ∧ k.me = 0 ∧ k.lead = .aborted then .next (leaderDispose k s) else .next s
  | none => .next s

/-- LEADER_SILENCE_TIMEOUT: the leader is taken as lost. -/
def execLeaderSilenceTimeout (id : CollId) (s : State) : Res :=
  match instAt s id with
  | some k =>
    if k.undecided ∧ k.me ≠ 0 then
      match k.members.head? with
      | some l => .next (memberLost l s)
      | none => .next s
    else .next s
  | none => .next s

/-- COLL_ABORT written by the host (R356). -/
def execCollAbort (tag : BitVec 32) (s : State) : Res :=
  if hostUp s then .next (raiseInst (.queue tag) 0x0802 1 s) else .next s

end Sys2Proof.Machine
end

