-- ==== Sys2Proof/Machine/Ports.lean ====
section
/-! DEFINITION. The Azram ports (chapter 12): their states, negotiation, flits, replay, leaving, and the frames lost. -/

namespace Sys2Proof.Machine

open Sys2Proof

/-! ### States and codes (R370, R383, R384) -/

def portLink (p : PortId) (f : PortLink → PortLink) (s : State) : State :=
  let x := s.ports[p.val]
  s.setPort p { x with link := f x.link }

def portCnt (p : PortId) (f : PortCnt → PortCnt) (s : State) : State :=
  let x := s.ports[p.val]
  s.setPort p { x with cnt := f x.cnt }

def portXfer (p : PortId) (f : PortXfer → PortXfer) (s : State) : State :=
  let x := s.ports[p.val]
  s.setPort p { x with xfer := f x.xfer }

/-- Whether the ports may train: from step 6 of R449 on, and not while the module powers down or is pulled (R453, R473, R492). -/
def portsPowered (s : State) : Bool := decide (5 ≤ s.boot.phase) && s.boot.powerDown == 0 && !s.boot.earlyBreak

/-- The role that a port plays: the one with which it leaves, or the one configured (R367, R382). -/
def rolePlayed (s : State) (p : PortId) : Nat := (s.ports[p.val]).link.roleWas.getD (roleOf s p)

/-- TRAIN entered: what the last link had negotiated is gone. -/
def enterTrain (p : PortId) (s : State) : State :=
  let x := s.ports[p.val]
  s.setPort p { x with
    st := .train, xfer := {},
    link := { ({} : PortLink) with
      lastCode := x.link.lastCode, err := x.link.err, serHigh := x.link.serHigh, failed := x.link.failed } }

/-- DETECT, and TRAIN at once for passive copper. -/
def enterDetect (p : PortId) (s : State) : State :=
  let x := s.ports[p.val]
  if x.passive then enterTrain p s else s.setPort p { x with st := .detect }

/-- A DARK port whose conditions hold goes to DETECT. -/
def startPort (p : PortId) (s : State) : State :=
  let x := s.ports[p.val]
  if x.st = .dark ∧ x.present ∧ !x.disable ∧ roleOf s p ≠ 0 ∧ portsPowered s then enterDetect p s else s

/-- What the owner of a lost frame does (R383). -/
def frameLost (p : PortId) (f : Frame) (s : State) : State :=
  let d := dieOfPort p
  let h := frameHdr f.bytes
  let s1 := portCnt p (fun c => { c with lost := incW c.lost }) s
  match f.ctx.val with
  | 0 => s1
  | 1 => match findStep s1 (hf h 0xC 4) with
    | some t => if t.outcome.isNone then abortReq d t none 0x0702 s1 else s1
    | none => s1
  | 4 =>
    if hf h 0 2 = magicAz then s1
    else if hf h 0 2 = magicCl ∧ hf h 3 1 = 10 then linkCode p 0x0908 s1
    else match dieFor s1 d.val with
      | some e => sendSwitch e f s1
      | none => s1
  | _ => match collFind s1 h with
    | some k => collFrameLost d k s1
    | none => s1

/-- The other ports of the die that may send a frame of this port (R369): the peer-facing ones what a peer-facing port sends, those of the
same plane a reduction frame, and every switch-facing one what else a switch-facing port sends. -/
def otherPorts (p : PortId) (f : Frame) (s : State) : List PortId :=
  let r := rolePlayed s p
  let fixed := r == 3 || hf (frameHdr f.bytes) 0 2 == magicF8
  (portsOf (dieOfPort p)).filter fun q =>
    inServicePort s q && q != p && (if fixed then rolePlayed s q == r else switchRole (rolePlayed s q))

/-- A frame not begun that another port sends in place of this one: one of the same die, or for a VC3 frame of the root the next die with a
switch-facing port (R369). With none it is lost (R383). -/
def requeue (p : PortId) (f : Frame) (s : State) : State :=
  let d := dieOfPort p
  let ps := otherPorts p f s
  if hf (frameHdr f.bytes) 0 2 = magicAz then s
  else if !ps.isEmpty then sendOn d ps f s
  else match if f.ctx = 4 ∧ rolePlayed s p ≠ 3 then dieFor s d.val else none with
    | some e => sendSwitch e f s
    | none => frameLost p f s

/-- The port has left the link: frames begun are lost, and frames not begun go to other ports. -/
def loseFrames (p : PortId) (old : PortXfer) (s : State) : State :=
  let begun := old.begun.map Prod.fst
  let waiting := (List.finRange 5).flatMap fun i =>
    let q := old.txq[i.val]
    if old.sentOf[i.val] = 0 then q else q.drop 1
  let s1 := begun.foldl (fun s f => frameLost p f s) s
  waiting.foldl (fun s f => requeue p f s) s1

/-- RETRAIN entered, at 8 lanes where `wide` says so. -/
def goRetrain (p : PortId) (wide : Bool) (s : State) : State :=
  let x := s.ports[p.val]
  s.setPort p { x with
    st := .retrain, link := { x.link with inUse := 0, wide := wide },
    cnt := { x.cnt with retrains := incW x.cnt.retrains } }

/-- After full calibration the ports of a die are widened one at a time: the next one due, unless one is in RETRAIN (R460). -/
def widenNext (d : DieId) : Nat → State → State
  | 0, s => s
  | n + 1, s =>
    let mine := (List.finRange 32).filter fun p => dieOfPort p == d
    if mine.any fun p => (s.ports[p.val]).st == .retrain then s
    else match mine.find? fun p => (s.ports[p.val]).widenDue && (s.ports[p.val]).st == .active with
      | none => s
      | some p =>
        let x := s.ports[p.val]
        let s1 := s.setPort p { x with widenDue := false }
        if x.st = .active ∧ x.link.lanes = 4 then goRetrain p true s1 else widenNext d n s1

/-- The port goes DOWN; from ACTIVE or RETRAIN that is LINK_DOWN. `code` is 0 for none. -/
def goDown (p : PortId) (code : BitVec 16) (s : State) : State :=
  let x := s.ports[p.val]
  let c : BitVec 16 := if code = 0 ∧ (x.st = .active ∨ x.st = .retrain) then 0x0901 else code
  let s1 := s.setPort p { x with
    st := .down, xfer := {}, link := { x.link with lastCode := c, lanes := 0, inUse := 0 },
    cnt := { x.cnt with downs := incW x.cnt.downs } }
  widenNext (dieOfPort p) 4 (loseFrames p x.xfer (if c = 0 then s1 else linkCode p c s1))

/-- The port goes DARK, and the next port due is widened (R460). -/
def goDark (p : PortId) (s : State) : State :=
  let x := s.ports[p.val]
  widenNext (dieOfPort p) 4 <| portLink p (fun l => { l with roleWas := none }) (loseFrames p x.xfer (s.setPort p { x with
    st := .dark, xfer := {}, link := { ({} : PortLink) with
      lastCode := x.link.lastCode, err := x.link.err, serHigh := x.link.serHigh, failed := x.link.failed,
      roleWas := x.link.roleWas } }))

/-! ### Link-control frames (R371) -/

/-- A link-control frame of this engine. The node that its ROUTE names is left open: a free value, with bit 14 zero for an engine (R376). -/
def linkFrame (s : State) (p : PortId) (ty : Nat) : Frame :=
  let r := rolePlayed s p
  let h := hdrOf [(0, 2, magicAz), (2, 1, 1), (3, 1, ty), (4, 1, 7), (6, 1, if r = 3 then 2 else 1), (7, 1, if r = 2 then 1 else 0),
    (8, 2, s.eng.cfg.engineId.toNat), (0xA, 2, p.val), (0xC, 4, 15), (0x10, 2, 1024), (0x12, 2, 512), (0x14, 2, 512),
    (0x16, 2, 64)]
  ⟨4, routeTo (if r = 3 then 0 else 1) (dieOfPort p).val 15
    ((Config.freeWord s.free).toNat % if r = 3 then 16384 else 32768), hdrBytes h⟩

def sendHello (p : PortId) (s : State) : State := (queueFrame p (linkFrame s p 1) s).took

/-! ### Flits (R376) -/

/-- The acknowledgement and credit fields that every flit carries: ACK_SEQ, ACKF and CREDITS. -/
def ackFields (x : PortXfer) : Nat :=
  let v : Fin 4 := ⟨x.credTurn % 4, Nat.mod_lt _ (by omega)⟩
  let c := x.freed[v.val].toNat
  (x.expSeq - 1).toNat + put (1 + put (b2n x.nakDue) 1 + put v.val 2 + put (c / 256) 4) 16 + put (c % 256) 24

/-- A flit with its CRC; a flit of `none` is idle. -/
def buildFlit (x : PortXfer) (f : Option TxFlit) : BitVec 2176 :=
  let vc (c : Fin 5) : Nat := if c = 4 then 3 else if c = 3 then 2 else c.val
  let body : Nat := match f with
    | none => put 1 4 + put 255 8
    | some t =>
      vc t.ctx + put (b2n t.sof) 2 + put (b2n t.eof) 3 + put (b2n (t.ctx == 3)) 5 + put t.last.toNat 8 + put t.fseq.toNat 16
        + put (if t.sof then t.route.toNat else 0) 64 + put t.payload.toNat 96
  let n := body + put (ackFields x) 32
  BitVec.ofNat 2176 (n + put (crc32c (leBytes 268 n)).toNat 2144)

/-- What a flit leaves of the transmitter's and receiver's running fields. -/
def afterFlit (x : PortXfer) : PortXfer := { x with nakDue := false, credTurn := (x.credTurn + 1) % 4 }

/-! ### Transmitting (R359, R377 to R379) -/

/-- Whether a context has a flit to send and a credit for it. -/
def ctxReady (x : PortXfer) (c : Fin 5) : Bool :=
  let vc : Fin 4 := if c = 4 then 3 else if c = 3 then 2 else ⟨c.val % 4, Nat.mod_lt _ (by omega)⟩
  !x.txq[c.val].isEmpty && decide (0 < x.credits[vc.val])

/-- The quantum of a context of the round robin. -/
def quantum (cfg : Cfg) (i : Fin 3) : Nat :=
  (match i.val with | 0 => cfg.vcWeight0 | 1 => cfg.vcWeight1 | _ => cfg.vcWeight2) * 4096

/-- Deficit round robin among VC0, VC1 and VC2: the context of the next flit. -/
def robin (cfg : Cfg) : Nat → PortXfer → Option (Fin 5 × PortXfer)
  | 0, _ => none
  | fuel + 1, x =>
    let t : Fin 3 := ⟨x.turn % 3, Nat.mod_lt _ (by omega)⟩
    let next : Fin 3 := ⟨(x.turn + 1) % 3, Nat.mod_lt _ (by omega)⟩
    let c : Fin 5 := ⟨t.val, by omega⟩
    if ctxReady x c && decide (256 ≤ x.deficit[t.val]) then
      some (c, { x with deficit := x.deficit.set t.val (x.deficit[t.val] - 256) })
    else
      let d := if x.txq[c.val].isEmpty then x.deficit.set t.val 0 else x.deficit
      robin cfg fuel { x with turn := next.val, deficit := d.set next.val (d[next.val] + quantum cfg next) }

/-- The context of the next flit (R359). Before ACTIVE only VC3 sends. -/
def chooseCtx (cfg : Cfg) (only3 : Bool) (x : PortXfer) : Option (Fin 5 × PortXfer) :=
  if 1024 ≤ x.replay.length then none
  else if ctxReady x 4 then some (4, x)
  else if only3 then none
  else if ctxReady x 3 then some (3, x)
  else if ctxReady x 0 || ctxReady x 1 || ctxReady x 2 then robin cfg 8 x
  else none

/-- The frame begun on a context has its last flit sent. -/
def markLast (c : Fin 5) (seq : BitVec 16) : List (Frame × Option (BitVec 16)) → List (Frame × Option (BitVec 16))
  | [] => []
  | (f, o) :: t => if f.ctx = c ∧ o.isNone then (f, some seq) :: t else (f, o) :: markLast c seq t

/-- The next flit of the frame at the head of a context. -/
def nextFlit (c : Fin 5) (x : PortXfer) : Option (TxFlit × PortXfer) :=
  match x.txq[c.val] with
  | [] => none
  | f :: rest =>
    let sent := x.sentOf[c.val]
    let left := f.bytes.drop (256 * sent)
    let eof := decide (left.length ≤ 256)
    let n := min 256 left.length
    let t : TxFlit := {
      fseq := x.nextSeq, ctx := c, sof := sent == 0, eof := eof, last := BitVec.ofNat 8 (n - 1), route := f.route,
      payload := BitVec.ofNat 2048 (leNat (left.take 256)) }
    let vc : Fin 4 := if c = 4 then 3 else if c = 3 then 2 else ⟨c.val % 4, Nat.mod_lt _ (by omega)⟩
    let begun := if sent = 0 then x.begun ++ [(f, none)] else x.begun
    let count := x.vc2Sent + b2n (vc == 2)
    some (t, { x with
      vc2Sent := count, owed := if eof && vc == 2 then x.owed ++ [(f, count)] else x.owed,
      txq := if eof then x.txq.set c.val rest else x.txq,
      sentOf := x.sentOf.set c.val (if eof then 0 else sent + 1),
      begun := if eof then markLast c x.nextSeq begun else begun,
      credits := x.credits.set vc.val (x.credits[vc.val] - 1),
      replay := x.replay ++ [t], nextSeq := x.nextSeq + 1 })

/-- Without the feature ESC, escalated frames go on the ordinary VC2 context (R373). -/
def foldEsc (esc : Bool) (x : PortXfer) : PortXfer :=
  if esc || x.sentOf[3] != 0 then x
  else { x with txq := (x.txq.set 2 (x.txq[2] ++ x.txq[3].map fun f => { f with ctx := 2 })).set 3 [] }

/-- FLIT_TRANSMIT: a new VC3 flit goes first, and waits for no more than the flit in progress (R359); then flits to be replayed, in their
order; then another new data flit; else an idle flit. A new VC3 flit sent during a replay is replayed in FSEQ order with the rest. -/
def execFlitTransmit (p : PortId) (s : State) : Res :=
  let port := s.ports[p.val]
  let on := port.st == .negotiate || port.st == .active || port.st == .leaving || (port.st == .retrain && port.link.inUse != 0)
  if !on then .next s
  else
    let x := foldEsc (port.link.features.getLsbD 0) port.xfer
    let again := if port.st = .retrain then [] else x.resend
    let only3 := (port.st != .active && port.st != .leaving) || !again.isEmpty
    match (chooseCtx s.eng.cfg only3 x).bind (fun r => nextFlit r.1 r.2), again with
    | some (t, x'), _ =>
      let vc : Fin 4 := if t.ctx = 4 then 3 else if t.ctx = 3 then 2 else ⟨t.ctx.val % 4, Nat.mod_lt _ (by omega)⟩
      .next ((s.setPort p { port with
          xfer := afterFlit { x' with resend := if again.isEmpty then x'.resend else x'.resend ++ [t] },
          cnt := { port.cnt with txf := port.cnt.txf.set vc.val (incW port.cnt.txf[vc.val]) } }).emit
        (.flit p (buildFlit x (some t))))
    | none, t :: rest =>
      .next ((s.setPort p { port with xfer := afterFlit { x with resend := rest } }).emit (.flit p (buildFlit x (some t))))
    | none, [] => .next ((s.setPort p { port with xfer := afterFlit x }).emit (.flit p (buildFlit x none)))

/-- A replay from the oldest unacknowledged flit; the fourth from one FSEQ starts RETRAIN (R379). -/
def startReplay (p : PortId) (s : State) : State :=
  let port := s.ports[p.val]
  match port.xfer.replay with
  | [] => s
  | t :: _ =>
    let x := port.xfer
    let runs := if x.replayRuns ≠ 0 ∧ x.replaySeq = t.fseq then x.replayRuns + 1 else 1
    let s1 := s.setPort p { port with
      xfer := { x with resend := x.replay, replaySeq := t.fseq, replayRuns := if 4 ≤ runs then 0 else runs },
      cnt := { port.cnt with replays := incW port.cnt.replays } }
    if 4 ≤ runs ∧ port.st = .active then goRetrain p (port.link.lanes == 8) (linkCode p 0x0905 s1) else s1

/-- REPLAY_TIMEOUT: ACK_SEQ has not advanced for 4 µs. -/
def execReplayTimeout (p : PortId) (s : State) : Res :=
  let port := s.ports[p.val]
  if port.st = .negotiate ∨ port.st = .active ∨ port.st = .leaving then .next (startReplay p s) else .next s

/-! ### Leaving (R382) -/

/-- The LEAVE flit, counted as every data flit, if there is a VC3 credit for it. -/
def sendLeave (p : PortId) (s : State) : State :=
  let port := s.ports[p.val]
  let x := port.xfer
  let f := linkFrame s p 2
  let t : TxFlit := {
    fseq := x.nextSeq, ctx := 4, sof := true, eof := true, last := 63, route := f.route,
    payload := BitVec.ofNat 2048 (leNat f.bytes) }
  if x.credits[3] = 0 then s
  else
    ((s.setPort p { port with
        xfer := { afterFlit x with credits := x.credits.set 3 (x.credits[3] - 1), nextSeq := x.nextSeq + 1 },
        cnt := { port.cnt with txf := port.cnt.txf.set 3 (incW port.cnt.txf[3]) } }).emit (.flit p (buildFlit x (some t)))).took

/-- LEAVE, and DARK; a port whose role still calls for it trains again. -/
def finishLeave (p : PortId) (s : State) : State := startPort p (goDark p (sendLeave p s))

/-- A leaving port whose replay buffer is empty and whose frames are all sent leaves, once it has a credit for LEAVE. -/
def checkLeave (p : PortId) (s : State) : State :=
  let port := s.ports[p.val]
  if port.st = .leaving ∧ port.xfer.replay.isEmpty ∧ port.xfer.txq.toList.all (·.isEmpty) ∧ port.xfer.credits[3] ≠ 0 then
    finishLeave p s
  else s

/-- An orderly leave begins: frames not begun go to other ports. -/
def enterLeaving (p : PortId) (s : State) : State :=
  let port := s.ports[p.val]
  if port.st ≠ .active ∧ port.st ≠ .retrain then s
  else
    let x := port.xfer
    let waiting := (List.finRange 5).flatMap fun i => if x.sentOf[i.val] = 0 then x.txq[i.val] else x.txq[i.val].drop 1
    let kept := Vector.ofFn fun (i : Fin 5) => if x.sentOf[i.val] = 0 then [] else x.txq[i.val].take 1
    let link : PortLink := { port.link with roleWas := some (rolePlayed s p) }
    let s1 := s.setPort p { port with st := .leaving, link := link, xfer := { x with txq := kept } }
    checkLeave p (widenNext (dieOfPort p) 4 (waiting.foldl (fun s f => requeue p f s) s1))

/-- Of flits in the order of their FSEQ, those up to the last VC3 flit: the partner takes a flit only after all before it. -/
def upToVc3 (l : List TxFlit) : List TxFlit := (l.reverse.dropWhile fun t => t.ctx != 4).reverse

/-- The port of a module that is pulled: it sends its VC3 frames, those not acknowledged yet among them, abandons every other frame, and
leaves (R382). -/
def pullPort (p : PortId) (s : State) : State :=
  let port := s.ports[p.val]
  if port.st ≠ .active ∧ port.st ≠ .retrain ∧ port.st ≠ .leaving then goDark p (s.setPort p { port with xfer := {} })
  else
    let x := port.xfer
    let only : Vector (List Frame) 5 := Vector.ofFn fun (i : Fin 5) => if i = 4 then x.txq[i.val] else []
    let sent : Vector Nat 5 := Vector.ofFn fun (i : Fin 5) => if i = 4 then x.sentOf[i.val] else 0
    checkLeave p (s.setPort p { port with st := .leaving, xfer := { x with
      txq := only, sentOf := sent, begun := x.begun.filter (fun b => b.1.ctx == 4), owed := [], replay := upToVc3 x.replay,
      resend := upToVc3 x.resend } })

/-- LEAVE_TIMEOUT: what is not acknowledged after 1 ms is lost. -/
def execLeaveTimeout (p : PortId) (s : State) : Res :=
  if s.ports[p.val].st = .leaving then .next (finishLeave p s) else .next s

/-! ### Receiving (R368, R376 to R379) -/

/-- Whether a port's role carries a frame (R368). -/
def roleCarries (role : Nat) (h : BitVec 512) : Bool :=
  let m := hf h 0 2
  if role = 3 then
    m == magicAz || (m == magicWc && bitOf (hf h 6 1) 2 && (hf h 3 1 == 1 || hf h 3 1 == 3 || hf h 3 1 == 5))
  else switchRole role

/-- A complete frame goes to the die's inbox, or is refused. -/
def deliver (p : PortId) (vc : BitVec 2) (bs : List Byte) (s : State) : State :=
  if roleCarries (rolePlayed s p) (frameHdr bs) then
    let d := dieOfPort p
    let x := s.dies[d.val]
    s.setDie d { x with inbox := x.inbox ++ [(p, vc, bs)] }
  else freeCredits p vc (flitCount bs) (portCnt p (fun c => { c with refused := incW c.refused }) s)

/-- The replay buffer after an acknowledgement: the flits up to ACK_SEQ go, if it names one of them. -/
def ackReplay (a : BitVec 16) (l : List TxFlit) : List TxFlit :=
  if l.any fun t => t.fseq == a then (l.dropWhile fun t => t.fseq != a).drop 1 else l

/-- The acknowledgement and the credits of a received flit. Before the partner's HELLO a credit count is not read yet, so that no more than
four VC3 flits are sent (R372); a later flit brings the count again. -/
def takeAck (p : PortId) (n : Nat) (s : State) : State :=
  let port := s.ports[p.val]
  let x := port.xfer
  let a := BitVec.ofNat 16 (bits n 47 32)
  let rest := if bitOf n 48 then ackReplay a x.replay else x.replay
  let gone (q : BitVec 16) : Bool := x.replay.any (fun t => t.fseq == q) && !(rest.any fun t => t.fseq == q)
  let v : Fin 4 := ⟨bits n 51 50, by
    have : bits n 51 50 < 2 ^ 2 := Nat.mod_lt _ (by decide)
    omega⟩
  let count := BitVec.ofNat 12 (bits n 55 52 * 256 + bits n 63 56)
  let more := if port.st = .negotiate then 0 else (count - x.lastCred[v.val]).toNat
  let back := if v = 2 then x.vc2Back + more else x.vc2Back
  let x' : PortXfer := { x with
    replay := rest, vc2Back := back, owed := x.owed.filter (fun f => decide (back < f.2)),
    resend := x.resend.filter (fun t => !(gone t.fseq)),
    begun := x.begun.filter (fun b => match b.2 with | some q => !(gone q) | none => true),
    replayRuns := if rest.length < x.replay.length then 0 else x.replayRuns,
    credits := x.credits.set v.val (x.credits[v.val] + more),
    lastCred := if port.st = .negotiate then x.lastCred else x.lastCred.set v.val count }
  let s1 := s.setPort p { port with xfer := x' }
  if bitOf n 49 then startReplay p s1 else s1

/-- A data flit is discarded with one NAK. -/
def refuseFlit (p : PortId) (s : State) : State :=
  portXfer p (fun x => if x.nakSent then x else { x with nakSent := true, nakDue := true }) s

/-- A data flit accepted in order: it joins the frame of its context, which is delivered when it is whole. -/
def acceptFlit (p : PortId) (n : Nat) (s : State) : State :=
  let port := s.ports[p.val]
  let x := port.xfer
  let vc : Fin 4 := ⟨bits n 1 0, by
    have : bits n 1 0 < 2 ^ 2 := Nat.mod_lt _ (by decide)
    omega⟩
  let c : Fin 5 := if vc = 3 then 4 else if vc = 2 ∧ bitOf n 5 ∧ port.link.features.getLsbD 0 then 3 else ⟨vc.val, by omega⟩
  let pay := (leBytes 256 (bits n 2143 96)).take (bits n 15 8 + 1)
  let bs := (if bitOf n 2 then [] else x.rxAsm[c.val]) ++ pay
  let route := if bitOf n 2 then BitVec.ofNat 32 (bits n 95 64) else x.rxRoute[c.val]
  let eof := bitOf n 3
  let s1 := s.setPort p { port with
    xfer := { x with
      expSeq := x.expSeq + 1, nakSent := false, rxAsm := x.rxAsm.set c.val (if eof then [] else bs),
      rxRoute := x.rxRoute.set c.val route },
    cnt := { port.cnt with rxf := port.cnt.rxf.set vc.val (incW port.cnt.rxf[vc.val]) } }
  if eof then deliver p (BitVec.ofNat 2 vc.val) bs s1 else s1

/-- FLIT_RECEIVE. The number of FEC codewords that were corrected, and of those found uncorrectable with a flit that they cover, does not
follow from the flit: one codeword covers several flits, and one flit may lie in two (free values, log entry 31). -/
def execFlitReceive (p : PortId) (flit : BitVec 2176) (uncorrectable : Bool) (s : State) : Res :=
  let st := s.ports[p.val].st
  if st ≠ .negotiate ∧ st ≠ .active ∧ st ≠ .retrain ∧ st ≠ .leaving then .next s
  else
    let n := flit.toNat
    let s0 := (portCnt p (fun c => { c with
        fecCorr := c.fecCorr + Config.freeWord s.free,
        fecUncorr := if uncorrectable then c.fecUncorr + Config.freeWord (s.free + 1) else c.fecUncorr }) s).took.took
    let good := !uncorrectable && bits n 2175 2144 == (crc32c (leBytes 268 n)).toNat
    if !good then
      let s1 := portCnt p (fun c => { c with crcErr := incW c.crcErr }) s0
      .next (if bitOf n 4 then s1 else refuseFlit p s1)
    else
      let s1 := takeAck p n s0
      let s2 :=
        if bitOf n 4 then s1
        else
          let q := BitVec.ofNat 16 (bits n 31 16)
          let ahead := (q - (s1.ports[p.val]).xfer.expSeq).toNat
          if ahead = 0 then acceptFlit p n s1 else if 32768 ≤ ahead then s1 else refuseFlit p s1
      .next (collSettle (checkLeave p s2))

/-! ### Presence and training (R366, R370, R374, R375) -/

def execPortPresent (p : PortId) (passive : Bool) (s : State) : Res :=
  .next (startPort p (s.setPort p { s.ports[p.val] with present := true, passive := passive }))

def execPortRemoved (p : PortId) (s : State) : Res :=
  let x := s.ports[p.val]
  .next (goDark p (s.setPort p { x with present := false, modulePower := false }))

def execModulePowered (p : PortId) (s : State) : Res :=
  let x := s.ports[p.val]
  if x.st = .detect then .next (enterTrain p (s.setPort p { x with modulePower := true })) else .next s

/-- LINK_MODULE: the module fails to power up, or needs more than 15 W, and is held in low power (R366). -/
def execLinkModule (p : PortId) (s : State) : Res :=
  let x := s.ports[p.val]
  if x.st = .detect then .next (goDown p 0x0906 (s.setPort p { x with modulePower := false })) else .next s

/-- TRAIN_LOCK: 8 lanes, or the half that passes; with a failed lane in each half the link goes DOWN. -/
def execTrainLock (p : PortId) (lanes : BitVec 8) (partnerFour : Bool) (s : State) : Res :=
  let x := s.ports[p.val]
  if x.st ≠ .train ∧ x.st ≠ .retrain then .next s
  else
    let low := lanes.extractLsb' 0 4 == 0xF
    let high := lanes.extractLsb' 4 4 == 0xF
    let eight := low && high && !x.capped && !partnerFour && x.link.wide
    let s1 := portLink p (fun l => { l with
      failed := ~~~lanes, lanes := if eight then 8 else 4, half := !eight && !low,
      inUse := if eight then 0xFF else if low then 0x0F else 0xF0 }) s
    if !low && !high then .next (goDown p 0 (portLink p (fun l => { l with failed := ~~~lanes }) s))
    else if x.st = .retrain then .next (sendHello p s1)
    else
      let y := s1.ports[p.val]
      .next (sendHello p (s1.setPort p { y with
        st := .negotiate, xfer := { ({} : PortXfer) with credits := (Vector.replicate 4 0).set 3 4 } }))

def execTrainTimeout (p : PortId) (s : State) : Res :=
  if s.ports[p.val].st = .train then .next (goDown p 0 s) else .next s

/-- HELLO_RESEND: another HELLO, once the last has been sent. -/
def execHelloResend (p : PortId) (s : State) : Res :=
  let x := s.ports[p.val]
  if x.st = .negotiate ∧ x.xfer.txq[4].isEmpty then .next (sendHello p s) else .next s

def execHelloTimeout (p : PortId) (s : State) : Res :=
  if s.ports[p.val].st = .negotiate then .next (goDown p 0 s) else .next s

/-- LOCK_LOST of an ACTIVE port: for less than 10 µs it trains again, and for 10 µs it goes DOWN (R370). On a removal, whichever comes first,
that loss or the presence signal, moves it DARK (R375). -/
def execLockLost (p : PortId) (loss : LockLoss) (s : State) : Res :=
  let x := s.ports[p.val]
  if x.st ≠ .active then .next s
  else match loss with
    | .short => .next (goRetrain p (x.link.lanes == 8) s)
    | .long => .next (goDown p 0 s)
    | .removed => execPortRemoved p s

def execRetrainTimeout (p : PortId) (s : State) : Res :=
  let x := s.ports[p.val]
  if x.st = .retrain ∧ x.link.inUse = 0 then .next (goDown p 0 s) else .next s

def execDownRetry (p : PortId) (s : State) : Res :=
  if s.ports[p.val].st = .down then .next (enterDetect p s) else .next s

/-- LANE_SER_WINDOW: a lane in use above the ratio starts RETRAIN. -/
def execLaneSerWindow (p : PortId) (high : BitVec 8) (s : State) : Res :=
  let x := s.ports[p.val]
  if x.st ≠ .active then .next s
  else
    let s1 := portLink p (fun l => { l with serHigh := high }) s
    if high &&& x.link.inUse ≠ 0 then .next (goRetrain p (x.link.lanes == 8) s1) else .next s1

/-! ### Negotiation (R371 to R373) -/

/-- The highest version that both sides have: 1 for 1.3, 2 for 2.0, 3 for 2.1; 0 for none. -/
def commonVersion (v : Nat) : Nat := if bitOf v 2 then 3 else if bitOf v 1 then 2 else if bitOf v 0 then 1 else 0

/-- The features that a version defines. -/
def versionFeatures (v : Nat) : Nat := if v = 3 then 15 else if v = 2 then 7 else 0

/-- The switch-facing or peer-facing check. -/
def helloRole (s : State) (p : PortId) (h : BitVec 512) : Bool :=
  match roleOf s p with
  | 3 => hf h 5 1 == 0 && hf h 6 1 == 2 && hf h 8 2 != s.eng.cfg.engineId.toNat
  | r => hf h 5 1 == 1 && hf h 7 1 + 1 == r

/-- Whether the version checks of a HELLO pass. -/
def helloForm (h : BitVec 512) : Bool :=
  hf h 2 1 == 1 && bits (hf h 4 1) 7 3 == 0 && bits (hf h 0xC 4) 31 4 == 0 && hf h 0x1C 36 == 0 && commonVersion (hf h 4 1) != 0

/-- A partner's HELLO passes: what it negotiates is kept. -/
def helloLink (h : BitVec 512) (l : PortLink) : PortLink :=
  let v := commonVersion (hf h 4 1)
  { l with
    version := BitVec.ofNat 2 v, features := BitVec.ofNat 4 (hf h 0xC 4 &&& versionFeatures v),
    pversions := BitVec.ofNat 3 (hf h 4 1), peerNode := hf h 5 1 == 1, peerId := BitVec.ofNat 15 (hf h 8 2),
    peerPort := BitVec.ofNat 16 (hf h 0xA 2), fabricF := BitVec.ofNat 16 (hf h 0x18 2), plane := bitOf (hf h 7 1) 0,
    partner := some (BitVec.ofNat 16 (hf h 8 2)), relayOff := false }

/-- ACTIVE, with LINK_DEGRADED on 4 lanes outside reduced service. -/
def goActive (p : PortId) (s : State) : State :=
  let x := s.ports[p.val]
  let s1 := s.setPort p { x with st := .active }
  widenNext (dieOfPort p) 4
    (if x.link.lanes = 4 ∧ !x.capped ∧ !x.widenDue then linkCode p 0x0904 (portLink p (fun l => { l with lastCode := 0x0904 }) s1) else s1)

/-- HELLO: the partner's is checked, and the link goes ACTIVE or DOWN. An engine that sends one has been heard from (R360). No further
HELLO of this side goes out once it has sent one (R372). -/
def execHello (p : PortId) (h : BitVec 512) (s : State) : Res :=
  let heard (s : State) : State := if hf h 5 1 = 0 then heardFrom (hf h 8 2) s else s
  let s0 := heard (takeFrame (dieOfPort p) (hdrBytes h) s)
  let x := s0.ports[p.val]
  let again := x.st == .retrain && x.link.inUse != 0
  if (x.st ≠ .negotiate ∧ !again) ∨ hf h 0 2 ≠ magicAz ∨ hf h 3 1 ≠ 1 then .next s0
  else if !helloForm h then .next (goDown p (if again then 0 else 0x0902) s0)
  else if !helloRole s0 p h then .next (goDown p (if again then 0 else 0x0903) s0)
  else
    let l := helloLink h x.link
    if again then
      if l.partner = x.link.partner ∧ l.version = x.link.version ∧ l.features = x.link.features then
        .next (goActive p (s0.setPort p { x with link := l, xfer := { x.xfer with resend := x.xfer.replay } }))
      else .next (goDown p 0 s0)
    else
      let used := 4 - x.xfer.credits[3]
      let credits : Vector Nat 4 := Vector.ofFn fun (i : Fin 4) =>
        let c := hf h (0x10 + 2 * i.val) 2
        if i = 3 then c - used else c
      let txq := if used = 0 then x.xfer.txq else x.xfer.txq.set 4 []
      .next (goActive p (s0.setPort p { x with link := l, xfer := { x.xfer with credits := credits, txq := txq } }))

/-! ### LEAVE, UNREACH, REACH (R380) -/

/-- A link-control frame taken from the inbox. -/
def takeLink (p : PortId) (h : BitVec 512) (s : State) : State := takeFrame (dieOfPort p) (hdrBytes h) s

/-- LEAVE: an engine that leaves is lost (R360); on a peer-facing port its relay ends. -/
def execLeave (p : PortId) (h : BitVec 512) (s : State) : Res :=
  let s0 := takeLink p h s
  let s1 := if roleOf s0 p = 3 then portLink p (fun l => { l with relayOff := true }) s0 else s0
  .next (if hf h 5 1 = 0 then memberLost (BitVec.ofNat 14 (hf h 8 2)) s1 else s1)

/-- UNREACH: LINK_UNREACH, and the engine is lost; on a peer-facing port it is refused. -/
def execUnreach (p : PortId) (h : BitVec 512) (s : State) : Res :=
  let s0 := takeLink p h s
  if roleOf s0 p = 3 then .next (portCnt p (fun c => { c with refused := incW c.refused }) s0)
  else .next (memberLost (BitVec.ofNat 14 (hf h 0x1A 2)) (linkCode p 0x0907 s0))

/-- REACH records nothing. -/
def execReach (p : PortId) (h : BitVec 512) (s : State) : Res := .next (takeLink p h s)

/-! ### AZ_CTL (R382, R386) -/

/-- A RETRAIN at 8 lanes of a port that is ACTIVE on 4 outside reduced service. -/
def widen (p : PortId) (s : State) : State :=
  let x := s.ports[p.val]
  if x.st = .active ∧ x.link.lanes = 4 ∧ !x.capped then goRetrain p true s else s

def execAzCtlWiden (p : PortId) (s : State) : Res := .next (if hostUp s then widen p s else s)

def execAzCtlRetrain (p : PortId) (s : State) : Res :=
  let x := s.ports[p.val]
  .next (if hostUp s && x.st == .active then goRetrain p (x.link.lanes == 8) s else s)

def execAzCtlDisable (p : PortId) (v : Bool) (s : State) : Res :=
  if !hostUp s then .next s
  else
    let x := s.ports[p.val]
    let s1 := s.setPort p { x with disable := v }
    if !v then .next (startPort p s1)
    else if x.st = .active ∨ x.st = .retrain then .next (enterLeaving p s1)
    else if x.st = .dark ∨ x.st = .leaving then .next s1
    else .next (goDark p s1)

def execAzCtlLocate (p : PortId) (v : Bool) (s : State) : Res :=
  if hostUp s then .next (s.setPort p { s.ports[p.val] with locate := v }) else .next s

end Sys2Proof.Machine
end

