-- ==== Sys2Proof/Machine/Tatting.lean ====
section
/-! DEFINITION. The tatting mesh: packets at the hubs, the root and the members (R176 to R179, R181, R184, R187 to R197, R201), and the
close of an aborted layer pass (R198). -/

namespace Sys2Proof.Machine

open Sys2Proof

/-! ### Receiving a packet (R187 to R189, R201) -/

/-- The data of the beats, the first the least significant (R187). -/
def beatBits (bs : List (BitVec 18)) : Nat := bs.foldr (fun b n => b.toNat % 65536 + 65536 * n) 0

/-- Whether a beat passes PAR: an even number of ones in data, VALID and PAR. -/
def beatOk (b : BitVec 18) : Bool := evenOnes 18 b.toNat

/-- A beat of a packet as a sender puts it on the link: VALID is 1, and PAR makes the number of ones even. -/
def beatOf (v : Nat) : BitVec 18 :=
  let d := v % 65536 + 65536
  BitVec.ofNat 18 (d + put (b2n (!evenOnes 17 d)) 17)

end Sys2Proof.Machine

namespace Sys2Proof

/-- The 96 bits of a packet as received. -/
def RxPacket.bits (p : RxPacket) : BitVec 96 := BitVec.ofNat 96 (Machine.beatBits p.beats.toList)

/-- Whether every beat passes PAR. -/
def RxPacket.parityOk (p : RxPacket) : Bool := p.beats.toList.all Machine.beatOk

/-- Whether every beat has VALID set. -/
def RxPacket.valid (p : RxPacket) : Bool := p.beats.toList.all fun b => b.getLsbD 16

/-- A packet as its sender puts it on a link. -/
def RxPacket.of (b : BitVec 96) : RxPacket := ⟨Vector.ofFn fun i => Machine.beatOf (b.toNat / 65536 ^ i.val)⟩

end Sys2Proof

namespace Sys2Proof.Machine

open Sys2Proof

/-- Whether a packet as received is a packet on a link, but for beats that fail PAR: those differ as they may. -/
def carries (p : RxPacket) (f : Flight) : Bool :=
  (p.beats.toList.zip (RxPacket.of f.bits).beats.toList).all fun x => x.1 == x.2 || !beatOk x.1

/-- The packet that arrives at a node: the first on its link, of those that the beats received can be. It is taken out. -/
def takeHead (n : TatNode) (p : RxPacket) (before : List Flight) : List Flight → Option (Flight × List Flight)
  | [] => none
  | f :: t =>
    if f.dst == n && carries p f && !before.any (sameLink f) then some (f, before ++ t) else takeHead n p (before ++ [f]) t

/-- Whether the packet may arrive at the node now: it is the first on its link (R187). DESIGN CHOICE (log entry 18): a packet that is on no
link of the node comes from outside the model, and is received as it comes. -/
def inOrder (s : State) (n : TatNode) (p : RxPacket) : Bool :=
  (takeHead n p [] s.tat.flight).isSome || !(s.tat.flight.any fun f => f.dst == n && carries p f)

/-- The packet on a link that arrives at a node, if the mesh holds it. -/
def flightAt (s : State) (n : TatNode) (p : RxPacket) : Option Flight := (takeHead n p [] s.tat.flight).map Prod.fst

/-- A packet that has arrived at a node leaves the mesh; the node at the other end of its link is returned if the mesh held it. -/
def takeFlight (n : TatNode) (p : RxPacket) (s : State) : Option TatNode × State :=
  match takeHead n p [] s.tat.flight with
  | none => (none, s)
  | some (f, rest) => (some f.src, { s with tat := { s.tat with flight := rest } })

/-- Whether a layer pass has started and is not yet disposed of. -/
def passOn (s : State) : Bool := match s.eng.lp with | some lp => lp.started | none => false

/-- ABORT of a tatting error. Between layer passes there is none to abort, and the error fails the next start mark (R202). -/
def tatRaise (n : TatNode) (code : BitVec 16) (site : Site) (s : State) : State :=
  if passOn s then abortFrom n code site s
  else { s with tat := { s.tat with markErr := s.tat.markErr.or (some (site, code)) } }

/-- The link on which a packet came into a node, named by the lower of its two nodes (R476). -/
def linkInto (n : TatNode) (src : Option TatNode) : Site :=
  match src with
  | some m => .tatLink (if above m = n then m else n)
  | none => .tatLink n

/-- A tatting error at a node (R201, R202): the packet is discarded and ABORT is raised with the code. -/
def tatError (n : TatNode) (src : Option TatNode) (ty : Nat) (code : BitVec 16) (s : State) : State :=
  match n with
  | .core c =>
    let k := s.core c
    let r := k.recs
    let err := if bitOf r.syncErr.toNat 31 then r.syncErr else BitVec.ofNat 32 (put 1 31 + put ty 16 + code.toNat)
    tatRaise n code (linkInto n src) (s.setCore c { k with recs := { r with syncErr := err } })
  | _ => tatRaise n code (linkInto n src) s

/-- A packet dropped for its LPASS is counted in TAT_STALE (R189). -/
def tatStale (n : TatNode) (s : State) : State :=
  match n with
  | .core c => let k := s.core c; s.setCore c { k with cnt := { k.cnt with tatStale := incW k.cnt.tatStale } }
  | .router c => let k := s.core c; s.setCore c { k with cnt := { k.cnt with routerStale := incW k.cnt.routerStale } }
  | .cluster ci => let k := s.cluster ci; s.setCluster ci { k with hub := { k.hub with stale := incW k.hub.stale } }
  | .tile pt => let h := s.tileHub pt; s.setTileHub pt { h with stale := incW h.stale }
  | .die d => let x := s.dies[d.val]; s.setDie d { x with tatStale := incW x.tatStale }
  | .shuttle k => { s with tat := { s.tat with shuttleStale := s.tat.shuttleStale.set k.val (incW s.tat.shuttleStale[k.val]) } }
  | .root => { s with tat := { s.tat with stale := incW s.tat.stale } }

/-- Whether a packet that came over a link from `src` came from below. One from outside the model counts as from above (log entry 18). -/
def fromBelow (n : TatNode) (src : Option TatNode) : Bool := match src with | some m => m != n && above m == n | none => false

/-- The node that a packet is on its way to, where the node that receives it only forwards it: an operation to the object's home, an answer
to its addressee, an ABORT from below to the root (R177, R184, R186, R195). `none` for a packet that the node acts on. -/
def onward (n : TatNode) (src : Option TatNode) (p : BitVec 96) : Option TatNode :=
  let ty := pktType p
  let dst : Option TatNode :=
    if ty ∈ [1, 2, 3, 4, 6] then some (homeOf (pktId p))
    else if ty = 5 ∨ ty = 7 then some (nodeOf (pktDgx p) (pktDgy p))
    else if ty = 10 ∧ fromBelow n src then some .root
    else none
  match n with
  | .cluster _ => dst.filter (· != n)
  | .tile _ => dst.filter (· != n)
  | .root => dst.filter (· != n)
  | _ => none

/-- A packet forwarded. What the root or a tile hub has for an unserved tile is dropped there (R489). -/
def forward (n dst : TatNode) (f : Flight) (s : State) : State :=
  let next := nextHop n dst
  match next with
  | .tile pt =>
    if n = .root ∧ tileUnserved s pt then s
    else { s with tat := { s.tat with flight := enqueue { f with src := n, dst := next } s.tat.flight } }
  | _ => { s with tat := { s.tat with flight := enqueue { f with src := n, dst := next } s.tat.flight } }

/-- A packet received: it is checked, it is forwarded if it is on its way to another node, and else `run` acts on it, with the node at the
other end of the link where the mesh knows. A packet of another type is not this command's, and one that is not the first on its link
has not arrived. Beats that pass PAR but do not all have VALID set are no packet (DESIGN CHOICE, log entry 18). -/
def tatTake (ty : Nat) (n : TatNode) (p : RxPacket) (run : Option TatNode → BitVec 96 → State → State) (s : State) : Res :=
  let b := p.bits
  let r := takeFlight n p s
  if !inOrder s n p then .next s
  else if !p.parityOk then .next (tatError n r.1 (pktType b) 0x0306 r.2)
  else if !p.valid then .next s
  else if pktType b = 0 ∨ 13 ≤ pktType b ∨ pktRsvd b ≠ 0 then .next (tatError n r.1 (pktType b) 0x0307 r.2)
  else if pktType b ≠ ty then .next s
  else if pktLpass b ≠ s.lpass % 256 then .next (tatStale n r.2)
  else match onward n r.1 b with
    | some dst => .next (forward n dst ((flightAt s n p).getD { dst := n, src := n, sender := n, bits := b }) r.2)
    | none => .next (run r.1 b r.2)

/-! ### Operations on objects (R175 to R179, R181, R489) -/

/-- Whether a node is the home of the packet's object, and serves it. -/
def homeHere (s : State) (n : TatNode) (p : BitVec 96) : Bool :=
  n == homeOf (pktId p) && (match n with | .cluster ci => !tileUnserved s (tileOfCi ci) | _ => true)

def fromShuttle (p : BitVec 96) : Bool := decide (0xD0 ≤ pktGy p)

/-- An ADD of a core at the root is held for its layer pass. None is under way when the layer pass commits, since
no ARRIVE passes one (R187); one of a layer pass that is decided is discarded (R181). -/
def holdAdd (p : BitVec 96) (s : State) : State :=
  match s.eng.lp with
  | none => s
  | some lp =>
    if lp.started ∧ lp.decision = .opened then
      s.setLp (some { lp with held := lp.held ++ [(BitVec.ofNat 16 (pktId p), BitVec.ofNat 32 (pktValue p))] })
    else s

/-- TAT_ADD. A shuttle may not add to a cluster-homed object (R177). -/
def execTatAdd (at_ : TatNode) (p : RxPacket) (s : State) : Res :=
  tatTake 1 at_ p (fun _ b s =>
    if !homeHere s at_ b ∨ (at_ ≠ .root ∧ fromShuttle b) then s
    else if at_ = .root ∧ !fromShuttle b then holdAdd b s
    else afterRoot (objAdd (pktId b) (BitVec.ofNat 32 (pktValue b)) s)) s

/-- SET and TARGET: a core may use them on cluster-homed objects only, a shuttle on shuttle-homed ones only (R177). -/
def tatUpdate (at_ : TatNode) (b : BitVec 96) (f : Nat → Word → State → State) (s : State) : State :=
  if !homeHere s at_ b ∨ (at_ = .root ∧ !fromShuttle b) ∨ (at_ ≠ .root ∧ fromShuttle b) then s
  else afterRoot (f (pktId b) (BitVec.ofNat 32 (pktValue b)) s)

/-- TAT_SET. -/
def execTatSet (at_ : TatNode) (p : RxPacket) (s : State) : Res := tatTake 2 at_ p (fun _ b s => tatUpdate at_ b objSet s) s

/-- TAT_TARGET. -/
def execTatTarget (at_ : TatNode) (p : RxPacket) (s : State) : Res :=
  tatTake 3 at_ p (fun _ b s => tatUpdate at_ b objTarget s) s

/-- TAT_READ: the home answers with COUNT. -/
def execTatRead (at_ : TatNode) (p : RxPacket) (s : State) : Res :=
  tatTake 4 at_ p (fun _ b s =>
    if !homeHere s at_ b then s
    else s.send at_ (nodeOf (pktGx b) (pktGy b))
      (packet 5 0 (pktId b) 0 0 (pktGx b) (pktGy b) (pktLpass b) (objGet s (pktId b)).count.toNat)) s

/-- TAT_WAIT: a satisfied object answers at once; else the wait is entered, in the pool or, once that is full, in the sync spill (R176). -/
def execTatWait (at_ : TatNode) (p : RxPacket) (s : State) : Res :=
  tatTake 6 at_ p (fun _ b s =>
    let w : Waiter :=
      ⟨BitVec.ofNat 8 (pktGx b), BitVec.ofNat 8 (pktGy b), BitVec.ofNat 8 (pktLpass b), poolFull s (pktId b)⟩
    let o := objGet s (pktId b)
    if !homeHere s at_ b then s
    else if satisfied o then sendWake (pktId b) w s
    else objPut (pktId b) { o with waiters := o.waiters ++ [w] } s) s

/-! ### Answers at the cores and shuttles (R184) -/

/-- The wait of a core ends. -/
def clearWait (k : Core) : Core := { k with units := { k.units with wait := none } }

/-- SYNC_WAIT_CYCLES advances by the cycles that an SWAIT, SWAITV or BAR has stalled, a number the model leaves free (R200). -/
def waited (s : State) (k : Core) : Core :=
  { k with cnt := { k.cnt with waitCycles := incW k.cnt.waitCycles (Config.freeCycles s.free) } }

/-- TAT_WAKE: the SWAIT of the core ends. -/
def execTatWake (at_ : TatNode) (p : RxPacket) (s : State) : Res :=
  tatTake 7 at_ p (fun src b s =>
    match at_ with
    | .core c => match (s.core c).units.wait with
      | some (.swait id) => if id.toNat = pktId b then (s.setCore c (waited s (clearWait (s.core c)))).took else tatError at_ src 7 0x0307 s
      | _ => tatError at_ src 7 0x0307 s
    | _ => s) s

/-- TAT_READ_REPLY: SREAD takes the COUNT; SWAITV ends, or reads again once the queue has room. -/
def execTatReadReply (at_ : TatNode) (p : RxPacket) (s : State) : Res :=
  tatTake 5 at_ p (fun src b s =>
    let v := BitVec.ofNat 32 (pktValue b)
    match at_ with
    | .core c =>
      let k := s.core c
      match k.units.wait with
      | some (.sread id sd) =>
        if id.toNat = pktId b then s.setCore c (clearWait (k.setS sd (v.setWidth 64))) else tatError at_ src 5 0x0307 s
      | some (.swaitv id w) =>
        if id.toNat ≠ pktId b then tatError at_ src 5 0x0307 s
        else if 0 ≤ (v - w).toInt then (s.setCore c (waited s (clearWait k))).took
        else if 8 ≤ k.units.syncQ.length then s.setCore c { k with units := { k.units with readDue := true } }
        else s.setCore c (pushSync k (corePacket c k 4 id.toNat 0))
      | _ => tatError at_ src 5 0x0307 s
    | .shuttle _ =>
      let t := s.tat
      { s with tat := { t with shuttleReplies := t.shuttleReplies ++ [(BitVec.ofNat 16 (pktId b), v)] } }
    | _ => s) s

/-! ### Barriers (R191, R192) -/

/-- All ones in the low `n` bits. -/
def fullMask (n : Nat) : BitVec 64 := BitVec.ofNat 64 (2 ^ n - 1)

def setBit (m : BitVec 64) (i : Nat) : BitVec 64 := m ||| (1#64 <<< i)

/-- The set bits of a mask. -/
def onesOf (n : Nat) (m : BitVec 64) : List Nat := (List.range n).filter fun i => m.getLsbD i

/-- Whether every child has arrived at the barrier of a scope, or has halted, and some child has arrived. -/
def hubDone (n : Nat) (h : Hub) (scope : Fin 3) : Bool := h.arr[scope.val] != 0 && (h.arr[scope.val] ||| h.halted) == fullMask n

/-- The hub goes on to the next barrier of a scope. -/
def hubNext (h : Hub) (scope : Fin 3) : Hub :=
  { h with num := h.num.set scope.val (h.num[scope.val] + 1), arr := h.arr.set scope.val 0 }

/-- The cluster of a tile by its number among the 16. -/
def clusterAt (pt : TileId) (i : Nat) : ClusterId := ⟨pt.val * 16 + i % 16, by have := pt.isLt; omega⟩

/-- ARRIVE of a hub. -/
def arrivePkt (s : State) (scope id value : Nat) : BitVec 96 := packet 8 scope id 0 0 0 0 s.lpass value

/-- A cluster hub releases its own members of a barrier. -/
def releaseCores (ci : ClusterId) (scope : Fin 3) (id : Nat) (s : State) : State :=
  let k := s.cluster ci
  let p := releasePkt s scope.val id 0
  let s1 := s.setCluster ci { k with hub := hubNext k.hub scope }
  (onesOf 64 k.hub.arr[scope.val]).foldl (fun s i =>
    match coreOf ci i with | some c => s.send (.cluster ci) (.core c) p | none => s) s1

/-- What a cluster hub does when one more of its cores has arrived or halted. -/
def clusterBars (ci : ClusterId) (before : Hub) (s : State) : State :=
  (List.finRange 3).foldl (fun s sc =>
    let h := (s.cluster ci).hub
    if hubDone 64 h sc && !hubDone 64 before sc then
      if sc = 0 then releaseCores ci 0 h.num[0].toNat s
      else s.send (.cluster ci) (.tile (tileOfCi ci)) (arrivePkt s sc.val h.num[sc.val].toNat 0)
    else s) s

/-- The same at a tile hub. -/
def tileBars (pt : TileId) (before : Hub) (s : State) : State :=
  [(1 : Fin 3), 2].foldl (fun s sc =>
    let h := s.tileHub pt
    if hubDone 16 h sc && !hubDone 16 before sc then
      if sc = 1 then
        let p := releasePkt s 1 h.num[1].toNat 0
        let s1 := s.setTileHub pt (hubNext h 1)
        (onesOf 16 h.arr[1]).foldl (fun s i => s.send (.tile pt) (.cluster (clusterAt pt i)) p) s1
      else s.send (.tile pt) .root (arrivePkt s 2 h.num[2].toNat 0)
    else s) s

/-- The same at the root. -/
def rootBars (before : Hub) (s : State) : State :=
  let h := s.tat.hub
  if hubDone 48 h 2 && !hubDone 48 before 2 then
    let t := s.tat
    releaseAll 2 h.num[2].toNat 0 { s with tat := { t with hub := hubNext h 2 } }
  else s

/-- The settle request, once every logical core has arrived (R192). -/
def settleDown (s : State) : State :=
  match s.eng.lp with
  | some lp =>
    if lp.started ∧ lp.decision = .opened ∧ !lp.settling ∧ s.tat.hub.halted = fullMask 48 then
      releaseAll 2 0xFFFF 1 (s.setLp (some { lp with settling := true }))
    else s
  | none => s

/-- The layer-end barrier completes: a slip aborts, a bound instance is PREPARED, and else the layer pass commits (R196,
R342). -/
def barrierDone (s : State) : State :=
  match s.eng.lp with
  | none => s
  | some lp =>
    if lp.decision ≠ .opened ∨ !lp.settling ∨ s.tat.hub.settled ≠ fullMask 48 ∨ s.tat.dieSettled ≠ 0xFF then s
    else if lp.slip then openAbort 0x0302 (s.setLp (some (noteCause .hardware 0x0302 lp)))
    else
      match (if lp.kind = .work then lp.inst else none) with
      | some id => boundPrepared id s
      | none => collSettle (commitLp s)

/-- The child of a hub that a packet comes from: by the mesh, or else by SRC. -/
def childCore (ci : ClusterId) (src : Option TatNode) (p : BitVec 96) : Option Nat :=
  let at' (c : CoreId) : Option Nat := if ciOf c = ci then some (inCluster c) else none
  match src with
  | some (.router c) => at' c
  | some (.core c) => at' c
  | _ => (coreAt (pktGx p) (pktGy p)).bind at'

/-- ARRIVE at a cluster hub. Cores arrive in the first round of the layer-end barrier and routers in the second (R192); an arrival that
the hub does not await is an error (R201). -/
def arriveCluster (ci : ClusterId) (src : Option TatNode) (p : BitVec 96) (s : State) : State :=
  match childCore ci src p with
  | none => s
  | some i =>
    let k := s.cluster ci
    let h := k.hub
    let up := TatNode.tile (tileOfCi ci)
    let settling := s.eng.lp.any (·.settling)
    let awaited := match src with
      | some (.router _) => pktId p == 0xFFFF && settling
      | some (.core _) => pktId p != 0xFFFF || !settling
      | _ => true
    if pktScope p = 3 ∨ !awaited then tatError (.cluster ci) src 8 0x0307 s
    else if pktId p = 0xFFFF then
      if settling then
        let h1 : Hub := { h with settled := setBit h.settled i }
        let s1 := s.setCluster ci { k with hub := h1 }
        let s2 := if pktValue p = 1 then s1.setLp (s1.eng.lp.map fun l => { l with slip := true }) else s1
        if h1.settled = fullMask 64 ∧ h.settled ≠ fullMask 64 then
          s2.send (.cluster ci) up (arrivePkt s2 2 0xFFFF (b2n (s2.eng.lp.any (·.slip))))
        else s2
      else
        let h1 : Hub := { h with halted := setBit h.halted i }
        let s1 := clusterBars ci h (s.setCluster ci { k with hub := h1 })
        if h1.halted = fullMask 64 ∧ h.halted ≠ fullMask 64 then s1.send (.cluster ci) up (arrivePkt s1 2 0xFFFF 0) else s1
    else if hs : pktScope p < 3 then
      let sc : Fin 3 := ⟨pktScope p, hs⟩
      if pktId p ≠ h.num[sc.val].toNat then tatError (.cluster ci) src 8 0x0307 s
      else
        let h1 : Hub := { h with arr := h.arr.set sc.val (setBit h.arr[sc.val] i) }
        clusterBars ci h (s.setCluster ci { k with hub := h1 })
    else s

/-- ARRIVE at a tile hub. -/
def arriveTile (pt : TileId) (src : Option TatNode) (p : BitVec 96) (s : State) : State :=
  match src with
  | some (.cluster ci) =>
    let i := ci.val % 16
    let h := s.tileHub pt
    if tileOfCi ci ≠ pt then s
    else if pktScope p = 0 ∨ pktScope p = 3 then tatError (.tile pt) src 8 0x0307 s
    else if pktId p = 0xFFFF then
      if s.eng.lp.any (·.settling) then
        let h1 : Hub := { h with settled := setBit h.settled i }
        let s1 := s.setTileHub pt h1
        if h1.settled = fullMask 16 ∧ h.settled ≠ fullMask 16 then
          s1.send (.tile pt) .root (arrivePkt s1 2 0xFFFF (b2n (s1.eng.lp.any (·.slip))))
        else s1
      else
        let h1 : Hub := { h with halted := setBit h.halted i }
        let s1 := tileBars pt h (s.setTileHub pt h1)
        if h1.halted = fullMask 16 ∧ h.halted ≠ fullMask 16 then s1.send (.tile pt) .root (arrivePkt s1 2 0xFFFF 0) else s1
    else if hs : pktScope p < 3 then
      let sc : Fin 3 := ⟨pktScope p, hs⟩
      if pktId p ≠ h.num[sc.val].toNat then tatError (.tile pt) src 8 0x0307 s
      else
        let h1 : Hub := { h with arr := h.arr.set sc.val (setBit h.arr[sc.val] i) }
        tileBars pt h (s.setTileHub pt h1)
    else s
  | _ => s

/-- ARRIVE at the root, of a tile hub or of a port die. -/
def arriveRoot (src : Option TatNode) (p : BitVec 96) (s : State) : State :=
  let t := s.tat
  let h := t.hub
  let slip (s : State) : State := if pktValue p = 1 then s.setLp (s.eng.lp.map fun l => { l with slip := true }) else s
  match src with
  | some (.tile pt) =>
    if pktScope p ≠ 2 then tatError .root src 8 0x0307 s
    else if pktId p = 0xFFFF then
      if s.eng.lp.any (·.settling) then
        barrierDone (slip { s with tat := { t with hub := { h with settled := setBit h.settled pt.val } } })
      else
        settleDown (rootBars h { s with tat := { t with hub := { h with halted := setBit h.halted pt.val } } })
    else if pktId p ≠ h.num[2].toNat then tatError .root src 8 0x0307 s
    else rootBars h { s with tat := { t with hub := { h with arr := h.arr.set 2 (setBit h.arr[2] pt.val) } } }
  | _ =>
    if pktGy p < 0xC0 ∨ 0xC8 ≤ pktGy p then s
    else if pktScope p = 2 ∧ pktId p = 0xFFFF ∧ s.eng.lp.any (·.settling) then
      barrierDone (slip { s with tat := { t with dieSettled := t.dieSettled ||| (1#8 <<< (pktGy p - 0xC0)) } })
    else tatError .root src 8 0x0307 s

/-- TAT_ARRIVE. -/
def execTatArrive (at_ : TatNode) (p : RxPacket) (s : State) : Res :=
  tatTake 8 at_ p (fun src b s =>
    match at_ with
    | .cluster ci => arriveCluster ci src b s
    | .tile pt => arriveTile pt src b s
    | .root => arriveRoot src b s
    | _ => s) s

/-- RELEASE at a core: its BAR ends. -/
def releaseAtCore (c : CoreId) (p : BitVec 96) (s : State) : State :=
  let k := s.core c
  match k.units.wait with
  | some (.bar scope n) =>
    if scope.toNat = pktScope p ∧ n.toNat = pktId p then
      let b := if h : scope.toNat < 3 then k.cnt.bars.set scope.toNat (k.cnt.bars[scope.toNat] + 1) else k.cnt.bars
      (s.setCore c (waited s (clearWait { k with cnt := { k.cnt with bars := b } }))).took
    else s
  | _ => s

/-- Whether a packet is a settle request that a router or port die may take (R189, R192, R201): its command there is
SETTLE_REQUEST. -/
def settlePacket (s : State) (n : TatNode) (p : RxPacket) : Bool :=
  (match n with | .router _ => true | .die _ => true | _ => false)
  && p.parityOk && pktType p.bits == 9 && pktRsvd p.bits == 0 && pktLpass p.bits == s.lpass % 256
  && pktId p.bits == 0xFFFF && pktValue p.bits == 1

/-- TAT_RELEASE: passed down to the members; of barrier 0xFFFF, the settle request goes to the routers and the final release to
routers and cores. A settle request at a router or port die stays for SETTLE_REQUEST. -/
def execTatRelease (at_ : TatNode) (p : RxPacket) (s : State) : Res :=
  if settlePacket s at_ p then .next s
  else
    tatTake 9 at_ p (fun _ b s =>
      match at_ with
      | .tile pt =>
        if pktId b = 0xFFFF then (List.range 16).foldl (fun s i => s.send (.tile pt) (.cluster (clusterAt pt i)) b) s
        else
          let h := s.tileHub pt
          let s1 := s.setTileHub pt (hubNext h 2)
          (onesOf 16 h.arr[2]).foldl (fun s i => s.send (.tile pt) (.cluster (clusterAt pt i)) b) s1
      | .cluster ci =>
        if pktId b = 0xFFFF then
          (List.range 64).foldl (fun s i => match coreOf ci i with
            | none => s
            | some c =>
              if coreUnserved s c then s
              else
                let s1 := s.send (.cluster ci) (.router c) b
                if pktValue b = 0 then s1.send (.cluster ci) (.core c) b else s1) s
        else if h : pktScope b < 3 then releaseCores ci ⟨pktScope b, h⟩ (pktId b) s
        else s
      | .core c => releaseAtCore c b s
      | _ => s) s

/-! ### Settling (R162, R192) -/

/-- Whether a port die has finished its own work for the layer pass (R192, R342). -/
def dieFinished (s : State) (d : DieId) : Bool :=
  let x := s.dies[d.val]
  match s.eng.lp with
  | none => true
  | some lp =>
    let masks := !lp.masked || (x.mainDone && (lp.fmode != .exact || x.catchDone))
    let bound := match (if lp.kind = .work then lp.inst else none) with
      | none => true
      | some id => match instAt s id with
        | none => true
        | some k => !(k.binds.any fun b => dField b.desc 0x52 1 == d.val) || !bindExact x
          || (resultsDone k && contribSent k && !dataPending s k)
    let load := lp.kind != .load || lp.chunks.all fun i => lp.wrote.contains i
      || !(lp.loadOf.any fun l => (chunkEntry s l.1 l.2 i).any fun c => c.die == d.val)
    x.due.isEmpty && x.inject.isEmpty && x.lens.isEmpty && masks && bound && load

/-- A slip at the barrier for each hold queue of a router that is not empty, counted against its input with the TAG of its head (R162,
R169, R171). -/
def heldSlips (c : CoreId) (s : State) : State :=
  (List.range 5).foldl (fun (s : State) i => match (s.core c).router.hold[i]? with
    | some (h :: _) => routerError c 1 i h.tag.toNat s
    | _ => s) s

/-- The same at a port die, against the edge link (R169, R546). -/
def heldDieSlips (d : DieId) (s : State) : State :=
  (s.dies[d.val]).hold.foldl (fun (s : State) e => match e.2 with
    | h :: _ => dieError d 1 e.1 h.tag.toNat s
    | [] => s) s

/-- SETTLE_REQUEST: a router reports that its hold queues are empty, or a slip; a port die answers once its own work is done, or
raises the abort of a check that fails (R162, R192, R310, R340). -/
def execSettleRequest (n : MeshNode) (s : State) : Res :=
  let on := s.eng.lp.any fun lp => lp.started && lp.settling && lp.decision == .opened
  let p := RxPacket.of (releasePkt s 2 0xFFFF 1)
  if !on then .next s
  else match n with
    | .router c =>
      let s0 := (takeFlight (.router c) p s).2
      let k := s0.core c
      if k.router.settled || !inOrder s (.router c) p then .next s
      else
        let s1 := s0.setCore c { k with router := { k.router with settled := true } }
        let empty := k.router.hold.toList.all (·.isEmpty)
        let s2 := heldSlips c s1
        .next (s2.send (.router c) (.cluster (ciOf c))
          (packet 8 2 0xFFFF (gxOf c) (gyOf c) 0 0 s.lpass (b2n !empty)))
    | .die d =>
      let x := s.dies[d.val]
      if x.settled || !dieFinished s d || !inOrder s (.die d) p then .next s
      else
        let s0 := (takeFlight (.die d) p s).2
        let s1 := s0.setDie d { x with settled := true }
        if !intakeExact x then .next (redIntakeFault d s1)
        else if !bindExact x then .next (dieAbort d 0x0808 s1)
        else
          let empty := x.hold.all fun h => h.2.isEmpty
          let s2 := heldDieSlips d s1
          .next (s2.send (.die d) .root (packet 8 2 0xFFFF 0 (0xC0 + d.val) 0 0 s.lpass (b2n !empty)))

/-! ### Aborts (R195 to R197, R342) -/

/-- The class of an abort, which the root takes from the kind that R418 gives its code (R195). An abort of the shuttles with the code by which
they have ended the pass is of the external class whatever its code, as is a step outcome (R325). -/
def abortClass (s : State) (p : BitVec 96) : AbortClass :=
  let code := BitVec.ofNat 16 (pktValue p)
  if fromShuttle p && (stepCode code || s.eng.pass.any fun x => x.ended == some code) then .external else classOf code

/-- The node that SRC of a packet names. -/
def srcNode (p : BitVec 96) : TatNode :=
  let gy := pktGy p
  if h : 0xC0 ≤ gy ∧ gy < 0xC8 then .die ⟨gy - 0xC0, by omega⟩ else nodeOf (pktGx p) gy

/-- The ALREADY_COMMITTED answer at the sender of an ABORT, counted there (R196, R200). -/
def answerLate (sender : Option TatNode) (p : BitVec 96) (s : State) : State :=
  match sender.getD (srcNode p) with
  | .core c => let k := s.core c; s.setCore c { k with cnt := { k.cnt with tatLate := incW k.cnt.tatLate } }
  | .cluster ci => let k := s.cluster ci; s.setCluster ci { k with hub := { k.hub with late := incW k.hub.late } }
  | .tile pt => let h := s.tileHub pt; s.setTileHub pt { h with late := incW h.late }
  | .die d => let x := s.dies[d.val]; s.setDie d { x with tatLate := incW x.tatLate }
  | .shuttle k => { s with tat := { s.tat with shuttleLate := s.tat.shuttleLate.set k.val (incW s.tat.shuttleLate[k.val]) } }
  | .router c => let k := s.core c; s.setCore c { k with cnt := { k.cnt with routerLate := incW k.cnt.routerLate } }
  | .root => { s with tat := { s.tat with late := incW s.tat.late } }

/-- A pass that an external cause has ended, and of which no layer pass runs, ends with it (R414). -/
def endCaused (s : State) : State :=
  match s.eng.pass.bind (·.ended) with
  | some code => if passOn s then s else endPass code s
  | none => s

/-- An abort that reaches the root when no layer pass is undecided. It changes nothing of a layer pass that has committed, and the
sender is answered (R196). -/
def lateAbort (sender : Option TatNode) (p : BitVec 96) (s : State) : State :=
  endCaused (if s.eng.lastCommitted then answerLate sender p s else s)

/-- A hardware abort is the first that decides the layer pass: its site is the one that the error is attributed to (R476). -/
def noteSite (cls : AbortClass) (site : Site) (lp : LayerPass) : LayerPass :=
  if cls = .hardware ∧ lp.hw.isNone then { lp with site := site } else lp

/-- ABORT at the root, with the node that raised it and the site of its error. -/
def abortRoot (sender : Option TatNode) (site : Site) (p : BitVec 96) (s : State) : State :=
  let code := BitVec.ofNat 16 (pktValue p)
  let cls := abortClass s p
  match s.eng.lp with
  | none => lateAbort sender p s
  | some lp =>
    let bound := if lp.kind = .work then lp.inst else none
    let tell (s : State) : State := match bound with | some id => raiseInst id code (classNo cls) s | none => s
    if !lp.started then lateAbort sender p s
    else match lp.decision with
      | .opened => tell (openAbort code (s.setLp (some (noteCause cls code (noteSite cls site lp)))))
      | .prepared => if cls = .external then tell s else s
      | .aborted => s.setLp (some (noteCause cls code (noteSite cls site lp)))
      | _ => lateAbort sender p s

/-- A core stops issuing and discards its queues, its windows close, and it answers (R80, R134, R197). -/
def stopCore (c : CoreId) (s : State) : State :=
  let k := closeWins (s.core c)
  let s1 := s.setCore c { k with run := if k.run = .idle then .idle else .stopped, units := dropQueues k.units }
  s1.send (.core c) (.cluster (ciOf c)) (packet 11 0 0 (gxOf c) (gyOf c) 0 0 s.lpass 0)

/-- TAT_ABORT: at the root it decides; passed down, it stops every core, router and port die, each of which answers ABORT_ACK. -/
def execTatAbort (at_ : TatNode) (p : RxPacket) (s : State) : Res :=
  let f := flightAt s at_ p
  tatTake 10 at_ p (fun _ b s =>
    match at_ with
    | .root => answerAborts (abortRoot (f.map (·.sender)) (match f with | some x => x.site | none => .none) b s)
    | .tile pt => (List.range 16).foldl (fun s i => s.send (.tile pt) (.cluster (clusterAt pt i)) b) s
    | .cluster ci =>
      (List.range 64).foldl (fun s i => match coreOf ci i with
        | none => s
        | some c => if coreUnserved s c then s else (s.send (.cluster ci) (.core c) b).send (.cluster ci) (.router c) b) s
    | .core c => stopCore c s
    | .router c =>
      let s1 := s.setCore c (stopRouter (s.core c))
      s1.send (.router c) (.cluster (ciOf c)) (packet 11 0 0 (gxOf c) (gyOf c) 0 0 s.lpass 0)
    | .die d =>
      let s1 := s.setDie d (stopDie s.dies[d.val])
      s1.send (.die d) .root (packet 11 0 0 0 (0xC0 + d.val) 0 0 s.lpass 0)
    | .shuttle _ => s) s

/-- Every ABORT_ACK has reached the root. -/
def acksDone (s : State) : State :=
  match s.eng.lp with
  | none => s
  | some lp =>
    if lp.decision = .aborted ∧ !lp.acked ∧ s.tat.hub.acks = fullMask 48 ∧ s.tat.dieAcks = 0xFF then
      boundAcked (s.setLp (some { lp with acked := true }))
    else s

/-- TAT_ABORT_ACK, gathered like an arrival. -/
def execTatAbortAck (at_ : TatNode) (p : RxPacket) (s : State) : Res :=
  tatTake 11 at_ p (fun src b s =>
    let up := packet 11 0 0 0 0 0 0 s.lpass 0
    match at_ with
    | .cluster ci =>
      match childCore ci src b with
      | none => s
      | some i =>
        let k := s.cluster ci
        let h := k.hub
        let router := match src with | some (.router _) => true | _ => false
        let h1 : Hub := if router then { h with acksR := setBit h.acksR i } else { h with acks := setBit h.acks i }
        let s1 := s.setCluster ci { k with hub := h1 }
        let full (h : Hub) : Bool := h.acks == fullMask 64 && h.acksR == fullMask 64
        if full h1 && !full h then s1.send (.cluster ci) (.tile (tileOfCi ci)) up else s1
    | .tile pt =>
      match src with
      | some (.cluster ci) =>
        let h := s.tileHub pt
        let h1 : Hub := { h with acks := setBit h.acks (ci.val % 16) }
        let s1 := s.setTileHub pt h1
        if h1.acks = fullMask 16 ∧ h.acks ≠ fullMask 16 then s1.send (.tile pt) .root up else s1
      | _ => s
    | .root =>
      let t := s.tat
      match src with
      | some (.tile pt) => acksDone { s with tat := { t with hub := { t.hub with acks := setBit t.hub.acks pt.val } } }
      | _ =>
        if 0xC0 ≤ pktGy b ∧ pktGy b < 0xC8 then
          acksDone { s with tat := { t with dieAcks := t.dieAcks ||| (1#8 <<< (pktGy b - 0xC0)) } }
        else s
    | _ => s) s

/-! ### Lock reports (R165, R194) -/

/-! ### Island clocks (R434, R436) -/

/-- The clock target of a rung. -/
def rungClock (rung : Nat) : BitVec 2 := if rung ≤ 3 then 0 else if rung = 4 then 1 else if rung = 5 then 2 else 3

/-- The clock target of an island: that of its rung, or 1.0 GHz at the last resort of R426. -/
def clockTarget (s : State) (k : Cluster) : BitVec 2 := if s.pwr.lastResort then 3 else rungClock k.rung

/-- A cluster whose island goes down to the clock of its target, where that is not below the slot rate in force. -/
def lowerClock (s : State) (k : Cluster) : Cluster :=
  let c := clockTarget s k
  if c.toNat ≤ s.eng.slotRate.toNat then { k with clock := c } else k

/-- Every island at the clock of its target, but for those that wait for the slot rate to step down. -/
def lowerClocks (s : State) : State :=
  if s.pwr.lastResort then
    (List.finRange 768).foldl (fun (s : State) ci =>
      let k := s.cluster ci
      let k1 := lowerClock s k
      if k1.clock = k.clock then s else s.setCluster ci k1) s
  else { s with clusters := s.clusters.map fun e => (e.1, lowerClock s e.2) }

/-- Every island and port die has reported lock: the new slot rate is in force, and the next start mark may come. -/
def locksDone (s : State) : State :=
  let t := s.tat
  let e := s.eng
  if t.relock ∧ t.hub.locks = fullMask 48 ∧ t.dieLocks = 0xFF then
    lowerClocks { s with tat := { t with relock := false }, eng := { e with slotRate := e.nextRate } }
  else s

/-- TAT_LOCK: a cluster hub passes on its island's report; a tile hub and the root gather. -/
def execTatLock (at_ : TatNode) (p : RxPacket) (s : State) : Res :=
  tatTake 12 at_ p (fun src b s =>
    let up := packet 12 0 0 0 0 0 0 s.lpass 0
    match at_ with
    | .cluster ci => s.send (.cluster ci) (.tile (tileOfCi ci)) up
    | .tile pt =>
      match src with
      | some (.cluster ci) =>
        let h := s.tileHub pt
        let h1 : Hub := { h with locks := setBit h.locks (ci.val % 16) }
        let s1 := s.setTileHub pt h1
        if h1.locks = fullMask 16 ∧ h.locks ≠ fullMask 16 then s1.send (.tile pt) .root up else s1
      | _ => s
    | .root =>
      let t := s.tat
      match src with
      | some (.tile pt) => locksDone { s with tat := { t with hub := { t.hub with locks := setBit t.hub.locks pt.val } } }
      | _ =>
        if 0xC0 ≤ pktGy b ∧ pktGy b < 0xC8 then
          locksDone { s with tat := { t with dieLocks := t.dieLocks ||| (1#8 <<< (pktGy b - 0xC0)) } }
        else s
    | _ => s) s

/-! ### The close of an aborted layer pass (R198, R343, R478) -/

/-- A collective slice closes: a hardware error runs it again, and anything else goes to its instance. DESIGN CHOICE (log entry 85): with a unit of
staging that fails again before anything has written it, where R223 ends a pass with MEM_CHECK, the slice raises an ABORT of its
instance with that code in the hardware class, as R478 has it for a fourth run. -/
def closeSlice (s : State) : State :=
  match s.eng.lp with
  | none => s
  | some lp =>
    let s0 := endTasks false s
    let tell (code : BitVec 16) (cls : Nat) (s : State) : State :=
      match lp.inst with | some id => raiseInst id code cls (s.setLp none) | none => s.setLp none
    match lp.ext, lp.hw with
    | some code, _ => tell code 1 s0
    | none, some code =>
      let beyond := decide (4 ≤ lp.runs)
      let last := memEnd (againUnits lp)
      let s1 := siteError lp.site lp.prevSite lp.ident code (beyond && last.isNone) s0
      match last with
      | some c => tell c 0 s1
      | none => if beyond then tell code 0 (noteLimit s1) else rerunLp s1
    | none, none => tell lp.first 2 s0

/-- LAYER_PASS_CLOSE: every ABORT_ACK is in, 64 slots have passed, and the DMA writes to region 1 that were in flight are complete (R213).
A bound layer pass closes once DISPOSE is there. -/
def execLayerPassClose (s : State) : Res :=
  match s.eng.lp with
  | none => .next s
  | some lp =>
    if lp.decision ≠ .aborted ∨ !lp.acked ∨ !stagingWritten s then .next s
    else match lp.kind with
      | .coll => .next (answerAborts (closeSlice s))
      | .load => .next (answerAborts (disposeLp s))
      | .work => .next (answerAborts (if lp.inst.isSome then closeBound s else disposeLp s))

end Sys2Proof.Machine
end

