-- ==== Sys2Proof/Machine/ConfigBank.lean ====
section
/-! DEFINITION. The banks of the configuration cartridge, and the live fields that a drain boundary takes (R208, R209, R258, R461 to R465,
R468). -/

namespace Sys2Proof.Machine

open Sys2Proof

/-! ### A bank (R462 to R464) -/

/-- A field of R463: offset, size, least and greatest value, default; the greatest value of a field with RSVD bits leaves them zero. -/
structure CfgField where
  off : Nat
  size : Nat
  lo : Nat
  hi : Nat
  dflt : Nat

/-- The fields of both formats. -/
def cfgFields2 : List CfgField := [
  ⟨0x40, 2, 0, 0x3FFF, 0⟩, ⟨0x42, 1, 0, 1, 0⟩, ⟨0x44, 2, 0, 0xFFFF, 0⟩, ⟨0x50, 1, 0, 2, 0⟩, ⟨0x51, 1, 0, 1, 0⟩,
  ⟨0x52, 2, 0, 682, 0⟩, ⟨0x54, 2, 10, 10000, 200⟩, ⟨0x56, 2, 100, 60000, 2000⟩, ⟨0x58, 8, 0, 0xFFFFFFFFFFFFFFFF, 0⟩,
  ⟨0x60, 1, 1, 64, 8⟩, ⟨0x61, 1, 1, 64, 4⟩, ⟨0x62, 1, 1, 64, 4⟩, ⟨0x64, 2, 100, 20000, 1500⟩, ⟨0x66, 2, 100, 20000, 1500⟩,
  ⟨0x68, 2, 2500, 20000, 20000⟩, ⟨0x6A, 2, 0, 1000, 120⟩, ⟨0x6C, 1, 0, 1, 1⟩, ⟨0x6D, 1, 0, 1, 1⟩, ⟨0x6E, 1, 0, 64, 4⟩,
  ⟨0x70, 2, 10, 10000, 200⟩]

/-- The fields of format 3 only. -/
def cfgFields3 : List CfgField := [
  ⟨0x80, 1, 0, 2, 0⟩, ⟨0x81, 1, 0, 1, 0⟩, ⟨0x82, 1, 0, 15, 4⟩, ⟨0x84, 4, 0, 0xFFFFFFFF, 0⟩,
  ⟨0x88, 4, 1000, 1000000, 20000⟩, ⟨0x8C, 1, 1, 100, 25⟩]

/-- The value of a field in a bank: 0 gives the default when the range excludes 0. -/
def CfgField.val (f : CfgField) (bs : List Byte) : Nat :=
  let v := fieldAt bs f.off f.size
  if v = 0 ∧ 0 < f.lo then f.dflt else v

def CfgField.ok (f : CfgField) (bs : List Byte) : Bool := decide (f.lo ≤ f.val bs) && decide (f.val bs ≤ f.hi)

def bankFormatOf (bs : List Byte) : Nat := fieldAt bs 4 2
def bankSeqOf (bs : List Byte) : BitVec 32 := BitVec.ofNat 32 (fieldAt bs 8 4)

/-- The fields that a bank holds. -/
def bankFields (bs : List Byte) : List CfgField := if bankFormatOf bs = 3 then cfgFields2 ++ cfgFields3 else cfgFields2

/-- The bytes of a bank that no field and no header field uses. -/
def bankRsvd (bs : List Byte) : Bool :=
  (List.range (fieldAt bs 6 2)).all fun i =>
    decide (i < 0x12) || (bankFields bs).any (fun f => decide (f.off ≤ i) && decide (i < f.off + f.size)) || bs.getD i 0 == 0

/-- Whether a bank is valid (R464). -/
def bankValid (bs : List Byte) : Bool :=
  let size := fieldAt bs 6 2
  let body := bs.take size
  bs.take 4 == [0x43, 0x51, 0x43, 0x46]
  && ((bankFormatOf bs == 2 && size == 0x80) || (bankFormatOf bs == 3 && size == 0x100))
  && decide (size ≤ bs.length) && fieldAt bs 0x10 2 == 0x46
  && fieldAt bs 0xC 4 == (crc32c (body.take 0xC ++ List.replicate 4 0 ++ body.drop 0x10)).toNat
  && bankRsvd bs && (bankFields bs).all (·.ok bs)

/-- The configuration that a bank gives. -/
def bankCfg (bs : List Byte) : Cfg :=
  let v (o : Nat) : Nat :=
    match (cfgFields2 ++ cfgFields3).find? (fun f => f.off == o) with
    | some f => if bankFormatOf bs = 3 ∨ o < 0x80 then f.val bs else f.dflt
    | none => 0
  { engineId := BitVec.ofNat 14 (v 0x40), cxlWidth := v 0x42, rackPosition := v 0x44, memMode := v 0x50, window := v 0x51 == 1,
    adapterMib := v 0x52, weightTimeoutMs := v 0x54, redTimeoutMs := v 0x56, portRole := BitVec.ofNat 64 (v 0x58),
    vcWeight0 := v 0x60, vcWeight1 := v 0x61, vcWeight2 := v 0x62, rampUpW := v 0x64, rampDownW := v 0x66,
    powerCapW := v 0x68, ballastBudgetKj := v 0x6A, ballastReserve := v 0x6C == 1, rotate := v 0x6D == 1,
    deferMax := v 0x6E, deferMs := v 0x70, focusPolicy := v 0x80, nonfinitePolicy := v 0x81, relayHopsMax := v 0x82,
    relayMask := BitVec.ofNat 32 (v 0x84), loadSliceUs := v 0x88, loadShare := v 0x8C }

/-- The cold fields of one configuration with the live fields of another. -/
def coldOf (cold live : Cfg) : Cfg :=
  { live with engineId := cold.engineId, cxlWidth := cold.cxlWidth, rackPosition := cold.rackPosition }

/-- Whether the cold fields differ. -/
def coldDiffers (a b : Cfg) : Bool :=
  a.engineId != b.engineId || a.cxlWidth != b.cxlWidth || a.rackPosition != b.rackPosition

/-! ### Moving the regions of a cluster (R205, R209) -/

/-- A part of stacked memory that keeps its contents: its old address, its new one, and its bytes. -/
structure MemPart where
  old : Nat
  new : Nat
  len : Nat

/-- The bytes of a cluster's stacked memory. -/
abbrev clusterBytes : Nat := 0xC0000000

/-- Stacked memory that keeps the parts, which are given by rising new address, and loses everything else that has been written: the rest
goes on reading as the zeros of power-up (R210). A unit that nothing writes anew goes on failing its check (R223). -/
def StackMem.rebuild (m : StackMem) (ps : List MemPart) : StackMem :=
  let cells (p : MemPart) : List Host.Cell :=
    (m.cells.filter fun c => decide (p.old ≤ c.1) && decide (c.1 < p.old + p.len)).map fun c => (c.1 - p.old + p.new, c.2)
  let lost (p : MemPart) : List (Nat × Nat) :=
    m.lost.filterMap fun r =>
      let a := max r.1 p.old
      let b := min r.2 (p.old + p.len)
      if a < b then some (a - p.old + p.new, b - p.old + p.new) else none
  let written (p : MemPart) : List (Nat × Nat) :=
    (rangesIn p.old (p.old + p.len) m.written).map fun r => (r.1 - p.old + p.new, r.2 - p.old + p.new)
  let units (us : List Nat) (p : MemPart) : List Nat :=
    (us.filter fun u => decide (p.old ≤ u * 64) && decide (u * 64 < p.old + p.len)).map fun u => (u * 64 - p.old + p.new) / 64
  let rest := (ps.foldl (fun l p => cutRanges p.new (p.new + p.len) l) [(0, clusterBytes)]).flatMap fun r => rangesIn r.1 r.2 m.written
  let still (us : List Nat) : List Nat := us.filter fun u => ps.all fun p => decide (u * 64 < p.new) || decide (p.new + p.len ≤ u * 64)
  { cells := ps.flatMap cells, lost := rest ++ ps.flatMap lost, written := rest ++ ps.flatMap written,
    bad := still m.bad ++ ps.flatMap (units m.bad), failed := still m.failed ++ ps.flatMap (units m.failed) }

/-- The parts of a cluster that keep their contents, given which regions do and which old weight slot each weight slot takes over, from
one configuration and layout to another. -/
def keptParts (c1 c2 : Cfg) (l1 l2 : Layout) (ci : Nat) (keep : Nat → Bool) (slots : Fin 2 → Option Nat) : List MemPart :=
  let size (r : Nat) : Nat := min (regionMib c1 l1 ci r) (regionMib c2 l2 ci r) * mib
  let part (r : Nat) : List MemPart :=
    if keep r && decide (0 < size r) then
      [⟨regionsBelow c1 l1 ci r * mib, regionsBelow c2 l2 ci r * mib, size r⟩]
    else []
  let slot (n : Fin 2) : List MemPart :=
    match slots n with
    | none => []
    | some o =>
      if 0 < size 6 then
        [⟨(regionsBelow c1 l1 ci 6 + o * regionMib c1 l1 ci 6) * mib,
          (regionsBelow c2 l2 ci 6 + n.val * regionMib c2 l2 ci 6) * mib, size 6⟩]
      else []
  (List.range 6).flatMap part ++ (slot 0 ++ slot 1)

/-- Every cluster laid out anew, with the regions and weight slots that keep their contents. -/
def relayout (cfg : Cfg) (ls : Tab Layout) (keep : Nat → Bool) (slots : Fin 2 → Option Nat) (s : State) : State :=
  (List.finRange 768).foldl (fun (s : State) ci =>
    let k := s.cluster ci
    let l1 := layoutOf s ci.val
    s.setCluster ci { k with mem := k.mem.rebuild (keptParts s.eng.cfg cfg l1 (tabGet {} ls ci.val) ci.val keep slots) }) s

/-! ### Live fields at a drain boundary (R31, R38, R208, R209, R258, R261, R367, R468) -/

/-- Whether the set of live fields passes at the boundary: the layout under the installed image. -/
def liveFits (s : State) (cfg : Cfg) : Bool :=
  match s.eng.image with
  | some im => layoutsFit cfg im.layouts
  | none => layoutsFit cfg []

/-- The first slot that exists and that nobody has claimed, beginning with the one held. -/
def claimSlot (n : Nat) (used : List Nat) (held : Option Nat) : Option Nat :=
  ((held.toList ++ List.range n).filter fun k => decide (k < n) && !used.contains k).head?

/-- The weight slots that CURRENT, DRAINING and an epoch being loaded hold where `n` slots exist, claimed in that order. With one slot
left, the older of two live epochs keeps none: no pass is pinned to it at a drain boundary (DESIGN CHOICE, log entry 77). -/
def claimSlots (n : Nat) (w : Weights) : Option Nat × Option Nat × Option Nat :=
  let cur := w.current.bind fun e => claimSlot n [] e.slot
  let dra := w.draining.bind fun e => claimSlot n cur.toList e.slot
  let holds (l : Load) : Bool := !l.adapter && l.st != .fetching
  let new := (w.load.filter holds).bind fun l => claimSlot n (cur.toList ++ dra.toList) l.slot
  (cur, dra, new)

/-- An epoch's load after a change of layout: with no slot it waits for one, and what it has lost is loaded again (R207, R258). -/
def reslotLoad (streaming lost : Bool) (slot : Option Nat) (l : Load) : Load :=
  if l.adapter || l.st == .fetching then l
  else if slot.isNone && !streaming then { l with slot := none, st := .waiting, loaded := [] }
  else if lost || l.st == .waiting then { l with slot := slot, st := .loading, loaded := [] }
  else { l with slot := slot }

/-- The weight slots after a change of layout, by what `claimSlots` gave. `lost` says that region 6 was lost with a change of MEM_MODE:
what is to be resident is then fetched again, and a pass that uses it waits (R38, R258). -/
def takeSlots (lost : Bool) (g : Option Nat × Option Nat × Option Nat) (s : State) : State :=
  let w := s.wts
  let streaming := s.eng.cfg.memMode == 1
  let move (slot : Option Nat) (e : Epoch) : Epoch := { e with slot := slot }
  let s1 : State := { s with wts := { w with
    current := w.current.map (move g.1), draining := w.draining.map (move g.2.1),
    load := w.load.map (reslotLoad streaming lost g.2.2) } }
  if !lost then s1
  else
    let live := (s1.wts.current.toList ++ s1.wts.draining.toList).filter fun e => e.slot.isSome
    let again (e : Epoch) : List Refetch := (neededChunks s1 e.man).map fun i => { number := e.number, adapter := false, index := i }
    { s1 with wts := { s1.wts with refetch := (s1.wts.refetch.filter (·.adapter)) ++ live.flatMap again } }

/-- A change of ADAPTER_MIB: every slot is EMPTY (R261). A load whose slots were LOADING completes with them; one whose slots are not yet
LOADING begins again, if its slot entries still fit. -/
def adapterChange (old : Nat) (s : State) : State :=
  if s.eng.cfg.adapterMib = old then s
  else
    let w := s.wts
    let s1 : State := { s with wts := { w with
      adapters := w.adapters.map fun e => (e.1, { ({} : Adapter) with gen := e.2.gen }), adapterMans := [],
      refetch := w.refetch.filter fun r => !r.adapter } }
    match w.load with
    | none => s1
    | some l =>
      if !l.adapter then s1
      else if l.marked then endLoad 0 s1
      else match l.man.bind (manCheck7 s1) with
        | some code => endLoad code s1
        | none => { s1 with wts := { s1.wts with load := some { l with loaded := [] } } }

/-- The ports whose roles are to change keep the role that they have until they have left. -/
def holdRoles (new : BitVec 64) (s : State) : State :=
  (List.finRange 32).foldl (fun s p =>
    let st := s.ports[p.val].st
    if roleOf s p ≠ bits new.toNat (2 * p.val + 1) (2 * p.val) ∧ (st = .active ∨ st = .retrain) then
      portLink p (fun l => { l with roleWas := some (roleOf s p) }) s
    else s) s

/-- The ports whose roles have changed leave, in the role that they had, and train again. -/
def roleChange (old : BitVec 64) (s : State) : State :=
  (List.finRange 32).foldl (fun s p =>
    if roleOf s p = bits old.toNat (2 * p.val + 1) (2 * p.val) then s
    else
      let st := s.ports[p.val].st
      if st = .active ∨ st = .retrain then enterLeaving p s
      else if st = .dark ∨ st = .leaving then startPort p s
      else startPort p (goDark p s)) s

/-- The configuration in force replaced, with what each field brings. -/
def takeCfg (cfg : Cfg) (s' : State) : State :=
  let old := s'.eng.cfg
  let s := holdRoles cfg.portRole s'
  let keep (r : Nat) : Bool :=
    match r with
    | 1 => cfg.window == old.window
    | 2 => cfg.adapterMib == old.adapterMib
    | _ => true
  let lost := cfg.memMode != old.memMode
  let moved := cfg.window != old.window || cfg.adapterMib != old.adapterMib || lost
  let ls := match s.eng.image with | some im => im.layouts | none => []
  let w := s.wts
  let g := claimSlots (if cfg.memMode = 1 then 0 else if twoSlots cfg ls then 2 else 1) w
  let from' (n : Fin 2) : Option Nat :=
    let took (old new : Option Nat) : Option Nat := if new == some n.val then old else none
    if lost then none
    else ((took (w.current.bind (·.slot)) g.1).or (took (w.draining.bind (·.slot)) g.2.1)).or (took (w.load.bind (·.slot)) g.2.2)
  let s1 := if moved then relayout cfg ls keep from' s else s
  let s2 : State := { s1 with eng := { s1.eng with cfg := cfg } }
  let s3 := if moved then fetchAll (adapterChange old.adapterMib (takeSlots lost g s2)) else s2
  roleChange old.portRole (noteEngine s' s3)

/-- LIVE_CONFIG_APPLY: the pending bank's live fields are taken, all or none. A bank that is taken is the bank in force, and its cold
fields wait for the next cold start; one that is refused is pending no more. -/
def applyLive (s : State) : State :=
  match s.boot.pendBank with
  | none => s
  | some bs =>
    let b := s.boot
    let cfg := coldOf s.eng.cfg (bankCfg bs)
    if !b.livePending then s
    else if liveFits s cfg then
      takeCfg cfg { s with boot := { b with
        livePending := false, pendBank := none, bank := some !(b.bank.getD true), bankBytes := bs, bankSeq := bankSeqOf bs,
        bankFormat := bankFormatOf bs } }
    else cfgCode 0x0B02 { s with boot := { b with livePending := false, pendBank := none } }

end Sys2Proof.Machine
end

