-- ==== Sys2Proof/Machine/Placement.lean ====
section
/-! DEFINITION. Temperatures and stress (R432, R433), the placements that an engine can run (R459, R490), the choice of placement
(R441, R442), the power that a layer entry predicts and the duty cap (R426, R443), and the slot rate (R436). -/

namespace Sys2Proof.Machine

open Sys2Proof

/-! ### Sensors (R432, R433); temperatures in 1/16 °C -/

/-- A reading, if the sensor has not failed. -/
def sensor (r : Option Int) : Option Int :=
  match r with
  | some t => if -320 ≤ t ∧ t ≤ 2400 then some t else none
  | none => none

/-- A Redfish event for each sensor of a group that has failed since its last reading (R433, R503). -/
def sensorEvents : List (Option Int) → List (Option Int) → State → State
  | a :: l, b :: r, s =>
    sensorEvents l r (if (sensor a).isSome && (sensor b).isNone then logNamed "SensorFailure" s else s)
  | _, _, s => s

def maxList : List Int → Option Int
  | [] => none
  | x :: t => match maxList t with | some y => some (max x y) | none => some x

/-- A sensor of a group: a failed one reads as the hottest other plus 5 K; with all of them failed, a free value. -/
def readSensor (free : Nat) (rs : List (Option Int)) (i : Nat) : Int :=
  match sensor ((rs[i]?).join) with
  | some t => t
  | none => match maxList (rs.filterMap sensor) with
    | some t => t + 80
    | none => Config.lostSensors free

def quadList (q : QuadTemp) : List (Option Int) := [q.q0, q.q1, q.q2, q.q3]

/-- Whether every die diode of a tile has failed. -/
def diodesLost (x : PTile) : Bool := (x.diodes.filterMap sensor).isEmpty

/-- ⌊2c ÷ 3⌋ and ⌈2c ÷ 3⌉. -/
def diodeSpan (c : Nat) : List Nat := [2 * c / 3, (2 * c + 2) / 3]

/-- The die temperature of a cluster, by its number CY × 4 + CX in a tile. -/
def dieTemp (t : PhysTile) (x : PTile) (k : Nat) : Int :=
  let ts := (diodeSpan (k / 4)).flatMap fun dy => (diodeSpan (k % 4)).map fun dx => readSensor t.val x.diodes (dy * 3 + dx)
  (maxList ts).getD 0

/-- The quadrant of a cluster. -/
def quadOf (k : Nat) : Nat := k / 4 / 2 * 2 + k % 4 / 2

/-- The memory temperature of a cluster. -/
def memTemp (t : PhysTile) (x : PTile) (k : Nat) : Int :=
  max (readSensor (64 + t.val) (quadList x.layer0.temp) (quadOf k)) (readSensor (128 + t.val) (quadList x.layer1.temp) (quadOf k))

/-- The stress of a cluster in 1/16 K. -/
def stressAt (t : PhysTile) (x : PTile) (k : Nat) : Int := max (dieTemp t x k - 1600) (memTemp t x k - 1520)

def clusterStress (s : State) (ci : ClusterId) : Int :=
  let t := physCi s ci
  stressAt t s.tiles[t.val] (ci.val % 16)

/-- The largest cluster stress of a logical tile. -/
def tileStress (s : State) (pt : TileId) : Int :=
  let t := physOf s pt
  (maxList ((List.range 16).map (stressAt t s.tiles[t.val]))).getD 0

/-! ### Footprints (R459, R490) -/

/-- Whether a logical tile is in service. -/
def inService (s : State) (n : Nat) : Bool := s.boot.inService.getLsbD n

/-- The tile of a core number. -/
def tileOfCore (n : Nat) : Nat := n / 256 / 32 * 8 + n % 256 / 32

/-- The logical tiles of the footprint of an image in a placement, with repeats. -/
def footprint (im : Image) (place : Nat) : List Nat :=
  ((im.progs.filter fun g => g.place == place && !g.text.isEmpty).map fun g => tileOfCore g.core)
  ++ ((im.plans.filter fun p => p.place == place).flatMap fun p => (p.routers.filter fun r => !r.2.isEmpty).map fun r => tileOfCore r.1)
  ++ ((im.layouts.filter fun l => l.2 != {}).map fun l => l.1 / 16)
  ++ ((im.consts.filter fun c => !c.2.isEmpty).map fun c => c.1 / 16)

/-- Whether the footprint lies within the tiles in service. -/
def placed (s : State) (im : Image) (place : Nat) : Bool := (footprint im place).all (inService s)

/-- Whether a placement keeps off everything unserved. -/
def fits (s : State) (im : Image) (place : Nat) : Bool :=
  let core (n : Nat) : Bool := if h : n < 49152 then !coreUnserved s ⟨n, h⟩ else true
  (footprint im place).all (fun n => if h : n < 48 then !tileUnserved s ⟨n, h⟩ else true)
  && (im.progs.all fun g => g.place != place || g.text.isEmpty || core g.core)
  && (im.plans.all fun p => p.place != place ||
    ((p.routers.all fun r => r.2.isEmpty || core r.1)
     && p.edges.all fun e => if h : e.1 < 8 then e.2.all fun w => !edgeRetired s ⟨e.1, h⟩ (edgeLinkOf w) else true))

/-- The placements that the shuttles may choose for an image; a format 2 image runs in the identity placement only (R89). -/
def usable (s : State) (im : Image) : List Nat :=
  (placesOf im).filter fun p => (im.format != 2 || p == 0) && placed s im p && (!anyUnserved s || fits s im p)

/-- The code with which work ends for which no placement is there, among those that it may have: where each of them needs something unserved,
ENGINE_DEGRADED (R459, R490). -/
def noPlaceCode (s : State) (im : Image) (ps : List Nat) : BitVec 16 :=
  if anyUnserved s && !((ps.filter fun p => im.format != 2 || p == 0).any (fits s im)) then 0x020C else 0x0B03

/-- The placements that the shuttles may choose among: with ROTATE 0 the identity placement only (R442). -/
def mayPlace (s : State) (im : Image) : List Nat := (placesOf im).filter fun p => s.eng.cfg.rotate || p == 0

/-! ### Rotation (R441, R442) -/

/-- The logical tile on which a placement runs the work of an image tile. -/
def placeTile (p i : Nat) : Nat :=
  let x := i % 8
  let y := i / 8
  (if p / 2 = 1 then 5 - y else y) * 8 + (if p % 2 = 1 then 7 - x else x)

/-- The score of a placement, in 1/16 K × 48 × 2^32. -/
def placeScore (s : State) (p : Nat) : Int :=
  (List.range 48).foldl (fun n i =>
    let t := placeTile p i
    let st := if h : t < 48 then tileStress s ⟨t, h⟩ else 0
    n + (s.eng.weights.getD i 0 : Int) * st) 0

/-- The least 0.5 K by which a change must gain, in the unit of the score. -/
def placeGain : Int := 8 * 48 * weightUnit

/-- The lowest score among placements, the lower code first. -/
def bestPlace (s : State) : List Nat → Option Nat
  | [] => none
  | p :: t => match bestPlace s t with
    | some q => if placeScore s p ≤ placeScore s q then some p else some q
    | none => some p

/-- The placement that the shuttles take at a pass boundary, if the image can run. -/
def choosePlace (s : State) (im : Image) : Option Nat :=
  let ps := usable s im
  if !s.eng.cfg.rotate then (if ps.contains 0 then some 0 else none)
  else match bestPlace s ps with
    | none => none
    | some b =>
      if ps.contains s.eng.placement && decide (placeScore s s.eng.placement < placeScore s b + placeGain) then
        some s.eng.placement
      else some b

/-- PLACEMENT_CHOICE: a change of placement ends the scratchpad carry (R126). -/
def takePlacement (s : State) : State :=
  match s.eng.image with
  | none => s
  | some im =>
    match choosePlace s im with
    | none => s
    | some p =>
      let e := s.eng
      let s1 : State := { s with eng := { e with placement := p, score := placeScore s p / (48 * weightUnit) } }
      if p = e.placement then s1
      else
        let off (x : Nat × Core) : Nat × Core := (x.1, { x.2 with task := { x.2.task with prevCommitted := false } })
        { s1 with cores := s1.cores.map off, eng := { s1.eng with carry := false } }

/-! ### Power (R426, R443) -/

/-- The code of a slot rate in units of 100 MHz. -/
def rateOf (r : BitVec 2) : Nat := match r.toNat with | 0 => 20 | 1 => 16 | 2 => 12 | _ => 10

/-- D_ENG for a coming layer entry: P_L is ENERGY ÷ (CYCLES ÷ 2.0 GHz), scaled by the slot rate. -/
def dutyFor (s : State) (e : LayerEntry) : Nat :=
  let den := 2000000000 * e.energy * rateOf s.eng.nextRate
  if den = 0 then 16
  else
    let room := s.pwr.ceilMw - s.pwr.rest * 1000
    min 16 (max 1 (16 * room * e.cycles * 20 / den))

/-- The layer entries that a pass runs, in table order (R85). -/
def passEntries (im : Image) (d : BitVec 1024) : List Nat :=
  let back := bitOf (dField d 0x28 4) 1
  (List.range im.layers.length).filter fun i => match im.layers[i]? with | some e => (e.dir == 1) == back | none => false

/-- P_pass of a RUN_PASS in mW, as energy and cycles. -/
def passPower (im : Image) (d : BitVec 1024) : Nat × Nat :=
  let es := (passEntries im d).filterMap fun i => im.layers[i]?
  (es.foldl (fun n e => n + e.energy) 0 * 2000000000, es.foldl (fun n e => n + e.cycles) 0)

/-! ### The slot rate (R434, R436) -/

/-- The slot rate that no island's clock target undercuts, within the cap of R458. -/
def rateTarget (s : State) : BitVec 2 :=
  let all := s.clusters.map fun e => clockTarget s e.2
  if !s.boot.calibrated || s.pwr.lastResort then 3
  else all.foldl (fun m c => if m.toNat < c.toNat then c else m) 0

/-- The slot rate chosen at a layer boundary: a step waits for the lock reports, and islands whose target is below
the rate in force go down after it (R165, R436). -/
def stepRate (s : State) : State :=
  let r := rateTarget s
  let e := s.eng
  let s1 : State := { lowerClocks s with eng := { e with nextRate := r } }
  if r = e.slotRate then s1
  else
    let t := s1.tat
    let h (x : Nat × Hub) : Nat × Hub := (x.1, { x.2 with locks := 0 })
    let out := (List.finRange 48).foldl (fun m pt =>
      if s.boot.inService.getLsbD pt.val then m else setBit m pt.val) (0 : BitVec 64)
    { s1 with tat := { t with relock := true, tiles := t.tiles.map h, hub := { t.hub with locks := out }, dieLocks := 0 } }

end Sys2Proof.Machine
end

