-- ==== Sys2Proof/Machine/Darning.lean ====
section
/-! DEFINITION. Repairs as a step boundary applies them (R25, R31, R126, R249, R457, R482, R484, R486 to R490). -/

namespace Sys2Proof.Machine

open Sys2Proof

/-! ### What a change of core or tile brings -/

/-- A core that moves: its segments are OFF, and its first task has no carry (R124, R126, R482). -/
def moveCore (c : CoreId) (s : State) : State :=
  let k := s.core c
  s.setCore c { k with spad := {}, task := { k.task with prevCommitted := false, seg := 0 } }

/-- The cores of a cluster. -/
def clusterCores (ci : ClusterId) : List CoreId := (List.range 64).filterMap (coreOf ci)

/-- The clusters of a logical tile. -/
def tileClusters (pt : TileId) : List ClusterId := (List.range 16).map (clusterAt pt)

/-- Whether a piece writes region `r` of a cluster of a tile. -/
def pieceIn (pt : TileId) (r : Nat) (p : ManPiece) : Bool := p.dest == 1 && p.target / 16 == pt.val && p.win == r

/-- The chunks of a manifest with a piece that writes region `r` of a tile. -/
def tileChunks (m : Manifest) (pt : TileId) (r : Nat) : List (BitVec 32) :=
  ((List.range m.chunks.length).filter fun i => match m.chunks[i]? with
    | some c => (piecesFrom m c.firstPiece c.pieces).any (pieceIn pt r)
    | none => false).map (BitVec.ofNat 32)

/-- The chunks of an adapter manifest that write region 2 of a tile in a slot which the set owns and which has a state. -/
def ownedChunks (s : State) (pt : TileId) (st : SlotState) (m : Manifest) : List (BitVec 32) :=
  (tileChunks m pt 2).filter fun i => (chunkSlots m i.toNat).any fun k => ownsSlot s m k && (tabGet {} s.wts.adapters k).st == st

/-- The chunks that a relocation or restoration of a tile makes the engine fetch again (R249): those of region 6 of every live epoch, and of
one that is COMPLETE and may become live at this very boundary (R258), and those of region 2 of every READY slot. Of a load that goes on,
those of region 6 and of LOADING slots count as loaded no more. -/
def refetchTile (pt : TileId) (s : State) : State :=
  let w := s.wts
  let base (n : BitVec 16) (m : Manifest) : List (BitVec 16 × Bool × BitVec 32) :=
    ((neededChunks s m).filter fun i => (tileChunks m pt 6).contains i).map fun i => (n, false, i)
  let epochs := (w.current.toList ++ w.draining.toList).flatMap fun e => base e.number e.man
  let next := w.load.toList.flatMap fun l => match l.man with
    | some m => if l.st = .complete ∧ !l.adapter then base l.number m else []
    | none => []
  let sets := w.adapterMans.flatMap fun m => (ownedChunks s pt .ready m).map fun i => (m.number, true, i)
  let load := w.load.map fun l => match l.man with
    | some m =>
      if l.st = .complete ∧ !l.adapter then l
      else
        let gone := if l.adapter then ownedChunks s pt .loading m else tileChunks m pt 6
        let kept := l.loaded.filter fun i => !gone.contains i
        { l with loaded := kept, st := if l.st = .complete ∧ kept ≠ l.loaded then .loading else l.st }
    | none => l
  (epochs ++ next ++ sets).foldl (fun s x => addRefetch x.1 x.2.1 x.2.2.toNat s) { s with wts := { w with load := load } }

/-- R486 for one cluster: its old contents are lost, and every unit has been filled with zeros and a valid check as the tile was
powered up (R210). -/
def emptyCluster (ci : ClusterId) (s : State) : State :=
  s.setCluster ci { s.cluster ci with mem := {}, objs := [] }

/-- What the contents of a tile that is relocated or restored come to (R124, R485, R486). -/
def emptyTile (pt : TileId) (s : State) : State :=
  let cs := tileClusters pt
  let units := cs.foldl (fun n ci => n + regionMib s.eng.cfg (layoutOf s ci.val) ci.val 4 * mib / 64) 0
  let s1 := cs.foldl (fun s ci => emptyCluster ci s) s
  let s2 := cs.foldl (fun s ci => (clusterCores ci).foldl (fun s c => moveCore c s) s) s1
  let f := s2.flt
  let s3 : State := { s2 with flt := { f with
    resets := min 65535 (f.resets + units),
    stagingLost := f.stagingLost || (decide (pt.val < 8) && s.eng.cfg.window),
    rereads := if s.eng.image.isSome && !f.rereads.contains pt then f.rereads ++ [pt] else f.rereads,
    cases := f.cases.filter fun x => x.1 != pt,
    rewritten := f.rewritten.filter fun u => tileOfCi u.1 != pt,
    moves := f.moves.set pt.val (f.moves[pt.val] + 1), relocs := incW f.relocs } }
  refetchTile pt s3

/-- A core that loses power: it stops, and its queues, its scratchpad and its router are lost. -/
def Core.powerLost (k : Core) : Core :=
  { k with run := .stopped, units := {}, spad := {}, rx := [], accepts := [], router := {}, task := { k.task with prevCommitted := false } }

/-- The logical tile loses power: its cores stop, and its stacked memory is lost. -/
def dropTile (pt : TileId) (s : State) : State :=
  let s1 : State := { s with cores := s.cores.map fun e =>
    if h : e.1 < 49152 then (if ptOf ⟨e.1, h⟩ = pt then (e.1, e.2.powerLost) else e) else e }
  (tileClusters pt).foldl (fun s ci =>
    let k := s.cluster ci
    s.setCluster ci { k with mem := k.mem.drop 0 clusterBytes }) s1

/-- A logical tile enters service. -/
def serveTile (pt : TileId) (s : State) : State :=
  let b := s.boot
  let t := physOf s pt
  let x := s.tiles[t.val]
  ({ s with boot := { b with inService := b.inService ||| (1#48 <<< pt.val) } }).setTile t { x with st := .service }

/-- A logical tile leaves service. -/
def unserveTile (pt : TileId) (s : State) : State :=
  let b := s.boot
  { s with boot := { b with inService := b.inService &&& ~~~(1#48 <<< pt.val), entering := b.entering &&& ~~~(1#48 <<< pt.val) } }

/-- Loupe retires a physical tile: its eFuse is opened for good. -/
def retireTile (t : PhysTile) (s : State) : State :=
  let x := s.tiles[t.val]
  let s1 := s.setTile t { x with st := .retired, powered := false, fuse := .retired, opens := x.opens ++ [(.retired, nowMs s)] }
  if h : 48 ≤ t.val then { s1 with flt := { s1.flt with darn := s1.flt.darn.set (t.val - 48) 2 } } else s1

/-! ### Each repair -/

/-- A shift (R25, R482). -/
def applyShift (ci : ClusterId) (row pcol : Nat) (s : State) : State :=
  let s1 := writeRecord (setRow (physCi s ci) ⟨ci.val % 16, by omega⟩ row pcol s)
  let moved := ((List.range 8).filter fun c => decide (pcol ≤ c)).filterMap fun c => coreOf ci (8 * row + c)
  let s2 := moved.foldl (fun s c => moveCore c s) s1
  { s2 with flt := { s2.flt with shifts := incW s2.flt.shifts } }

/-- A relocation, the darning tile tested (R484 steps 3 and 4). -/
def applyRelocation (pt : TileId) (d : Fin 2) (s : State) : State :=
  let s1 := retireTile (physOf s pt) s
  let s2 : State := { s1 with flt := { s1.flt with tileMap := s1.flt.tileMap.set pt.val (BitVec.ofNat 8 (48 + d.val)) } }
  serveTile pt (emptyTile pt s2)

/-- A row that loses its logical column 7 (R489). -/
def applyLoseRow (ci : ClusterId) (row : Nat) (cols : BitVec 9) (s : State) : State :=
  let t := physCi s ci
  let x := s.tiles[t.val]
  let s0 := s.setTile t { x with pairs := tabSet x.pairs (8 * (ci.val % 16) + row) cols }
  let s1 := writeRecord (setRow t ⟨ci.val % 16, by omega⟩ row 14 s0)
  ((List.range 8).filterMap fun c => coreOf ci (8 * row + c)).foldl (fun s c => moveCore c s) s1

/-- One repair takes effect. -/
def applyRepair (r : Repair) (s : State) : State :=
  let s1 := match r with
    | .shift ci row pcol _ => applyShift ci row pcol s
    | .relocate t d _ => applyRelocation t d s
    | .restore t _ => serveTile t (emptyTile t (writeRecord s))
    | .edge d link => writeRecord { s with flt := { s.flt with edge := s.flt.edge ||| (1#640 <<< edgeBit d link) } }
    | .loseTile t =>
      let s1 := unserveTile t (dropTile t (retireTile (physOf s t) s))
      writeRecord { s1 with flt := { s1.flt with
        tileMap := s1.flt.tileMap.set t.val 0xFF, cases := s1.flt.cases.filter fun x => x.1 != t } }
    | .loseRow ci row cols => applyLoseRow ci row cols s
  noteEngine s { s1 with flt := { s1.flt with repairReg := repairWord r true } }

/-! ### At a boundary (R31, R488, R490) -/

/-- Whether a repair may be applied: its test, if it has one, has passed. -/
def repairDue : Repair → Bool
  | .shift _ _ _ tested => tested
  | .relocate _ _ tested => tested
  | .restore _ tested => tested
  | _ => true

/-- The order of repairs at one boundary. -/
def repairKey : Repair → Nat
  | .relocate t _ _ => t.val
  | .restore t _ => t.val
  | .shift ci row _ _ => 100 + ci.val * 8 + row
  | .edge d link => 10000 + d.val * 128 + link
  | .loseTile t => 20000 + t.val
  | .loseRow ci row _ => 30000 + ci.val * 8 + row

def insertRepair (r : Repair) : List Repair → List Repair
  | [] => [r]
  | x :: t => if repairKey r ≤ repairKey x then r :: x :: t else x :: insertRepair r t

/-- The logical tile of a shift. -/
def shiftTile : Repair → Option TileId
  | .shift ci _ _ _ => some (tileOfCi ci)
  | _ => none

/-- Whether a repair leaves something unserved. -/
def losesPart : Repair → Bool
  | .edge _ _ => true
  | .loseTile _ => true
  | .loseRow _ _ _ => true
  | _ => false

/-- The entry to DEGRADED, and the return to FULL once everything is served again. `losing` says that this boundary has left something
unserved: before the end of bring-up that alone enters DEGRADED (R456, R490). -/
def degradeCheck (losing : Bool) (s : State) : State :=
  if anyUnserved s then
    (if s.boot.eng = .full ∨ s.boot.eng = .draining ∨ (s.boot.eng = .reduced ∧ losing) then setEngine .degraded s else s)
  else if s.boot.eng = .degraded ∧ s.boot.calibrated then setEngine .full s
  else s

/-- Whether the units that compute service needs are there, tiles apart (R452). -/
def computeSet (s : State) : Bool :=
  s.boot.bank.isSome && s.host.hostDie && s.pwr.feeds.toList.any (fun f => f.st == .inService)
  && decide (2 ≤ (s.pwr.stages.toList.filter (·.inService)).length)
  && decide (4 ≤ (s.pwr.fans.toList.filter fun f => f.st == .running).length)

/-- The first tile in service ends BRINGUP once the compute set is complete (R452, R454); after full calibration the engine is at once in
full service, or DEGRADED. -/
def tileServed (s : State) : State :=
  if s.boot.eng ≠ .bringup ∨ s.boot.inService = 0 ∨ s.boot.powerDown ≠ 0 ∨ !computeSet s then s
  else
    let s1 := setEngine .reduced s
    if s1.boot.calibrated then setEngine (if anyUnserved s1 then .degraded else .full) s1 else s1

/-- The repairs that are due and for which a test holds are applied, in the order of R488; a shift in a tile that is relocated is dropped. They
wait while no cartridge is fitted, until Loupe has written its record into a new one (R542), and while Loupe, which writes the record before
each, does not answer (R494). -/
def applyWhere (may : Repair → Bool) (s : State) : State :=
  let all := s.flt.repairs
  let now (r : Repair) : Bool := repairDue r && may r
  let due := all.filter now
  if due.isEmpty ∨ s.boot.cart.isNone ∨ s.boot.recordDue ∨ s.boot.loupeDown ∨ s.host.loupeOff then s
  else
    let gone := due.filterMap fun r => match r with | .relocate t _ _ => some t | .loseTile t => some t | _ => none
    let dropped (r : Repair) : Bool := match shiftTile r with | some t => gone.contains t | none => false
    let rest := all.filter fun r => !now r && !dropped r
    let order := (due.filter fun r => !dropped r).foldl (fun l r => insertRepair r l) []
    fetchAll (degradeCheck (due.any losesPart)
      (tileServed (order.foldl (fun s r => applyRepair r s) { s with flt := { s.flt with repairs := rest } })))

/-- Every repair that is due is applied. -/
def applyRepairs (s : State) : State := applyWhere (fun _ => true) s

/-- The relocations of tiles that have left service, which are applied at the first boundary after the test (R484). -/
def applyOut (s : State) : State :=
  applyWhere (fun r => match r with | .relocate t _ _ => !s.boot.inService.getLsbD t.val | _ => false) s

/-- The tiles that have passed their wave enter service at a pass boundary (R457); the first one ends BRINGUP (R454). Where bring-up has
resumed after a loss of the power stages, each is restored (R491). -/
def enterTiles (s : State) : State :=
  if s.boot.entering = 0 then s
  else
    let ts := (List.finRange 48).filter fun t => s.boot.entering.getLsbD t.val
    let enter (s : State) (t : TileId) : State := serveTile t (if s.boot.restoring then emptyTile t s else s)
    let s1 := ts.foldl enter { s with boot := { s.boot with entering := 0 } }
    let s2 : State := { s1 with boot := { s1.boot with restoring := s1.boot.restoring && decide (s1.boot.phase < 8) } }
    settleEpochs (fetchAll (tileServed (noteEngine s s2)))

end Sys2Proof.Machine
end

