-- ==== Sys2Proof/Machine/PlanCheck.lean ====
section
/-! DEFINITION. Stitch plans as a STITCH_PLAN section holds them (R154 to R158), and the check of step 7 of R87 (R20, R147, R152, R159,
R160). -/

namespace Sys2Proof.Machine

open Sys2Proof

/-! ### The section (R154 to R157) -/

/-- The entries of a router directory. -/
abbrev dirEntries : Nat := 49160

def parseFlow (b : List Byte) : Flow where
  srcGx := fieldAt b 0 1
  srcGy := fieldAt b 1 1
  delivery := fieldAt b 2 2
  coreDests := fieldAt b 4 2
  edgeDests := fieldAt b 6 1
  flags := BitVec.ofNat 8 (fieldAt b 7 1)
  srcSlots := fieldAt b 8 4

/-- The words of a table. -/
def wordsAt (bs : List Byte) (o n : Nat) : List (BitVec 64) := (entriesAt bs o 8 n).map fun e => BitVec.ofNat 64 (leNat e)

/-- The tables of a part of a router directory, by index from `i`; an empty table is not listed. -/
def tablesOf (bs : List Byte) : Nat → List (List Byte) → Tab (List (BitVec 64))
  | _, [] => []
  | i, e :: t =>
    let n := fieldAt e 4 2
    if n = 0 then tablesOf bs (i + 1) t else (i, wordsAt bs (fieldAt e 0 4) n) :: tablesOf bs (i + 1) t

/-- The router directory of a plan. -/
def dirOf (bs : List Byte) : List (List Byte) := entriesAt bs (fieldAt bs 0xC 4) 8 dirEntries

/-- A plan from its own bytes. -/
def parsePlan (place index : Nat) (bs : List Byte) : Plan where
  place := place
  index := index
  period := fieldAt bs 0 2
  flows := (entriesAt bs (fieldAt bs 8 4) 16 (fieldAt bs 2 2)).map parseFlow
  routers := tablesOf bs 0 ((dirOf bs).take 49152)
  edges := tablesOf bs 0 ((dirOf bs).drop 49152)
  total := fieldAt bs 4 4
  maxDelivery := fieldAt bs 0x10 4

/-- PLAN_COUNT of a section. -/
def planCount (sec : List Byte) : Nat := fieldAt sec 0 2

/-- The bytes of each plan of a section. -/
def planBytes (sec : List Byte) : List (List Byte) :=
  (entriesAt sec 16 16 (planCount sec)).map fun e => (sec.drop (fieldAt e 0 8)).take (fieldAt e 8 4)

/-- The plans of a section. -/
def parsePlans (place : Nat) (sec : List Byte) : List Plan :=
  ((List.range (planCount sec)).zip (planBytes sec)).map fun x => parsePlan place x.1 x.2

/-- Whether the header and the directory of a section are in form. -/
def planSectionOk (sec : List Byte) : Bool :=
  let n := planCount sec
  decide (1 ≤ n) && decide (n ≤ 4096) && allZero ((sec.drop 2).take 14) && decide (16 + 16 * n ≤ sec.length)
    && (entriesAt sec 16 16 n).all fun e =>
      fieldAt e 0xC 4 == 0 && fieldAt e 0 8 % 64 == 0 && decide (fieldAt e 0 8 + fieldAt e 8 4 ≤ sec.length)

/-- Whether the header, the flow table and the router directory of one plan are in form. -/
def planBytesOk (bs : List Byte) : Bool :=
  let n := bs.length
  let flows := fieldAt bs 2 2
  let entry (i : Nat) (e : List Byte) : Bool :=
    let k := fieldAt e 4 2
    fieldAt e 6 2 == 0 && decide (k ≤ if i < 49152 then 256 else 1024)
      && (k == 0 || (fieldAt e 0 4 % 8 == 0 && decide (fieldAt e 0 4 + 8 * k ≤ n)))
  decide (64 ≤ n) && allZero ((bs.drop 0x14).take 44)
    && decide (fieldAt bs 8 4 + 16 * flows ≤ n) && decide (fieldAt bs 0xC 4 + 8 * dirEntries ≤ n)
    && ((entriesAt bs (fieldAt bs 8 4) 16 flows).all fun e => bits (fieldAt e 7 1) 7 2 == 0 && fieldAt e 0xC 4 == 0)
    && ((List.range dirEntries).zip (dirOf bs)).all fun x => entry x.1 x.2

/-! ### Stitches (R146, R147, R158) -/

/-- The outputs of a router stitch. -/
def outsOf (w : BitVec 64) : List Nat := (List.range 5).filter (stOut w)

/-- The firings of a stitch in a period. -/
def firings (w : BitVec 64) : Nat := bits w.toNat 23 12 + 1

/-- Firing slots: every START + k × STRIDE below PERIOD, and STRIDE at least 1 with more than one firing. -/
def slotsOk (period : Nat) (w : BitVec 64) : Bool :=
  let v := w.toNat
  let n := firings w
  if n = 1 then decide (bits v 11 0 < period)
  else decide (1 ≤ bits v 35 24) && decide (bits v 11 0 + (n - 1) * bits v 35 24 < period)

/-- The fields of a router stitch and R147. -/
def stitchOk (p : Plan) (c : CoreId) (w : BitVec 64) : Bool :=
  let outs := outsOf w
  bits w.toNat 47 44 == 0 && decide (stIn w ≤ 4) && decide ((stFlow w).toNat < p.flows.length) && slotsOk p.period w
    && !outs.isEmpty && !outs.contains (stIn w) && decide ((outs.filter (· < 4)).length ≤ 3)
    && (outs.all fun o => o == 4 || (neighbour c o).isSome) && (stIn w == 4 || (neighbour c (stIn w)).isSome)

/-- The fields of an edge stitch. -/
def edgeStitchOk (p : Plan) (d : DieId) (w : BitVec 64) : Bool :=
  bits w.toNat 46 43 == 0 && decide (edgeLinkOf w < edgeLinks d) && decide ((stFlow w).toNat < p.flows.length)
    && slotsOk p.period w

/-- The router table of a core in a plan. -/
def tableOf (p : Plan) (c : CoreId) : List (BitVec 64) := tabGet [] p.routers c.val

/-- The edge table of a port die in a plan. -/
def edgeTableOf (p : Plan) (d : DieId) : List (BitVec 64) := tabGet [] p.edges d.val

/-- The cores and port dies that have tables. -/
def planCores (p : Plan) : List CoreId := p.routers.filterMap fun e => if h : e.1 < 49152 then some ⟨e.1, h⟩ else none
def planDies (p : Plan) : List DieId := p.edges.filterMap fun e => if h : e.1 < 8 then some ⟨e.1, h⟩ else none

/-! ### Exclusivity and reserve (R152) -/

/-- Whether at most one stitch of a list fires in each slot of the period. -/
def alone (period : Nat) (ws : List (BitVec 64)) : Bool :=
  (List.range period).all fun t => decide ((ws.filter fun w => firesAt w t).length ≤ 1)

/-- Whether in every run of 32 slots, counted cyclically, there is one in which no stitch of a list fires. -/
def reserved (period : Nat) (ws : List (BitVec 64)) : Bool :=
  (List.range period).all fun t => (List.range 32).any fun k => !(ws.any fun w => firesAt w ((t + k) % period))

/-- The edge stitches of a die on a link in one direction. -/
def onLink (p : Plan) (d : DieId) (link : Nat) (out : Bool) : List (BitVec 64) :=
  (edgeTableOf p d).filter fun w => edgeLinkOf w == link && edgeOutbound w == out

/-- Exclusivity and reserve at a router. -/
def routerAlone (p : Plan) (c : CoreId) : Bool :=
  let ws := tableOf p c
  (List.range 5).all fun x =>
    let outs := ws.filter fun w => stOut w x
    alone p.period outs && alone p.period (ws.filter fun w => stIn w == x) && (x == 4 || reserved p.period outs)

/-- Exclusivity and reserve on the edge links of a port die, in each direction. -/
def dieAlone (p : Plan) (d : DieId) : Bool :=
  (List.range (edgeLinks d)).all fun l =>
    alone p.period (onLink p d l true) && alone p.period (onLink p d l false) && reserved p.period (onLink p d l false)

/-! ### Pairing -/

/-- The slots of the period in which a stitch fires. -/
def slotsOf (p : Plan) (w : BitVec 64) : List Nat := (List.range p.period).filter (firesAt w)

/-- The slot `a` slots before another, cyclically. -/
def backSlot (p : Plan) (t a : Nat) : Nat := (t + p.period - a % p.period) % p.period

/-- Whether a node releases a flow from an input in a slot of the period. -/
def releases (p : Plan) (n : MeshNode) (inp : Nat) (flow : BitVec 16) (t : Nat) : Bool :=
  match n with
  | .router c => (tableOf p c).any fun w => stIn w == inp && stFlow w == flow && firesAt w t
  | .die d => (onLink p d inp true).any fun w => stFlow w == flow && firesAt w t

/-- Whether a node drives a flow towards a side in a slot of the period. -/
def drives (p : Plan) (n : MeshNode) (side : Nat) (flow : BitVec 16) (t : Nat) : Bool :=
  match n with
  | .router c => (tableOf p c).any fun w => stOut w side && stFlow w == flow && firesAt w t
  | .die d => (onLink p d side false).any fun w => stFlow w == flow && firesAt w t

/-- Every drive of a router on a link is released at the far end, and every release of its neighbour inputs was driven. -/
def routerPaired (p : Plan) (c : CoreId) : Bool :=
  (tableOf p c).all fun w =>
    (slotsOf p w).all fun t =>
      ((outsOf w).all fun o => o == 4 || (match neighbour c o with
        | some (n, inp, a) => releases p n inp (stFlow w) ((t + a) % p.period)
        | none => false))
      && (stIn w == 4 || (match neighbour c (stIn w) with
        | some (n, side, a) => drives p n side (stFlow w) (backSlot p t a)
        | none => false))

/-- The same for the edge stitches of a port die. -/
def diePaired (p : Plan) (d : DieId) : Bool :=
  (edgeTableOf p d).all fun w =>
    match edgeRouter d (edgeLinkOf w) with
    | none => false
    | some (c, side) => (slotsOf p w).all fun t =>
        if edgeOutbound w then drives p (.router c) side (stFlow w) (backSlot p t 21)
        else releases p (.router c) side (stFlow w) ((t + 21) % p.period)

/-! ### Flows -/

/-- What one flit reaches: the firings other than its source's as (node, input, slot of the period), the routers, the cores and the
port dies it is delivered to, and the slots to the latest delivery. -/
structure Walk where
  fired : List (MeshNode × Nat × Nat) := []
  seen : List CoreId := []
  cores : List CoreId := []
  dies : List DieId := []
  lat : Nat := 0

/-- A flit followed from the releases that it has before it, each with the slots since its source firing; `none` if a router is
reached twice, or nothing releases it. -/
def walkFrom (p : Plan) (flow : BitVec 16) (start : Nat) : Nat → List (MeshNode × Nat × Nat) → Walk → Option Walk
  | 0, _, _ => none
  | _ + 1, [], k => some k
  | n + 1, (.die d, link, t) :: rest, k =>
    walkFrom p flow start n rest
      { k with fired := (.die d, link, (start + t) % p.period) :: k.fired, dies := d :: k.dies, lat := max k.lat t }
  | n + 1, (.router c, inp, t) :: rest, k =>
    if k.seen.contains c then none
    else
      match (tableOf p c).find? fun w => stIn w == inp && stFlow w == flow && firesAt w ((start + t) % p.period) with
      | none => none
      | some w =>
        let far := (outsOf w).filterMap fun o => if o = 4 then none else (neighbour c o).map fun x => (x.1, x.2.1, t + x.2.2)
        let k1 : Walk := { k with
          seen := c :: k.seen, fired := if inp = 4 then k.fired else (.router c, inp, (start + t) % p.period) :: k.fired }
        let k2 : Walk := if stOut w 4 then { k1 with cores := c :: k1.cores, lat := max k1.lat t } else k1
        walkFrom p flow start n (far ++ rest) k2

/-- A bound on the releases of one flit: each router once, and one for each edge link. -/
abbrev walkFuel : Nat := 50000

/-- The source stitches of a flow with their nodes: IN = LOCAL at a core, or inbound at a port die. -/
def coreSources (p : Plan) (flow : BitVec 16) : List (CoreId × BitVec 64) :=
  (planCores p).flatMap fun c => ((tableOf p c).filter fun w => stIn w == 4 && stFlow w == flow).map fun w => (c, w)

def dieSources (p : Plan) (flow : BitVec 16) : List (DieId × BitVec 64) :=
  (planDies p).flatMap fun d => ((edgeTableOf p d).filter fun w => !edgeOutbound w && stFlow w == flow).map fun w => (d, w)

/-- The firings of a flow that release a neighbour or edge link. -/
def released (p : Plan) (flow : BitVec 16) : Nat :=
  ((planCores p).flatMap (tableOf p)).foldl (fun n w => if stIn w ≠ 4 ∧ stFlow w = flow then n + firings w else n)
    (((planDies p).flatMap (edgeTableOf p)).foldl (fun n w => if edgeOutbound w ∧ stFlow w = flow then n + firings w else n) 0)

/-- The walks from every firing of a flow's source. -/
def flowWalks (p : Plan) (flow : BitVec 16) : Option (List Walk) :=
  let cores := (coreSources p flow).flatMap fun x => (slotsOf p x.2).map fun t => (t, (MeshNode.router x.1, 4, 0))
  let dies := (dieSources p flow).flatMap fun x => match edgeRouter x.1 (edgeLinkOf x.2) with
    | some (c, inp) => (slotsOf p x.2).map fun t => (t, (MeshNode.router c, inp, 21))
    | none => []
  (cores ++ dies).mapM fun x => walkFrom p flow x.1 walkFuel [x.2] {}

/-- Whether the flag, the source fields and the source stitches of a flow agree. -/
def sourceOk (p : Plan) (flow : BitVec 16) (f : Flow) : Bool :=
  let edge := f.flags.getLsbD 1
  let cs := coreSources p flow
  let ds := dieSources p flow
  (edge == (f.srcGx == 0 && decide (0xC0 ≤ f.srcGy) && decide (f.srcGy ≤ 0xC7)))
    && (if edge then cs.isEmpty && !ds.isEmpty && ds.all fun x => 0xC0 + x.1.val == f.srcGy
        else ds.isEmpty && !cs.isEmpty && cs.all fun x => coreAt f.srcGx f.srcGy == some x.1)
    && f.srcSlots == cs.foldl (fun n x => n + firings x.2) (ds.foldl (fun n x => n + firings x.2) 0)

/-- The core destinations of a flow. -/
def coreDestsOf (p : Plan) (flow : BitVec 16) : List CoreId :=
  match flowWalks p flow with
  | some ks => (ks.flatMap (·.cores)).eraseDups
  | none => []

/-- The flow rule of R160. -/
def flowOk (p : Plan) (flow : BitVec 16) (f : Flow) : Bool :=
  sourceOk p flow f && (match flowWalks p flow with
    | none => false
    | some ks =>
      (ks.flatMap (·.fired)).eraseDups.length == released p flow
        && (ks.flatMap (·.cores)).eraseDups.length == f.coreDests
        && (ks.flatMap (·.dies)).eraseDups.length == f.edgeDests
        && ks.all fun k => decide (k.lat + 1 ≤ f.delivery))

/-! ### Streams (R159) -/

/-- Whether the stream table of a core names each flow once, as R159 lays down. -/
def streamsOk (p : Plan) (c : CoreId) (ss : List StreamDesc) : Bool :=
  let one (d : StreamDesc) : Bool :=
    match p.flows[d.flow.toNat]? with
    | none => false
    | some f =>
      !f.flags.getLsbD 1 && f.srcGx == gxOf c && f.srcGy == gyOf c
        && (if d.dstGx = 0xFF ∧ d.dstGy = 0xFF then f.flags.getLsbD 0
            else (coreDestsOf p d.flow).any fun x => gxOf x == d.dstGx.toNat && gyOf x == d.dstGy.toNat)
  ss.all one && (ss.map (·.flow)).eraseDups.length == ss.length

/-! ### The check of one plan -/

/-- R160 for a plan in form, all rules but Streams. -/
def planOk (p : Plan) : Bool :=
  let count (t : Tab (List (BitVec 64))) : Nat := t.foldl (fun n e => n + e.2.length) 0
  decide (32 ≤ p.period) && decide (p.period ≤ 4096) && p.total == count p.routers + count p.edges
    && p.maxDelivery == p.flows.foldl (fun n f => max n f.delivery) 0
    && (p.flows.all fun f => decide (f.coreDests ≤ 49152) && decide (f.edgeDests ≤ 8))
    && ((planCores p).all fun c => (tableOf p c).all (stitchOk p c))
    && ((planDies p).all fun d => (edgeTableOf p d).all (edgeStitchOk p d))
    && ((planCores p).all fun c => routerAlone p c && routerPaired p c)
    && ((planDies p).all fun d => dieAlone p d && diePaired p d)
    && ((List.range p.flows.length).zip p.flows).all fun x => flowOk p (BitVec.ofNat 16 x.1) x.2

end Sys2Proof.Machine
end

