-- ==== Sys2Proof/Machine/ImageCheck.lean ====
section
/-! DEFINITION. The program image (R82 to R86, R206, R284, R545), the checks of R87, and the shares of clusters (R544). -/

namespace Sys2Proof.Machine

open Sys2Proof

/-! ### Sections (R83, R84) -/

/-- An entry of the section table. -/
structure Sect where
  ty : Nat
  place : Nat
  off : Nat
  size : Nat
  digest : List Byte
  rsvd : Bool

def parseSect (b : List Byte) : Sect where
  ty := fieldAt b 0 2
  place := fieldAt b 2 2
  off := fieldAt b 8 8
  size := fieldAt b 0x10 8
  digest := (b.drop 0x18).take 48
  rsvd := fieldAt b 4 4 == 0 && fieldAt b 0x48 8 == 0

/-- The section table of an image. -/
def sectsOf (bs : List Byte) : List Sect := (entriesAt bs 256 80 (fieldAt bs 0x10 2)).map parseSect

/-- PLACEMENT of a section that serves all placements. -/
abbrev allPlaces : Nat := 0xFFFF

/-- The section of a type and placement. -/
def sectFind (bs : List Byte) (ty place : Nat) : Option (List Byte) :=
  ((sectsOf bs).find? fun x => x.ty == ty && x.place == place).map fun x => (bs.drop x.off).take x.size

/-- The bytes of a section; none where there is no such section. -/
def sectBytes (bs : List Byte) (ty place : Nat) : List Byte := (sectFind bs ty place).getD []

/-- The placements present, by FLAGS. -/
def presentPlaces (bs : List Byte) : List Nat := (List.range 4).filter fun p => bitOf (fieldAt bs 0xC 4) p

/-- The digest of a section: that of a SIGNATURE section takes bytes 0x80–0xFF of its block as zero. -/
def sectDigest (ty : Nat) (b : List Byte) : List Byte :=
  sha384 (if ty = 8 then b.take 0x80 ++ List.replicate (b.length - 0x80) 0 else b)

/-! ### Step 1 -/

/-- The header and the section table. `size` is the descriptor's IMAGE_SIZE. -/
def imageHeaderOk (bs : List Byte) (size : Nat) : Bool :=
  let f := fieldAt bs
  let fmt := f 4 2
  let span := f 0x14 2
  let n := f 0x10 2
  let fin := 256 + 80 * n
  decide (256 ≤ bs.length) && f 0 4 == 0x4D495143 && (fmt == 2 || fmt == 3) && f 6 2 == 256 && f 8 2 == 0x0046
    && f 0x18 8 == size && decide (1 ≤ n) && decide (n ≤ 256) && decide (1 ≤ f 0x12 2) && decide (f 0x12 2 ≤ 4096)
    && decide (1 ≤ span) && decide (span ≤ 16) && bitOf (f 0xC 4) 0 && bits (f 0xC 4) 31 5 == 0
    && (fmt == 3 || bits (f 0xC 4) 3 0 == 1)
    && ((List.range 16).all fun i =>
      let m := f (0x28 + 2 * i) 2
      if i < span then bits m 15 14 == 0 else m == 0xFFFF)
    && f 0x16 2 == 0 && allZero ((bs.drop 0x78).take 136) && decide (fin ≤ size)
    && (sectsOf bs).all fun x => x.rsvd && x.off % 64 == 0 && decide (fin ≤ x.off) && decide (x.off + x.size ≤ size)

/-! ### Step 4 -/

/-- The sections an image must hold and those it may. -/
def sectNeed (bs : List Byte) : List (Nat × Nat) :=
  [(1, allPlaces), (5, allPlaces), (8, allPlaces)] ++ (presentPlaces bs).flatMap fun p => [(2, p), (3, p), (4, p)]

def sectMay (bs : List Byte) : List (Nat × Nat) :=
  (6, allPlaces) :: if fieldAt bs 4 2 = 3 then [(7, allPlaces)] else []

/-- TABLE_DIGEST, the section set, and the digest of every section. -/
def digestsOk (bs : List Byte) : Bool :=
  let n := fieldAt bs 0x10 2
  let ss := sectsOf bs
  let keys := ss.map fun x => (x.ty, x.place)
  sha384 ((bs.drop 256).take (80 * n)) == (bs.drop 0x48).take 48
    && keys.eraseDups.length == keys.length && (sectNeed bs).all keys.contains
    && (keys.all fun k => (sectNeed bs).contains k || (sectMay bs).contains k)
    && keys.getLast? == some (8, allPlaces)
    && ss.all fun x => sectDigest x.ty ((bs.drop x.off).take x.size) == x.digest

/-! ### Step 5 -/

/-- Bytes of a layer entry. -/
def layerSize (fmt : Nat) : Nat := if fmt = 3 then 48 else 32

def parseLayer (fmt : Nat) (b : List Byte) : LayerEntry where
  layerId := fieldAt b 0 2
  dir := fieldAt b 2 1
  flags := BitVec.ofNat 8 (fieldAt b 3 1)
  chunks := fieldAt b 4 4
  cycles := fieldAt b 8 4
  energy := fieldAt b 0xC 4
  wdog := fieldAt b 0x10 4
  plan := fieldAt b 0x14 2
  rank := fieldAt b 0x16 1
  focusIndex := if fmt = 3 then fieldAt b 0x20 4 else 0

/-- The layer entries of an image. -/
def layersOf (bs : List Byte) : List LayerEntry :=
  let fmt := fieldAt bs 4 2
  (entriesAt (sectBytes bs 1 allPlaces) 0 (layerSize fmt) (fieldAt bs 0x12 2)).map (parseLayer fmt)

/-- The FOCUS section's COUNT. -/
def focusCount (bs : List Byte) : Nat := fieldAt (sectBytes bs 7 allPlaces) 0 4

/-- One layer entry. -/
def layerOk (bs b : List Byte) : Bool :=
  let fmt := fieldAt bs 4 2
  let e := parseLayer fmt b
  decide (e.dir ≤ 1) && bits e.flags.toNat 7 5 == 0 && (fmt == 3 || !lfFocus e)
    && allZero ((b.drop 0x17).take 9) && (fmt == 2 || allZero ((b.drop 0x24).take 12))
    && (if lfSketch e then decide (1 ≤ e.rank) && decide (e.rank ≤ 64) else e.rank == 0)
    && ((presentPlaces bs).all fun p => decide (e.plan < planCount (sectBytes bs 4 p)))
    && (fmt == 2 || !lfFocus e || decide (e.focusIndex < focusCount bs))

/-- A stream entry. -/
def parseStream (b : List Byte) : StreamDesc where
  flow := BitVec.ofNat 16 (fieldAt b 0 2)
  dstGx := BitVec.ofNat 8 (fieldAt b 2 1)
  dstGy := BitVec.ofNat 8 (fieldAt b 3 1)
  win := ⟨fieldAt b 4 1 % 8, by omega⟩

/-- The bytes of the stream table that a core entry names. -/
def streamBytes (map e : List Byte) : List (List Byte) := entriesAt map (fieldAt e 8 4) 8 (fieldAt e 7 1)

/-- One core entry. -/
def coreEntryOk (text map e : List Byte) : Bool :=
  let n := fieldAt e 7 1
  fieldAt e 0 4 % 8 == 0 && decide (fieldAt e 4 2 ≤ 2048) && decide (fieldAt e 0 4 + 8 * fieldAt e 4 2 ≤ text.length)
    && decide (n ≤ 64) && (n == 0 || decide (fieldAt e 8 4 + 8 * n ≤ map.length)) && decide (fieldAt e 0xC 4 + 128 ≤ map.length)
    && (streamBytes map e).all fun x => bits (fieldAt x 4 1) 7 3 == 0 && fieldAt x 5 3 == 0

/-- The core entries of a placement in the order of layer entry, GY and GX. -/
def coreEntries (bs : List Byte) (p : Nat) : List (List Byte) :=
  entriesAt (sectBytes bs 3 p) 0 16 (49152 * fieldAt bs 0x12 2)

/-- CORE_MAP of one placement. -/
def coreMapOk (bs : List Byte) (p : Nat) : Bool :=
  let map := sectBytes bs 3 p
  decide (16 * 49152 * fieldAt bs 0x12 2 ≤ map.length) && (coreEntries bs p).all (coreEntryOk (sectBytes bs 2 p) map)

/-- The entries of the CONST section. -/
def constEntries (sec : List Byte) : List (List Byte) := entriesAt sec 16 16 768

def constOk (sec : List Byte) : Bool :=
  decide (16 + 16 * 768 ≤ sec.length) && fieldAt sec 0 2 == 768 && fieldAt sec 2 2 == 16 && allZero ((sec.drop 4).take 12)
    && (constEntries sec).all fun e =>
      fieldAt e 0xC 4 == 0 && fieldAt e 0 8 % 64 == 0 && fieldAt e 8 4 % 64 == 0
        && decide (fieldAt e 0 8 + fieldAt e 8 4 ≤ sec.length)

/-- The predictor records. -/
def focusEntries (sec : List Byte) : List (List Byte) := entriesAt sec 16 32 (fieldAt sec 0 4)

def parseFocusRec (e : List Byte) : FocusRec := ⟨fieldAt e 0 2, fieldAt e 2 1, fieldAt e 4 2, fieldAt e 6 2⟩

/-- The records of a FOCUS section at step 5 (R284). DESIGN CHOICE (log entry 77): the spec does not say whether step 5 holds CONST_OFFSET
and CONST_SIZE, predictor data opaque to the engine, against the CONST section; the model does not. -/
def focusSectionOk (layers : List LayerEntry) (sec : List Byte) : Bool :=
  let one (e : List Byte) : Bool :=
    let r := parseFocusRec e
    (match layers[r.entry]? with | some l => lfFocus l | none => false) && decide (r.mode ≤ 1) && fieldAt e 3 1 == 0
      && allZero ((e.drop 0x10).take 16)
      && (r.mode == 0 || (decide (2 ≤ r.sampleN) && decide (r.sampleN ≤ 1024) && decide (1 ≤ r.missLimit)
        && decide (r.missLimit ≤ 1000)))
  decide (16 + 32 * fieldAt sec 0 4 ≤ sec.length) && allZero ((sec.drop 4).take 12) && (focusEntries sec).all one

/-- The structure of the sections. -/
def structureOk (bs : List Byte) : Bool :=
  let fmt := fieldAt bs 4 2
  let lt := sectBytes bs 1 allPlaces
  let n := fieldAt bs 0x12 2
  lt.length == layerSize fmt * n && ((entriesAt lt 0 (layerSize fmt) n).all (layerOk bs))
    && ((presentPlaces bs).all (coreMapOk bs))
    && (match sectFind bs 6 allPlaces with | some x => constOk x | none => true)
    && (match sectFind bs 7 allPlaces with | some x => focusSectionOk (layersOf bs) x | none => true)

/-! ### Step 6 -/

/-- The program that a core entry names. -/
def entryText (bs : List Byte) (p : Nat) (e : List Byte) : List (BitVec 64) :=
  wordsAt (sectBytes bs 2 p) (fieldAt e 0 4) (fieldAt e 4 2)

/-- Whether the target of a branch or JAL at an index lies inside a program of `n` instructions. -/
def targetOk (n pc : Nat) (w : BitVec 64) : Bool :=
  let op := bits w.toNat 63 56
  if 0x30 ≤ op ∧ op ≤ 0x36 then
    let t := (pc : Int) + signedOf 32 w.toNat
    decide (0 ≤ t) && decide (t < n)
  else true

/-- A program: every word decodable, and every static target inside it. -/
def textOk (ws : List (BitVec 64)) : Bool :=
  ((List.range ws.length).zip ws).all fun x => decodable x.2 && targetOk ws.length x.1 x.2

/-! ### The parsed image -/

def parseWindow (b : List Byte) : BitVec 128 := BitVec.ofNat 128 (leNat b)

/-- The core entry of index `i` of a placement, unless it holds nothing that a task uses. -/
def parseCore (bs : List Byte) (p i : Nat) (e : List Byte) : Option CoreProg :=
  let map := sectBytes bs 3 p
  let wins := (entriesAt map (fieldAt e 0xC 4) 16 8).map parseWindow
  let g : CoreProg :=
    { place := p, layer := i / 49152, core := i % 49152, text := entryText bs p e, seg := BitVec.ofNat 8 (fieldAt e 6 1),
      streams := (streamBytes map e).map parseStream, wins := wins }
  if g.text.isEmpty && g.seg == 0 && g.streams.isEmpty && !(wins.any fun w => w.getLsbD 98) then none else some g

/-- The core entries of a placement. -/
def progsAt (bs : List Byte) (p : Nat) : List CoreProg :=
  let es := coreEntries bs p
  ((List.range es.length).zip es).filterMap fun x => parseCore bs p x.1 x.2

/-- The entries of STACK_LAYOUT. -/
def layoutEntries (bs : List Byte) : List (List Byte) := entriesAt (sectBytes bs 5 allPlaces) 16 16 768

def parseLayout (e : List Byte) : Layout := ⟨fieldAt e 0 2, fieldAt e 2 2, fieldAt e 4 2, fieldAt e 6 2, fieldAt e 8 2⟩

/-- The layouts of the clusters; one of zeros is not listed. -/
def layoutsOf (bs : List Byte) : Tab Layout :=
  let es := layoutEntries bs
  ((List.range es.length).zip es).filterMap fun x =>
    let l := parseLayout x.2
    if l = {} then none else some (x.1, l)

/-- The CONST shares of the clusters. -/
def constsOf (bs : List Byte) : Tab (List Byte) :=
  match sectFind bs 6 allPlaces with
  | none => []
  | some sec =>
    let es := constEntries sec
    ((List.range es.length).zip es).filterMap fun x =>
      let n := fieldAt x.2 8 4
      if n = 0 then none else some (x.1, (sec.drop (fieldAt x.2 0 8)).take n)

/-- An image from its bytes. -/
def parseImage (bs : List Byte) : Image where
  format := fieldAt bs 4 2
  minAbi := BitVec.ofNat 16 (fieldAt bs 0xA 2)
  places := BitVec.ofNat 4 (fieldAt bs 0xC 4)
  training := bitOf (fieldAt bs 0xC 4) 4
  span := (List.range (fieldAt bs 0x14 2)).map fun i => BitVec.ofNat 16 (fieldAt bs (0x28 + 2 * i) 2)
  buildId := BitVec.ofNat 64 (fieldAt bs 0x20 8)
  tableDigest := (bs.drop 0x48).take 48
  size := fieldAt bs 0x18 8
  layers := layersOf bs
  progs := (presentPlaces bs).flatMap (progsAt bs)
  plans := (presentPlaces bs).flatMap fun p => parsePlans p (sectBytes bs 4 p)
  layouts := layoutsOf bs
  consts := constsOf bs
  focus := ((sectFind bs 7 allPlaces).map fun x => (focusEntries x).map parseFocusRec).getD []

/-! ### Step 7 -/

/-- The plans of a placement and the streams of every core of every layer that uses each. -/
def plansOk (bs : List Byte) (im : Image) (p : Nat) : Bool :=
  let sec := sectBytes bs 4 p
  planSectionOk sec && ((planBytes sec).all planBytesOk)
    && ((parsePlans p sec).all planOk)
    && (im.progs.filter fun g => g.place == p).all fun g =>
      g.streams.isEmpty || (match im.layers[g.layer]? with
        | none => false
        | some l => match planAt im p l.plan with
          | none => false
          | some pl => if h : g.core < 49152 then streamsOk pl ⟨g.core, h⟩ g.streams else false)

/-! ### Step 8 -/

/-- The span: with more than one member, this engine's ID once, and no ID twice. -/
def spanOk (id : BitVec 14) (im : Image) : Bool :=
  decide (im.span.length ≤ 1) || (im.span.eraseDups.length == im.span.length && im.span.contains (id.setWidth 16))

/-! ### Step 9 (R206, R544) -/

/-- STACK_LAYOUT in form. -/
def layoutSectionOk (bs : List Byte) (training : Bool) : Bool :=
  let sec := sectBytes bs 5 allPlaces
  sec.length == 16 + 16 * 768 && fieldAt sec 0 2 == 768 && fieldAt sec 2 2 == 16 && allZero ((sec.drop 4).take 12)
    && (layoutEntries bs).all fun e =>
      let l := parseLayout e
      (training || l.resid == 0) && decide (l.wMixed ≤ l.wAll) && allZero ((e.drop 10).take 6)

/-- The bytes that lie in at least one of a list of ranges. -/
def coveredBytes : List (Nat × Nat) → List (Nat × Nat) → Nat
  | _, [] => 0
  | done, r :: t =>
    (done.foldl (fun l x => cutRanges x.1 x.2 l) [r]).foldl (fun n x => n + (x.2 - x.1)) 0 + coveredBytes (r :: done) t

/-- The bytes of the tables that every cluster holds whole. -/
def sharedBytes (bs : List Byte) (im : Image) : Nat :=
  let secs := [1, 5, 7, 8].foldl (fun n t => n + (sectBytes bs t allPlaces).length) 0
  let plans := (presentPlaces bs).foldl (fun n p =>
    n + 16 + 16 * planCount (sectBytes bs 4 p)
      + (im.plans.filter fun x => x.place == p).foldl (fun m x => m + 64 + 16 * x.flows.length + 8 * dirEntries) 0) 0
  256 + 80 * fieldAt bs 0x10 2 + secs + plans

/-- The CI of the core of an index. -/
def clusterOfIndex (i : Nat) : Nat := if h : i < 49152 then (ciOf ⟨i, h⟩).val else 0

/-- The cluster that holds the edge tables of a port die: that of its first edge link. -/
def edgeHome (d : Nat) : Nat :=
  if h : d < 8 then match edgeRouter ⟨d, h⟩ 0 with | some (c, _) => (ciOf c).val | none => 0 else 0

/-- The share of one cluster in one placement. -/
def placeShare (bs : List Byte) (im : Image) (ci p : Nat) : Nat :=
  let es := coreEntries bs p
  let mine := (((List.range es.length).zip es).filter fun x => clusterOfIndex (x.1 % 49152) == ci).map (·.2)
  let entries := mine.foldl (fun n e => n + 144 + 8 * fieldAt e 7 1) 0
  let text := coveredBytes [] (mine.map fun e => (fieldAt e 0 4, fieldAt e 0 4 + 8 * fieldAt e 4 2))
  let tables := (im.plans.filter fun x => x.place == p).foldl (fun n x =>
    n + (x.routers.filter fun e => clusterOfIndex e.1 == ci).foldl (fun m e => m + 8 * e.2.length) 0
      + (x.edges.filter fun e => edgeHome e.1 == ci).foldl (fun m e => m + 8 * e.2.length) 0) 0
  entries + text + tables

/-- The share of a cluster in bytes (R544). -/
def clusterShare (bs : List Byte) (im : Image) (ci : Nat) : Nat :=
  sharedBytes bs im + (presentPlaces bs).foldl (fun n p => n + placeShare bs im ci p) 0 + (tabGet [] im.consts ci).length

/-- Step 9. -/
def sizesOk (s : State) (bs : List Byte) (im : Image) : Bool :=
  layoutSectionOk bs im.training && layoutsFit s.eng.cfg im.layouts
    && (List.range 768).all fun ci => decide (clusterShare bs im ci ≤ 48 * mib)

/-! ### R87 -/

/-- The code of the first check that fails. -/
def imageCheck (s : State) (size : Nat) (bs : List Byte) : Option (BitVec 16) :=
  let im := parseImage bs
  if !imageHeaderOk bs size then some 0x0220
  else if s.host.abi.toNat < im.minAbi.toNat then some 0x0225
  else match sigCheck s 1 (bs.take 256) (sectBytes bs 8 allPlaces) with
    | some c => some c
    | none =>
      if !digestsOk bs then some 0x0221
      else if !structureOk bs then some 0x0220
      else if !((presentPlaces bs).all fun p => (coreEntries bs p).all fun e => textOk (entryText bs p e)) then some 0x0222
      else if !((presentPlaces bs).all (plansOk bs im)) then some 0x0223
      else if !spanOk s.eng.cfg.engineId im then some 0x0224
      else if !sizesOk s bs im then some 0x0410
      else none

end Sys2Proof.Machine
end

