-- ==== Sys2Proof/Machine/Starting.lean ====
section
/-! DEFINITION. The start mark (R26, R47, R76, R86, R123 to R126, R130, R148, R161, R175, R192, R202, R244, R310, R352, R479). -/

namespace Sys2Proof.Machine

open Sys2Proof

/-! ### Segments and stitch banks (R125, R148, R161) -/

/-- Whether every segment that a layer pass uses is ON. -/
def segsReady (s : State) (lp : LayerPass) : Bool :=
  (lpProgs s lp).all fun x => (List.finRange 8).all fun (i : Fin 8) =>
    !x.2.seg.getLsbD i.val || (s.core x.1).spad.segs[i.val] == .on

/-- The stitch plan of a layer pass; that of a slice is the firmware's, of which the spec gives nothing. -/
def lpPlan (s : State) (lp : LayerPass) : Option Plan :=
  match lpEntry lp, s.eng.image with
  | some e, some im => (im.layers[e]?).bind (planOf s)
  | _, _ => none

/-- Whether every router and port die has its bank. -/
def banksReady (s : State) (lp : LayerPass) : Bool :=
  match lpPlan s lp with
  | none => true
  | some p =>
    (p.routers.all fun e => e.2.isEmpty || (match tabFind s.cores e.1 with
      | some k => k.router.next == some e.2 || k.router.table == e.2
      | none => false))
    && (List.finRange 8).all fun d =>
      let t := tabGet [] p.edges d.val
      let x := s.dies[d.val]
      t.isEmpty || x.next == some t || x.table == t

/-! ### Cores -/

/-- The bank from which a core's first task ran is free after an install and after each darning change to the core, and each task but
a re-run of a run that has started takes the other bank (R76). -/
def bankOf (s : State) (lp : LayerPass) (c : CoreId) : Bool :=
  let place := rowOf s (ciOf c) (rowIn c) + 16 * (s.flt.moves[(ptOf c).val] + 4294967296 * s.eng.installs)
  (Config.firstBank (c.val + 65536 * place)) ^^ (lp.bankRun % 2 == 1)

/-- Windows at the start of a task: those with OPEN_AT_START are opened, and the others closed with no byte counted and their settings
kept (R47, R142). The first descriptor that breaks R128 is returned. -/
def startWindows (seg : BitVec 8) (ws : List (BitVec 128)) (old : Vector Window 8) :
    Vector Window 8 × Option (Nat × BitVec 16) :=
  let one (i : Fin 8) : Window × Option (BitVec 16) :=
    let w := old[i.val]
    let r := descSet (ws.getD i.val 0)
    if r.2 then
      match winFaultCode seg r.1 with
      | none => (r.1.opened, none)
      | some code => ({ w with opened := false, rx := 0 }, some code)
    else ({ w with opened := false, rx := 0 }, none)
  (Vector.ofFn fun i => (one i).1, (List.finRange 8).findSome? fun i => (one i).2.map fun code => (i.val, code))

/-- A core at the start of a task, with the window whose descriptor faults. Its program stands in the bank that runs, and `coming`, the
program of the next layer entry where that is known, is loaded into the other bank meanwhile (R46). The windows of a core whose
program has no instruction are closed from the start (R134). A slice runs the firmware's programs, of which the spec gives
nothing: the core takes no part, and its scratchpad is lost, but for a slice between the runs of a layer pass put aside, whose re-run finds
the segments as the failed run left them (R124). CARRY_VALID is 0 in the run after a start mark that failed twice, which counts as a
run (R126, R479). -/
def startCore (s : State) (lp : LayerPass) (g : Option CoreProg) (coming : Option (List (BitVec 64))) (table : List (BitVec 64))
    (c : CoreId) : Core × Option (Nat × BitVec 16) :=
  let k := s.core c
  let seg : BitVec 8 := match g with | some g => g.seg | none => 0
  let text := match g with | some g => g.text | none => []
  let w := startWindows seg (match g with | some g => g.wins | none => []) k.wins
  let bank := bankOf s lp c
  let work := lp.kind == .work
  let task : Task := {
    lpass := s.eng.passNo, seg := seg, streams := (match g with | some g => g.streams | none => []), bank := bank,
    carryValid := work && lp.runs == 1 && k.task.prevCommitted && k.task.prevInstall == s.eng.installs,
    carried := k.task.seg &&& seg, prevInstall := k.task.prevInstall, prevCommitted := k.task.prevCommitted }
  let router : Router := { table := table, running := true }
  let k1 : Core := { k with wins := w.1 }
  ({ k with
      run := if text.isEmpty then .halted else .running,
      regs := {}, units := {}, recs := {}, cnt := {}, latch := [], rx := [], accepts := [], task := task,
      wins := (if text.isEmpty then closeWins k1 else k1).wins,
      ibuf0 := if bank then coming.getD k.ibuf0 else text, ibuf1 := if bank then text else coming.getD k.ibuf1,
      spad := if work || s.eng.parked.isSome then k.spad else {}, router := router }, w.2)

/-- The core entries of the layer entry that follows in the pass, if one does. -/
def comingProgs (s : State) (lp : LayerPass) : Option (List (CoreId × CoreProg)) :=
  if lp.kind = .work then (s.eng.pass.bind fun p => p.todo.head?).map (progsOf s) else none

/-- The cores that a layer pass changes: those listed, and those with a program, a coming program or a router table. -/
def startList (s : State) (lp : LayerPass) : List CoreId :=
  let ids := s.cores.map Prod.fst ++ (lpProgs s lp ++ (comingProgs s lp).getD []).map (fun x => x.1.val)
    ++ (match lpPlan s lp with | some p => p.routers.map Prod.fst | none => [])
  (ids.eraseDups).filterMap fun n => if h : n < 49152 then some ⟨n, h⟩ else none

/-- Every core starts its task. -/
def startCores (lp : LayerPass) (s : State) : State :=
  let ps := lpProgs s lp
  let routers := match lpPlan s lp with | some p => p.routers | none => []
  let next := comingProgs s lp
  let cs := (startList s lp).map fun c =>
    (c, startCore s lp (if coreUnserved s c then none else progIn ps c)
      (next.map fun l => match progIn l c with | some g => g.text | none => []) (tabGet [] routers c.val) c)
  let s1 := cs.foldl (fun s x => s.setCore x.1 x.2.1) s
  cs.foldl (fun s x => match x.2.2 with
    | some (i, code) => coreFault x.1 6 code 0 i s
    | none => s) s1

/-! ### Hubs and objects (R175, R191, R192) -/

/-- The unserved cores of a cluster (R489). -/
def lostMask (s : State) (ci : ClusterId) : BitVec 64 :=
  (List.range 8).foldl (fun m r => if rowOf s ci r == 14 then setBit m (8 * r + 7) else m) 0

/-- The cores of a cluster that have a program to run. -/
def workMask (ps : List (CoreId × CoreProg)) (ci : ClusterId) : BitVec 64 :=
  ps.foldl (fun m x => if ciOf x.1 = ci && !x.2.text.isEmpty then setBit m (inCluster x.1) else m) 0

/-- A hub at the start of a layer pass. -/
def startHub (h : Hub) (halted lost : BitVec 64) : Hub :=
  { ({} : Hub) with halted := halted, settled := lost, acks := lost, acksR := lost, stale := h.stale }

/-- Cluster-homed objects are reset, and every hub expects its children: a core with no program has arrived already. -/
def startHubs (lp : LayerPass) (s : State) : State :=
  let ps := lpProgs s lp
  let ids := (s.clusters.map Prod.fst ++ ps.map (fun x => (ciOf x.1).val)
    ++ ((List.finRange 768).filter fun ci => lostMask s ci != 0).map (·.val)).eraseDups
  let s1 := ids.foldl (fun s n =>
    if h : n < 768 then
      let ci : ClusterId := ⟨n, h⟩
      let k := s.cluster ci
      s.setCluster ci { k with objs := [], hub := startHub k.hub (~~~(workMask ps ci)) (lostMask s ci) }
    else s) s
  let busy (pt : TileId) (i : Nat) : Bool := workMask ps (clusterAt pt i) != 0
  let tileHalted (pt : TileId) : BitVec 64 := (List.range 16).foldl (fun m i => if busy pt i then m else setBit m i) 0
  let s2 := (List.finRange 48).foldl (fun s pt => s.setTileHub pt (startHub (s.tileHub pt) (tileHalted pt) 0)) s1
  let idle := (List.finRange 48).foldl (fun m pt =>
    if s.boot.inService.getLsbD pt.val && tileHalted pt != fullMask 16 then m else setBit m pt.val) (0 : BitVec 64)
  let out := (List.finRange 48).foldl (fun m pt =>
    if s.boot.inService.getLsbD pt.val then m else setBit m pt.val) (0 : BitVec 64)
  let t := s2.tat
  { s2 with tat := { t with hub := { startHub t.hub idle out with locks := t.hub.locks }, dieSettled := 0, dieAcks := 0 } }

/-! ### Port dies -/

/-- The port dies take their tables and the intake ranges of the layer pass (R148, R310, R340). -/
def startDies (lp : LayerPass) (s : State) : State :=
  let edges := match lpPlan s lp with | some p => p.edges | none => []
  let bound := (lpEntry lp).bind fun _ => (s.eng.lp.bind (·.inst)).bind (instAt s)
  let one (d : DieId) : Die :=
    let x := s.dies[d.val]
    let sketch := match lpEntry lp with | some e => sketchRanges s e d | none => []
    let binds := match bound with | some k => bindRanges k d | none => []
    { x with
      table := tabGet [] edges d.val, next := none, loaded := false, slot := 0, running := true, settled := false, hold := [],
      rx := [], ranges := sketch ++ binds, intake := [] }
  { s with dies := Vector.ofFn one, wires := [] }

/-! ### The start mark -/

/-- A collective slice takes what it is to move, and its transfers are checked (R343). -/
def startMoves (lp : LayerPass) (links : List Nat) (s : State) : State :=
  match lp.kind, lp.inst with
  | .coll, some id =>
    let m := sliceMoves id s
    checkMoves links m.2 (s.setLp (s.eng.lp.map fun l => { l with moves := m.1 }))
  | _, _ => s

/-- The layer pass starts. -/
def startLp (lp : LayerPass) (links : List Nat) (s : State) : State :=
  let e := s.eng
  let n := e.passNo + 1
  let bankRun := if lp.began then lp.bankRun else e.runtimeRuns + 1
  let lp1 : LayerPass := { lp with number := n, started := true, markFails := 0, bankRun := bankRun }
  let s1 : State := { s with eng := { e with
    lp := some { lp1 with began := true }, passNo := n, runtimeRuns := bankRun } }
  let s2 := startHubs lp1 (startCores lp1 s1)
  let s3 := startDies lp1 (startBound s2)
  let next := (s3.eng.pass.bind fun p => p.todo.head?)
  let s4 := match (if lp.kind = .work then next else none) with | some e => wakeFor e s3 | none => s3
  settleDown (startMoves lp links (startFocus (startIngress s4)))

/-- The run of a bound layer pass whose start mark has failed twice: it has started nothing, and it is aborted like one that has, so that the
leader disposes of it for every member (R342, R478, R479). -/
def failBoundMark (lp : LayerPass) (code : BitVec 16) (s : State) : State :=
  let n := s.eng.passNo + 1
  let lp1 : LayerPass := { lp with number := n, started := true, markFails := 0 }
  let s1 := startBound (startHubs lp1 { s with eng := { s.eng with lp := some lp1, passNo := n } })
  match s1.eng.lp.bind (·.inst), s1.eng.lp with
  | some id, some lp2 => raiseInst id code 0 (openAbort code (s1.setLp (some (noteCause .hardware code lp2))))
  | _, _ => s1

/-- A start mark that failed twice at one boundary counts as a failed run of the layer pass that it would have started, with the site and the
code of its tatting error: that of the second failure (R202, R476, R478, R479; DESIGN CHOICE, log entry 84). The fourth such run of a
collective slice raises an ABORT of its instance. -/
def failMark (lp : LayerPass) (site : Site) (code : BitVec 16) (s : State) : State :=
  let lp1 : LayerPass := { lp with site := site }
  if lp.kind = .work ∧ !(entryBindings s lp.entry).isEmpty ∧ s.eng.pass.isSome then failBoundMark lp1 code s
  else
    let beyond := decide (4 ≤ lp.runs)
    let s1 := siteError site lp.prevSite lp.ident code beyond (s.setLp (some lp1))
    if !beyond then rerunLp s1
    else match lp.kind, lp.inst with
      | .coll, some id => raiseInst id code 0 (noteLimit (s1.setLp none))
      | _, _ => endWork code (noteLimit s1)

/-- START_MARK: a tatting error fails it, one that the command brings, with the link (named by its lower node) and the code, or one that came
since the last layer pass; else the layer pass starts once every segment is ON, every bank is loaded and no lock report is awaited. A
pass that an external cause has ended ends here (R414). -/
def execStartMark (m : StartMark) (s : State) : Res :=
  match s.eng.lp with
  | none => .next s
  | some lp =>
    let s1 : State := { s with tat := { s.tat with markErr := none } }
    if lp.started then .next s
    else if (s.eng.pass.bind (·.ended)).isSome then .next (endCaused s1)
    else match (m.tatError.map fun e => (Site.tatLink e.1, e.2)).or s.tat.markErr with
      | some (site, code) =>
        .next (if lp.markFails = 0 then s1.setLp (some { lp with markFails := 1 }) else failMark lp site code s1)
      | none =>
        if s.tat.relock || !segsReady s lp || !banksReady s lp then .next s
        else .next (startLp lp m.links s)

end Sys2Proof.Machine
end

