-- ==== Sys2Proof/Machine/Boundary.lean ====
section
/-! DEFINITION. The boundaries at which changes take effect (R29 to R31): layer, pass, step and drain, the install of an image (R88, R209,
R255), slices (R247, R248, R343), and drains (R466 to R468). -/

namespace Sys2Proof.Machine

open Sys2Proof

/-! ### Drains (R454, R467) -/

/-- A drain begins, by one of its causes. -/
def drainBegin (cause : Drains → Drains) (s : State) : State :=
  let e := s.eng
  let first := !drainOn s
  let s1 : State := { s with eng := { e with drains := cause (if first then { e.drains with reached := false } else e.drains) } }
  if first && (s.boot.eng == .reduced || s.boot.eng == .full) then
    setEngine .draining { s1 with boot := { s1.boot with leftState := s.boot.eng } }
  else s1

/-- Drains end, by what `clear` takes away; admission resumes when none is left. -/
def drainEnd (clear : Drains → Drains) (s : State) : State :=
  let was := drainOn s
  let e := s.eng
  let s1 : State := { s with eng := { e with drains := clear e.drains } }
  if was && !drainOn s1 then
    let s2 : State := { s1 with eng := { s1.eng with drains := { s1.eng.drains with reached := false } } }
    if s2.boot.eng = .draining then setEngine (if s2.boot.calibrated then (if anyUnserved s2 then .degraded else .full) else s2.boot.leftState) s2 else s2
  else s1

/-! ### The measurement set (R520, R521) -/

/-- The bytes of the eight operator key slots. -/
def keyBytes (s : State) : List Byte :=
  s.mgmt.keyIds.toList.flatMap fun k => if k.isEmpty then List.replicate 48 0 else k

/-- The measurement set of what is in force. -/
def measuresOf (s : State) : List Measure :=
  let b := s.boot
  let fw (ty : Nat) (f : Bundle → List Byte) : Measure :=
    match b.fwInForce with
    | some x => ⟨ty, x.secVersion, x.bundle.version.setWidth 64, sha384 (f x.bundle)⟩
    | none => ⟨ty, 0, 0, List.replicate 48 0⟩
  [fw 1 (·.loupe), fw 2 (·.shuttle), fw 3 (·.core), ⟨4, 0, b.bankSeq.setWidth 64, sha384 b.bankBytes⟩,
    (match s.eng.image with | some im => ⟨5, 0, im.buildId, im.tableDigest⟩ | none => ⟨5, 0, 0, List.replicate 48 0⟩),
    ⟨6, 0, 0, sha384 (keyBytes s)⟩]

/-- The measurement set replaced whole. -/
def measure (s : State) : State := { s with mgmt := { s.mgmt with measures := measuresOf s } }

/-! ### The layer boundary (R29, R31, R165, R283, R311, R426) -/

/-- The layer pass of the next layer entry of a pass. -/
def nextLp (s : State) (p : Pass) (entry : Nat) (e : LayerEntry) : LayerPass :=
  let mode := focusMode s p entry e
  let sampled := mode == .bounded && sampledPass s p e
  { kind := .work, entry := entry, number := s.eng.passNo, ident := s.eng.passNo + 1, fmode := mode, sampled := sampled,
    escalated := mode == .exact && s.eng.cfg.focusPolicy == 0 && p.esc.contains entry,
    masked := maskedEntry s p entry e }

/-- The next layer pass of the pass in flight is prepared: its duty cap is set, and the segments that it does not use go OFF. -/
def prepareLp (s : State) : State :=
  match s.eng.pass, s.eng.image with
  | some p, some im => match p.todo with
    | [] => s
    | entry :: rest => match im.layers[entry]? with
      | none => s
      | some e =>
        if lfSketch e && !intakeRoom s entry then s
        else
          let lp := nextLp s p entry e
          let g := s.eng
          let s1 : State := { s with eng := { g with
            pass := some { p with todo := rest }, lp := some lp, duty := dutyFor s e } }
          wakeFor entry (dropFor entry s1)
  | _, _ => s

/-- A slice as a layer pass. -/
def sliceLp (s : State) (kind : LpKind) : LayerPass :=
  { kind := kind, entry := 0, number := s.eng.passNo, ident := s.eng.passNo + 1 }

/-- A load slice of some chunks. -/
def loadLp (s : State) (l : (Bool × BitVec 16) × List (BitVec 32)) : LayerPass :=
  { sliceLp s .load with loadOf := some l.1, chunks := l.2 }

/-- A layer pass put aside goes on once the chunks that it waits for are loaded. Until then the load slices that write them run between its
runs. R248 lets slices run at pass boundaries only, but R223 has these chunks written before the re-run (DEDUCED, log entry 77). -/
def resumeParked (lp : LayerPass) (s : State) : State :=
  if s.wts.refetch.isEmpty then { s with eng := { s.eng with parked := none, lp := some lp } }
  else match refetchSlice s with
    | some l => s.setLp (some (loadLp s l))
    | none => s

/-- LAYER_BOUNDARY. A pass that an external cause has ended prepares no further layer pass (R414). -/
def execLayerBoundary (s : State) : Res :=
  if s.eng.lp.isSome then .next s
  else if (s.eng.pass.bind (·.ended)).isSome then .next (endCaused s)
  else match s.eng.parked with
    | some lp => .next (resumeParked lp s)
    | none => .next (prepareLp (if s.tat.relock then s else stepRate s))

/-- MESH_RELOCK: an island has not reported lock within 20 µs of a step. The pass ends, and a tile that holds the island is relocated; a
port die and the host die stand in no tile. -/
def execMeshRelock (island : Island) (s : State) : Res :=
  if !s.tat.relock then .next s
  else
    let s1 : State := { s with tat := { s.tat with relock := false } }
    let s2 := match s1.eng.lp with
      | some lp => if lp.started then s1 else s1.setLp none
      | none => s1
    let s3 := endPass 0x0305 s2
    let s4 : State := { s3 with eng := { s3.eng with nextRate := s3.eng.slotRate } }
    .next (match island with
      | .cluster ci => relocateTile (tileOfCi ci) (noteEngine s4 (unserveTile (tileOfCi ci) s4))
      | _ => s4)

/-! ### Slices (R247, R248, R343) -/

/-- Whether at least four fans run and the inlet is at most 45 °C; else the shuttles admit no pass and no slice (R439). -/
def cooled (s : State) : Bool :=
  decide (4 ≤ (s.pwr.fans.toList.filter fun f => f.st == .running).length) && decide (s.pwr.inlet ≤ 720)

/-- Whether a placement present would be usable but for tiles out of service that await their relocation (R484). -/
def awaitsTile (s : State) : Bool :=
  match s.eng.image with
  | none => false
  | some im =>
    let back (n : Nat) : Bool := inService s n || s.flt.repairs.any fun r => match r with
      | .relocate t _ _ => t.val == n
      | _ => false
    (usable s im).isEmpty && (placesOf im).any fun p =>
      (im.format != 2 || p == 0) && (footprint im p).all back && (!anyUnserved s || fits s im p)

/-- Whether a LOAD_PROGRAM has been fetched and has not completed (R88). -/
def imageFetched (s : State) : Bool :=
  s.eng.imgLoad.isSome || s.host.queues.toList.any fun x => x.waiting.any fun f => dType f.d == 1

/-- Whether an epoch waits for a weight slot, or has taken that of CURRENT and is not CURRENT yet (R41, R255). -/
def slotAwaited (s : State) : Bool := s.wts.held || s.wts.load.any fun l => l.st == .waiting

/-- What holds every pass, whatever requests it brings, with no error: a LOAD_PROGRAM that has been fetched (R88), an epoch that waits for a
slot (R41, R255), bytes of the CURRENT epoch that are fetched again (R249), repairs (R484, R485), and whatever keeps the shuttles from
admitting. -/
def passesHeld (s : State) : Bool :=
  !admits s || !cooled s || imageFetched s || slotAwaited s || !s.flt.rereads.isEmpty
    || (s.wts.refetch.any fun r => !r.adapter && s.wts.current.any fun c => c.number == r.number) || awaitsTile s

/-- Whether a pass is ready to admit: a RUN_PASS is at the head of a queue, nothing holds every pass, and the shuttles have not found that
it reads adapter bytes which are still to be fetched again (R249). -/
def passReady (s : State) : Bool :=
  let again := s.wts.refetch.any (·.adapter)
  !passesHeld s && (List.finRange 64).any fun q => match headOf s q 2 with
    | some f => !(again && s.eng.bytesHeld.contains (q, f.ticket))
    | none => false

/-- A load slice, or a collective slice, starts if one may. The share of LOAD_SHARE that slices have used, which counts only while a pass is
ready to admit and is never above 100 % (R248), and which kind goes first when both are ready, are free. -/
def startSlice (s : State) : State :=
  if !admits s || !cooled s || s.eng.lp.isSome || s.eng.pass.isSome then s
  else
    let w := Config.freeWord s.free
    if passReady s && decide (s.eng.cfg.loadShare < 100) && w.getLsbD 0 then s.took
    else match nextSlice s, nextCollSlice s with
      | none, none => s
      | some l, none => (s.setLp (some (loadLp s l))).took
      | none, some i => (s.setLp (some { sliceLp s .coll with inst := some i })).took
      | some l, some i =>
        (s.setLp (some (if w.getLsbD 1 then loadLp s l else { sliceLp s .coll with inst := some i }))).took

/-! ### Pass and step boundaries (R30, R31, R255, R339, R442, R457) -/

/-- The changes of a pass boundary, from the epoch switch on. R31 does not place the changes of bindings (R339) and the entry of a tile that
has passed its wave (R457) among its steps: the model applies them after the epoch switch and before the choice of placement
(DESIGN CHOICE, log entry 77). -/
def passChanges (s : State) : State :=
  let s1 := takePlacement (enterTiles (applyBinds (epochBoundary (checkComplete s))))
  if s1.tat.relock then s1 else stepRate s1

/-- The changes of a step boundary: repairs first. -/
def stepChanges (s : State) : State := passChanges (applyRepairs s)

/-- The pass boundary is a step boundary too where no training step is open (R30); within a step, a tile that is out of service is relocated
there (R484). -/
def boundaryChanges (s : State) : State := if s.eng.training then passChanges (applyOut s) else stepChanges s

/-- PASS_BOUNDARY. Port dies whose fetch buffers the end of a pass has freed go on fetching (R244). -/
def execPassBoundary (s : State) : Res :=
  if atBoundary s then .next (startSlice (fetchAll (boundaryChanges s))) else .next s

/-- STEP_BOUNDARY. -/
def execStepBoundary (s : State) : Res :=
  if atBoundary s && !s.eng.training then .next (stepChanges s) else .next s

/-! ### The install of an image (R88, R124, R209, R255, R442) -/

/-- Region 4 of every cluster set to zero. -/
def zeroResiduals (s : State) : State :=
  (List.finRange 768).foldl (fun (s : State) ci =>
    let k := s.cluster ci
    let n := regionMib s.eng.cfg (layoutOf s ci.val) ci.val 4 * mib
    let a := regionBase s ci 4
    if n = 0 then s else s.setCluster ci { k with mem := k.mem.zero a (a + n) }) s

/-- Region 7 of every cluster replaced. -/
def takeConsts (im : Image) (s : State) : State :=
  (List.finRange 768).foldl (fun (s : State) ci =>
    let c := tabGet [] im.consts ci.val
    let k := s.cluster ci
    if k.consts.isEmpty && c.isEmpty then s else writeConsts ci c s) s

/-- Every live epoch is released, and the load under way ends with MANIFEST_BUILD. -/
def dropEpochs (s : State) : State :=
  let s1 := endLoad 0x0506 s
  let s2 := match s1.wts.draining with | some e => releaseEpoch e s1 | none => s1
  let s3 := match s2.wts.current with | some e => releaseEpoch e s2 | none => s2
  { s3 with wts := { s3.wts with held := false } }

/-- An image is installed. -/
def installImage (l : ImgLoad) (im : Image) (s : State) : State :=
  let s1 := relayout s.eng.cfg im.layouts (fun r => r == 0 || r == 1 || r == 2) (fun _ => none) (dropEpochs s)
  let cores (e : Nat × Core) : Nat × Core := (e.1, dropSegs 0 e.2)
  let e := s1.eng
  let s2 : State := { s1 with
    cores := s1.cores.map cores,
    coll := { s1.coll with bindings := [], spanGone := false },
    flt := { s1.flt with rereads := [] },
    eng := { e with
      image := some im, imageAddr := l.addr, installs := e.installs + 1, imageLost := false, imgLoad := none, carry := false,
      weights := startWeights, energy := [], focusEsc := [], focusCnt := [] } }
  completeAt l.q l.ticket 0 (noteEngine s (takeConsts im (zeroResiduals s2)))

/-- The image that waits for a drain boundary, if there is one. -/
def installWaiting (s : State) : State :=
  match s.eng.imgLoad with
  | none => s
  | some l => match l.image with
    | none => s
    | some im => installImage l im s

/-! ### The drain boundary (R466, R468, R470) -/

/-- Whether a queue collective is undecided. -/
def collUndecided (s : State) : Bool :=
  s.coll.insts.any fun k => k.undecided && match k.id with
    | .queue _ => true
    | .bound _ _ _ => false

/-- Whether the engine stands at a drain boundary. -/
def drainReached (s : State) : Bool := atBoundary s && s.eng.copies.isEmpty && !collUndecided s

/-- Live fields, if a bank waits for them in mode WAIT or DRAIN. -/
def takeLive (s : State) : State := if s.boot.pendMode = .stage then s else applyLive s

/-- The activation of a staged bundle begins (R470). -/
def beginActivation (s : State) : State :=
  let b := s.boot
  match b.fwOther with
  | none => s
  | some x => if !b.fwPending ∨ b.fwMode = .stage ∨ x.failed ∨ b.act.step ≠ 0 then s else { s with boot := { b with act := { step := 1 } } }

/-- The drain boundary is reported: to the DRAIN command that waits, and by every shuttle (R413, R467). -/
def reportDrained (s : State) : State :=
  let d := s.eng.drains
  let s1 := match d.cmdMbx with
    | some m => takeWord m 0 { s with
        eng := { s.eng with drains := { d with cmdMbx := none } }, host := { s.host with shuttleCmd := none } }
    | none => s
  if !drainOn s || d.reached then s1
  else
    (List.finRange 4).foldl (fun s (k : Fin 4) => mbxSend ⟨44 + k.val, by omega⟩ 0x02000000 s)
      { s1 with eng := { s1.eng with drains := { s1.eng.drains with reached := true } } }

/-- A drain begun by an activation ends once its changes have been applied. -/
def endActivationDrain (s : State) : State :=
  if s.boot.act.step = 0 then drainEnd (fun d => { d with activation := false }) s else s

/-- Whether an image, a configuration or a repair's change calls for a new measurement set. -/
def measured (s t : State) : Bool := s.eng.installs != t.eng.installs || s.boot.bankBytes != t.boot.bankBytes

/-- DRAIN_BOUNDARY: the changes in the order of R31. The image that waits is installed before the live fields are checked against it. The
measurement set is replaced once: with an activation, when that ends (R521). -/
def execDrainBoundary (s : State) : Res :=
  if !drainReached s then .next s
  else
    let s1 := beginActivation (takeLive (installWaiting (applyRepairs s)))
    let s2 := passChanges s1
    .next (endActivationDrain (reportDrained (if measured s s2 && s2.boot.act.step == 0 then measure s2 else s2)))

end Sys2Proof.Machine
end

