-- ==== Sys2Proof/Machine/Admission.lean ====
section
/-! DEFINITION. LOAD_PROGRAM with the validation of its image (R87, R88, R459, R490), and the choice and admission of passes (R42, R256,
R262, R311, R402 to R404, R443, R444). -/

namespace Sys2Proof.Machine

open Sys2Proof

/-! ### LOAD_PROGRAM (R88) -/

/-- A LOAD_PROGRAM that passes the checks of R403 is fetched, and waits for its validation. -/
def startImage (q : QueueId) (f : Fetched) (s : State) : State :=
  { s with eng := { s.eng with
    imgLoad := some ⟨q, f.ticket, BitVec.ofNat 64 (dField f.d 0x20 8), dField f.d 0x28 8, none⟩ } }

/-- LOAD_PROGRAM: one at a time. -/
def execLoadProgram (q : QueueId) (s : State) : Res :=
  if s.eng.imgLoad.isSome && (headOf s q 1).isSome then .next s
  else .next (dispatch q 1 (fun _ => true) (startImage q) s)

/-- NOT_READY is sent on vector 5, to Redfish and to EVENT, like every code of its class (R474). -/
def notReady (code : BitVec 16) (s : State) : State := if code = 0x0B03 then bootCode 0x0B03 s else s

/-- The LOAD_PROGRAM under way completes with a code, and the image in force stays. -/
def refuseImage (l : ImgLoad) (code : BitVec 16) (s : State) : State :=
  let s1 := completeAt l.q l.ticket code { s with eng := { s.eng with imgLoad := none } }
  if code.toNat / 256 = 0x0C then secCode code s1 else notReady code s1

/-- IMAGE_VALIDATION_DONE: the bytes read from IMAGE_ADDR have been checked. An image that passes waits for a drain boundary. -/
def execImageValidationDone (bytes : List Byte) (s : State) : Res :=
  match s.eng.imgLoad with
  | none => .next s
  | some l =>
    if l.image.isSome || bytes.length != l.size then .next s
    else match imageCheck s l.size bytes with
      | some code => .next (refuseImage l code s)
      | none =>
        let im := parseImage bytes
        if (usable s im).isEmpty then .next (refuseImage l (noPlaceCode s im (placesOf im)) s)
        else .next { s with eng := { s.eng with imgLoad := some { l with image := some im } } }

/-! ### The choice of a pass (R404, R443, R444) -/

/-- A RUN_PASS at the head of a queue: the queue, its ticket, PRIO, the turn in which it was rung, and its P_pass as energy and
cycles. -/
structure Cand where
  q : QueueId
  ticket : Nat
  prio : Nat
  rung : Nat
  power : Nat × Nat

/-- The ready RUN_PASS descriptors at the heads of their queues. -/
def candidates (s : State) : List Cand :=
  (List.finRange 64).filterMap fun q =>
    match headOf s q 2 with
    | none => none
    | some f =>
      let x := s.host.queues[q.val]
      let p := match s.eng.image with | some im => passPower im f.d | none => (0, 0)
      some ⟨q, f.ticket, x.prio.toNat, x.rung, if p.2 = 0 then (0, 1) else p⟩

/-- The candidate rung earliest. -/
def earliest : List Cand → Option Cand
  | [] => none
  | c :: t => match earliest t with
    | some d => if c.rung ≤ d.rung then some c else some d
    | none => some c

/-- The deferrals of a candidate so far and when it first became the candidate. -/
def deferralOf (s : State) (c : Cand) : Option (Nat × Nat) :=
  (s.eng.deferred.find? fun x => x.1 == c.q && x.2.1 == c.ticket).map fun x => x.2.2

/-- Whether a bound on a candidate's deferral has been reached. -/
def overdue (s : State) (c : Cand) : Bool :=
  match deferralOf s c with
  | some (n, t) => decide (s.eng.cfg.deferMax ≤ n) || decide (s.eng.cfg.deferMs ≤ nowMs s - t)
  | none => s.eng.cfg.deferMax == 0

/-- The candidate that R404 selects; one whose deferral has reached a bound goes first in its PRIO. -/
def topCand (s : State) : Option Cand :=
  let cs := candidates s
  let top := cs.filter fun c => cs.all fun d => decide (d.prio ≤ c.prio)
  match earliest (top.filter fun c => (deferralOf s c).isSome && overdue s c) with
  | some c => some c
  | none => earliest top

/-- Whether the shuttles are under pressure for a candidate (R443). -/
def underPressure (s : State) (c : Cand) : Bool :=
  (s.clusters.any fun e => decide (1 ≤ e.2.rung))
    || ((List.finRange 768).any fun ci => decide (-80 ≤ clusterStress s ci))
    || decide (s.pwr.ceilMw * c.power.2 < s.pwr.rest * 1000 * c.power.2 + c.power.1)

/-- Whether P_pass of one candidate is at most nine tenths of another's. -/
def lighter (y x : Cand) : Bool := decide (10 * y.power.1 * x.power.2 ≤ 9 * x.power.1 * y.power.2)

/-- The candidate of the lowest P_pass, then the one rung earliest. -/
def lightest : List Cand → Option Cand
  | [] => none
  | c :: t => match lightest t with
    | some d =>
      let a := c.power.1 * d.power.2
      let b := d.power.1 * c.power.2
      if a < b ∨ (a = b ∧ c.rung ≤ d.rung) then some c else some d
    | none => some c

/-- The candidate in favour of which another is deferred, if any. -/
def favoured (s : State) (x : Cand) : Option Cand :=
  if overdue s x || !underPressure s x then none
  else lightest ((candidates s).filter fun y => y.q != x.q && y.prio == x.prio && lighter y x)

/-- The pass to admit, with the candidate that is deferred for it. -/
def chosenPass (s : State) : Option (QueueId × Option Cand) :=
  match topCand s with
  | none => none
  | some x => match favoured s x with
    | some y => some (y.q, some x)
    | none => some (x.q, none)

/-- A deferral counted. -/
def noteDeferral (x : Cand) (s : State) : State :=
  let e := s.eng
  let old := (deferralOf s x).getD (0, nowMs s)
  let rest := e.deferred.filter fun y => !(y.1 == x.q && y.2.1 == x.ticket)
  { s with
    eng := { e with deferred := (x.q, x.ticket, old.1 + 1, old.2) :: rest },
    pwr := { s.pwr with deferrals := incW s.pwr.deferrals } }

/-- The time at which the candidate of a boundary first became one. -/
def noteCandidate (s : State) : State :=
  match topCand s with
  | none => s
  | some x => if (deferralOf s x).isSome then s
    else { s with eng := { s.eng with deferred := (x.q, x.ticket, 0, nowMs s) :: s.eng.deferred } }

/-! ### Requests (R262, R402) -/

/-- The entries of a request table. -/
def tableEntries (table : List Byte) : List (List Byte) := entriesAt table 0 16 (table.length / 16)

/-- The code of R262 for an adapter slot under the epoch pinned. -/
def slotCode (s : State) (epoch : BitVec 16) (slot : Nat) : BitVec 16 :=
  let a := tabGet {} s.wts.adapters slot
  if slot = 0xFFFF then 0
  else if 4096 ≤ slot then 0x0509
  else if a.st ≠ .ready then 0x050A
  else if a.baseEpoch ≠ 0xFFFF ∧ a.baseEpoch ≠ epoch then 0x050B
  else 0

/-- A request with its status. -/
def requestOf (s : State) (epoch : BitVec 16) (e : List Byte) : Request where
  id := BitVec.ofNat 32 (fieldAt e 0 4)
  slot := BitVec.ofNat 16 (fieldAt e 4 2)
  status := slotCode s epoch (fieldAt e 4 2)
  tokFirst := BitVec.ofNat 32 (fieldAt e 8 4)
  tokCount := BitVec.ofNat 32 (fieldAt e 12 4)

/-- A request as the checked table holds it. -/
def requestBytes (r : Request) : List Byte :=
  leBytes 4 r.id.toNat ++ leBytes 2 (if r.status = 0 then r.slot.toNat else 0xFFFF) ++ leBytes 2 0
    ++ leBytes 4 r.tokFirst.toNat ++ leBytes 4 r.tokCount.toNat

/-- The checked table written at offset 0 of region 3 in every cluster that serves. -/
def writeTable (rs : List Request) (s : State) : State :=
  if rs.isEmpty then s
  else
    let bs := rs.flatMap requestBytes
    (List.finRange 768).foldl (fun (s : State) ci =>
      if s.boot.inService.getLsbD (ci.val / 16) then regionWrite ci 3 0 bs s else s) s

/-! ### Admission (R42, R256, R403) -/

/-- Whether bytes of an adapter slot that a pass names are still to be fetched again (R249). -/
def awaitsBytes (s : State) (table : List Byte) : Bool :=
  let slots := (tableEntries table).map fun e => fieldAt e 4 2
  s.wts.refetch.any fun r => r.adapter && (manOf s true r.number).any fun m =>
    (chunkSlots m r.index.toNat).any fun k => slots.contains k && ownsSlot s m k && (tabGet {} s.wts.adapters k).st == .ready

/-- What the shuttles find of a pass that is held: whether it waits for adapter bytes that it reads. -/
def noteBytes (q : QueueId) (ticket : Nat) (awaits : Bool) (s : State) : State :=
  let rest := s.eng.bytesHeld.filter (· != (q, ticket))
  { s with eng := { s.eng with bytesHeld := if awaits then rest ++ [(q, ticket)] else rest } }

/-- What holds a pass with no error: what holds every pass, and adapter bytes that it reads. -/
def passHeld (s : State) (table : List Byte) : Bool := passesHeld s || awaitsBytes s table

/-- The checks of step 5 for a RUN_PASS, and those of R223, R459 and R490. -/
def passCode (s : State) (d : BitVec 1024) (table : List Byte) : Option (BitVec 16) :=
  match s.eng.image with
  | none => some 0x0209
  | some im =>
    if s.eng.imageLost then some 0x0406
    else if s.wts.current.isNone then some 0x0504
    else if (tableEntries table).any fun e => fieldAt e 6 2 != 0 then some 0x0202
    else if !((List.finRange 768).all fun ci => decide (16 * dField d 0x2C 4 ≤ regionBytes s ci 3)) then some 0x0202
    else if (choosePlace s im).isNone then some (noPlaceCode s im (mayPlace s im))
    else none

/-- The pass admitted. -/
def admitPass (q : QueueId) (f : Fetched) (table : List Byte) (s : State) : State :=
  match passCode s f.d table, s.eng.image, s.wts.current with
  | some code, _, _ => notReady code (completeWith table q f code s)
  | none, some im, some c =>
    let rs := (tableEntries table).map (requestOf s c.number)
    let e := s.eng
    let back := bitOf (dField f.d 0x28 4) 1
    let train := bitOf (dField f.d 0x28 4) 0
    let p : Pass := {
      q := q, ticket := f.ticket, desc := f.d, epoch := c.number, placement := e.placement, todo := passEntries im f.d,
      reqs := rs, resets := min 65535 (if back then e.stepResets + s.flt.resets else if train then s.flt.resets else 0), esc := e.focusEsc }
    let s1 : State := { s with
      eng := { e with
        pass := some p, energy := [], training := e.training || passTraining p, deferred := (forget q f.ticket e).deferred },
      flt := { s.flt with resets := if back || train then 0 else s.flt.resets } }
    let s2 := writeTable rs (if back then admitStep p s1 else s1)
    if p.todo.isEmpty then endPass 0 s2 else s2
  | none, _, _ => s

/-- RUN_PASS: the pass is admitted at a pass boundary, whose changes come first, if the shuttles choose its queue and nothing holds
it. The request table is the bytes read from REQ_ADDR. -/
def execRunPass (q : QueueId) (table : List Byte) (s : State) : Res :=
  match headReady s q with
  | none => .next s
  | some f =>
    if dType f.d = 0 ∨ 8 < dType f.d then .next (dispatchWith table q 2 (fun _ => true) (fun _ s => s) s)
    else if dType f.d ≠ 2 || !atBoundary s || ((descCheck s f.d).isNone && table.length != 16 * dField f.d 0x2C 4) then .next s
    else
      let s1 := boundaryChanges s
      if passHeld s1 table then .next (noteBytes q f.ticket (awaitsBytes s1 table) s1)
      else match chosenPass s1 with
        | none => .next s1
        | some (y, x) =>
          if y ≠ q then .next (noteCandidate s1)
          else
            let s2 := match x with | some c => noteDeferral c s1 | none => s1
            .next (dispatchWith table q 2 (fun _ => true) (fun f s => admitPass q f table s) (noteBytes q f.ticket false s2))

end Sys2Proof.Machine
end

