-- ==== Sys2Proof/Machine/CoreDma.lean ====
section
/-! DEFINITION. Stacked-memory DMA of a core (R214 to R216, R221, R222). -/

namespace Sys2Proof.Machine

open Sys2Proof

/-- The stacked end of an operation: one past its last byte, as an offset in the region. -/
def dmaEnd (off len rows stride : Nat) : Nat := off + (rows - 1) * stride + len

/-- The checks of R215, in the order of its table. -/
def dmaFault (s : State) (c : CoreId) (k : Core) (write two : Bool) (sp sm len sr : Nat) : Option (BitVec 16 × Nat) :=
  let region := bits sm 35 32
  let off := bits sm 31 0
  let rows := if two then bits sr 15 0 else 1
  let stride := if two then bits sr 47 16 else 0
  if sp % 64 ≠ 0 then some (0x0232, sp)
  else if off % 64 ≠ 0 then some (0x0232, off)
  else if len % 64 ≠ 0 then some (0x0232, len)
  else if stride % 64 ≠ 0 then some (0x0232, stride)
  else if len = 0 ∨ 0x100000 < len ∨ rows = 0 ∨ 0x100000 < rows * len ∨ bits sm 63 36 ≠ 0
      ∨ (two ∧ bits sr 63 48 ≠ 0) then some (0x0233, 0)
  else if !spadIn k.task.seg sp (rows * len) then some (0x0231, sp)
  else if region = 0 ∨ 8 ≤ region ∨ (write ∧ (region = 2 ∨ region = 6 ∨ region = 7)) then some (0x0405, off)
  else if regionBytes s (ciOf c) region < dmaEnd off len rows stride then some (0x0404, off)
  else none

/-- A DMA instruction: checks, then the DMA queue of eight; SR must be 0 in DMARD and DMAWR (R214). -/
def dmaIssue (c : CoreId) (f : DmaF) (write two : Bool) (s : State) : Res :=
  issue c [f.sp, f.sm, f.sl, f.sr] [] (fun s k =>
    let sp := (k.sreg f.sp).toNat
    let sm := (k.sreg f.sm).toNat
    let len := (k.sreg f.sl).toNat
    let sr := (k.sreg f.sr).toNat
    if 8 ≤ k.units.dmaQ.length then .stall
    else if !two && f.sr != 0 then .fault 5 0x0230 0
    else match dmaFault s c k write two sp sm len sr with
      | some (code, addr) => .fault 5 code addr
      | none =>
        let op : DmaOp := ⟨write, sp, bits sm 35 32, bits sm 31 0, len, if two then bits sr 15 0 else 1,
          if two then bits sr 47 16 else 0, 0⟩
        .one { k with units := { k.units with dmaQ := k.units.dmaQ ++ [op] } }) s

def execDmard (c : CoreId) (f : DmaF) (s : State) : Res := dmaIssue c f false false s
def execDmawr (c : CoreId) (f : DmaF) (s : State) : Res := dmaIssue c f true false s
def execDmard2 (c : CoreId) (f : DmaF) (s : State) : Res := dmaIssue c f false true s
def execDmawr2 (c : CoreId) (f : DmaF) (s : State) : Res := dmaIssue c f true true s

/-- The units of an operation. -/
def dmaUnits (o : DmaOp) : Nat := o.rows * o.len / 64

/-- The offset in the region of unit `u`. -/
def unitOff (o : DmaOp) (u : Nat) : Nat := o.off + u / (o.len / 64) * o.stride + u % (o.len / 64) * 64

/-- Whether two operations have a stacked byte in common. -/
def dmaOverlap (a b : DmaOp) : Bool :=
  a.region == b.region &&
  (List.range a.rows).any fun i => (List.range b.rows).any fun j =>
    decide (a.off + i * a.stride < b.off + j * b.stride + b.len)
      && decide (b.off + j * b.stride < a.off + i * a.stride + a.len)

/-- Operation `n` in flight; number n = the operations in flight names the head of the queue, which may start while
fewer than four are in flight and none overlaps it (R216). -/
def dmaPick (u : CoreUnits) (n : Nat) : Option CoreUnits :=
  if n < u.dmaRun.length then some u
  else if n = u.dmaRun.length ∧ n < 4 then
    match u.dmaQ with
    | [] => none
    | o :: t => if u.dmaRun.any (dmaOverlap o) then none else some { u with dmaQ := t, dmaRun := u.dmaRun ++ [o] }
  else none

/-- One unit of an operation moved. -/
def moveUnit (c : CoreId) (o : DmaOp) (linkOk : Bool) (s : State) : State :=
  let ci := ciOf c
  let off := unitOff o o.next
  let sp := o.sp + 64 * o.next
  let k := s.core c
  if o.write then
    let r := k.spadGet 5 sp 64 s.free
    let s1 := (s.setCore c r.core).took (r.free - s.free)
    let s2 := if r.bad then coreHwAbort c 0x0401 (.core c) s1 else s1
    writeUnit c o.region off r.bytes linkOk s2
  else
    let r := regionRead s ci o.region off 64 s.free
    let data := if linkOk then r.1 else freeBytes r.2 64
    readUnit c o.region off linkOk
      ((s.setCore c (k.spadPut sp data)).took (r.2 - s.free + if linkOk then 0 else 64))

/-- DMA_UNIT_TRANSFER: the next unit of operation n crosses the bond interface. The scratchpad side runs in issue order, so
every earlier operation must have moved all its units (R50, R216). -/
def execDmaUnitTransfer (c : CoreId) (n : Nat) (linkOk : Bool) (s : State) : Res :=
  let k := s.core c
  match dmaPick k.units n with
  | none => .next s
  | some u =>
    match u.dmaRun[n]? with
    | none => .next s
    | some o =>
      if dmaUnits o ≤ o.next ∨ !((u.dmaRun.take n).all fun x => decide (dmaUnits x ≤ x.next)) then .next s
      else
        let u1 := { u with dmaRun := u.dmaRun.set n { o with next := o.next + 1 } }
        let k1 : Core := { k with
          units := u1, cnt := { k.cnt with memBytes := k.cnt.memBytes + 64 } }
        .next (moveUnit c o linkOk (s.setCore c k1))

/-- DMA_COMPLETE: operation n, all of whose units have moved, is complete. -/
def execDmaComplete (c : CoreId) (n : Nat) (s : State) : Res :=
  let k := s.core c
  match k.units.dmaRun[n]? with
  | none => .next s
  | some o =>
    if dmaUnits o ≤ o.next then
      .next (s.setCore c { k with units := { k.units with dmaRun := k.units.dmaRun.eraseIdx n } })
    else .next s

end Sys2Proof.Machine
end

