-- ==== Sys2Proof/Machine/CoreScalar.lean ====
section
/-! DEFINITION. The scalar control unit (R54): arithmetic, loads and stores, branches, core-local registers, FENCE,
HALT, and the faults that are events of a core. -/

namespace Sys2Proof.Machine

open Sys2Proof

/-! ### Scalar arithmetic -/

/-- SD := SA op SB, in one cycle. -/
def scalarRR (c : CoreId) (f : ScalarF) (op : BitVec 64 → BitVec 64 → BitVec 64) (s : State) : Res :=
  issue c [f.sa, f.sb, f.sd] [] (fun _ k => .one (k.setS f.sd (op (k.sreg f.sa) (k.sreg f.sb)))) s

/-- SD := SA op IMM sign-extended, in one cycle. -/
def scalarRI (c : CoreId) (f : ScalarF) (op : BitVec 64 → BitVec 64 → BitVec 64) (s : State) : Res :=
  issue c [f.sa, f.sd] [] (fun _ k => .one (k.setS f.sd (op (k.sreg f.sa) (immS f.imm)))) s

def opShl (a b : BitVec 64) : BitVec 64 := a <<< (bits b.toNat 5 0)
def opShr (a b : BitVec 64) : BitVec 64 := a >>> (bits b.toNat 5 0)
def opSar (a b : BitVec 64) : BitVec 64 := a.sshiftRight (bits b.toNat 5 0)
def opMin (a b : BitVec 64) : BitVec 64 := if a.slt b then a else b
def opMax (a b : BitVec 64) : BitVec 64 := if a.slt b then b else a
def opSlt (a b : BitVec 64) : BitVec 64 := if a.slt b then 1 else 0
def opSltu (a b : BitVec 64) : BitVec 64 := if a.ult b then 1 else 0

def execNop (c : CoreId) (s : State) : Res := issue c [] [] (fun _ k => .one k) s
def execAdd (c : CoreId) (f : ScalarF) (s : State) : Res := scalarRR c f (· + ·) s
def execAddi (c : CoreId) (f : ScalarF) (s : State) : Res := scalarRI c f (· + ·) s
def execSub (c : CoreId) (f : ScalarF) (s : State) : Res := scalarRR c f (· - ·) s
def execSubi (c : CoreId) (f : ScalarF) (s : State) : Res := scalarRI c f (· - ·) s
def execAnd (c : CoreId) (f : ScalarF) (s : State) : Res := scalarRR c f (· &&& ·) s
def execAndi (c : CoreId) (f : ScalarF) (s : State) : Res := scalarRI c f (· &&& ·) s
def execOr (c : CoreId) (f : ScalarF) (s : State) : Res := scalarRR c f (· ||| ·) s
def execOri (c : CoreId) (f : ScalarF) (s : State) : Res := scalarRI c f (· ||| ·) s
def execXor (c : CoreId) (f : ScalarF) (s : State) : Res := scalarRR c f (· ^^^ ·) s
def execXori (c : CoreId) (f : ScalarF) (s : State) : Res := scalarRI c f (· ^^^ ·) s
def execShl (c : CoreId) (f : ScalarF) (s : State) : Res := scalarRR c f opShl s
def execShli (c : CoreId) (f : ScalarF) (s : State) : Res := scalarRI c f opShl s
def execShr (c : CoreId) (f : ScalarF) (s : State) : Res := scalarRR c f opShr s
def execShri (c : CoreId) (f : ScalarF) (s : State) : Res := scalarRI c f opShr s
def execSar (c : CoreId) (f : ScalarF) (s : State) : Res := scalarRR c f opSar s
def execSari (c : CoreId) (f : ScalarF) (s : State) : Res := scalarRI c f opSar s
def execMul (c : CoreId) (f : ScalarF) (s : State) : Res := scalarRR c f (· * ·) s
def execMuli (c : CoreId) (f : ScalarF) (s : State) : Res := scalarRI c f (· * ·) s
def execMin (c : CoreId) (f : ScalarF) (s : State) : Res := scalarRR c f opMin s
def execMini (c : CoreId) (f : ScalarF) (s : State) : Res := scalarRI c f opMin s
def execMax (c : CoreId) (f : ScalarF) (s : State) : Res := scalarRR c f opMax s
def execMaxi (c : CoreId) (f : ScalarF) (s : State) : Res := scalarRI c f opMax s
def execSlt (c : CoreId) (f : ScalarF) (s : State) : Res := scalarRR c f opSlt s
def execSlti (c : CoreId) (f : ScalarF) (s : State) : Res := scalarRI c f opSlt s
def execSltu (c : CoreId) (f : ScalarF) (s : State) : Res := scalarRR c f opSltu s
def execSltui (c : CoreId) (f : ScalarF) (s : State) : Res := scalarRI c f opSltu s

/-- LIH: the low word of SA under IMM. -/
def execLih (c : CoreId) (f : ScalarF) (s : State) : Res :=
  issue c [f.sa, f.sd] [] (fun _ k =>
    .one (k.setS f.sd ((k.sreg f.sa &&& 0xFFFFFFFF) ||| (f.imm.setWidth 64 <<< 32)))) s

/-! ### Loads and stores -/

/-- A load of `n` bytes, aligned to its size and zero-extended. -/
def scalarLoad (c : CoreId) (f : LoadF) (n : Nat) (s : State) : Res :=
  issue c [f.sa, f.d] [] (fun s k =>
    let a := effAddr k f
    match spadFault k.task.seg a n n with
    | some code => .fault 0 code a
    | none =>
      let r := k.spadGet 0 a n s.free
      .go (r.core.setS f.d (BitVec.ofNat 64 (leNat r.bytes))) (k.regs.pc.toNat + 1) 1 (r.free - s.free) r.bad) s

/-- A store of the low `n` bytes of a register, aligned to its size. -/
def scalarStore (c : CoreId) (f : LoadF) (n : Nat) (s : State) : Res :=
  issue c [f.sa, f.d] [] (fun _ k =>
    let a := effAddr k f
    match spadFault k.task.seg a n n with
    | some code => .fault 0 code a
    | none => .one (k.spadPut a (leBytes n (k.sreg f.d).toNat))) s

def execLd (c : CoreId) (f : LoadF) (s : State) : Res := scalarLoad c f 8 s
def execLdw (c : CoreId) (f : LoadF) (s : State) : Res := scalarLoad c f 4 s
def execSt (c : CoreId) (f : LoadF) (s : State) : Res := scalarStore c f 8 s
def execStw (c : CoreId) (f : LoadF) (s : State) : Res := scalarStore c f 4 s

/-! ### Branches -/

/-- PC + IMM; a target below 0 is a PC outside every program. -/
def branchTo (k : Core) (imm : BitVec 32) : Nat :=
  let t := (k.regs.pc.toNat : Int) + imm.toInt
  if t < 0 then 0x100000 else t.toNat

/-- A branch: two cycles when taken, one when not (R49). -/
def branch (c : CoreId) (f : BranchF) (cond : BitVec 64 → BitVec 64 → Bool) (s : State) : Res :=
  issue c [f.sa, f.sb] [] (fun _ k =>
    if cond (k.sreg f.sa) (k.sreg f.sb) then .go k (branchTo k f.imm) 2 0 false else .one k) s

def execBeq (c : CoreId) (f : BranchF) (s : State) : Res := branch c f (fun a b => a == b) s
def execBne (c : CoreId) (f : BranchF) (s : State) : Res := branch c f (fun a b => a != b) s
def execBlt (c : CoreId) (f : BranchF) (s : State) : Res := branch c f (fun a b => a.slt b) s
def execBge (c : CoreId) (f : BranchF) (s : State) : Res := branch c f (fun a b => !a.slt b) s
def execBltu (c : CoreId) (f : BranchF) (s : State) : Res := branch c f (fun a b => a.ult b) s
def execBgeu (c : CoreId) (f : BranchF) (s : State) : Res := branch c f (fun a b => !a.ult b) s

/-- JAL: S[SA] := PC + 1; PC := PC + IMM. -/
def execJal (c : CoreId) (f : BranchF) (s : State) : Res :=
  issue c [f.sa] [] (fun _ k =>
    .go (k.setS f.sa (BitVec.ofNat 64 (k.regs.pc.toNat + 1))) (branchTo k f.imm) 2 0 false) s

/-- JR: PC := S[SA][10:0]. -/
def execJr (c : CoreId) (f : BranchF) (s : State) : Res :=
  issue c [f.sa] [] (fun _ k => .go k (bits (k.sreg f.sa).toNat 10 0) 2 0 false) s

/-! ### Core-local registers -/

/-- The physical column of a core (R25): CLUSTER_ROWS holds the failed column of each row, 15 for none. -/
def pcolOf (s : State) (c : CoreId) : Nat :=
  let rows := s.tiles[(physOf s (ptOf c)).val].rows
  let w := rows[(ciOf c).val % 16]'(by omega)
  let row := gyOf c % 8
  let f := bits w.toNat (4 * row + 3) (4 * row)
  let col := gxOf c % 8
  if f ≤ col then col + 1 else col

/-- Whether the running layer's weights arrive by ingress under the memory mode in force (R226). -/
def streamedNow (s : State) : Bool :=
  match runningEntry s with
  | none => false
  | some e => s.eng.cfg.memMode == 1 || (s.eng.cfg.memMode == 2 && e.flags.getLsbD 0)

/-- SP_FOCUS.MODE of a focus mode. -/
def focusCode : FocusMode → Nat
  | .exact => 0
  | .bounded => 1
  | .full => 2

/-- The low words whose reading latches the high word (R71, R10). -/
def csrPair (k : Core) (i : Nat) : Option Nat :=
  match i with
  | 0x10 => some (k.cnt.cycle.toNat >>> 32)
  | 0x12 => some (k.cnt.instret.toNat >>> 32)
  | 0x14 => some (k.cnt.mxBusy.toNat >>> 32)
  | 0x16 => some (k.cnt.vxBusy.toNat >>> 32)
  | 0x18 => some (k.cnt.txBytes.toNat >>> 32)
  | 0x304 => some (k.cnt.memBytes.toNat >>> 32)
  | _ => none

/-- SYNC_STATE (R200). -/
def syncState (k : Core) : Nat :=
  let w := match k.units.wait with
    | none => 0
    | some (.swait id) => put 1 31 + id.toNat
    | some (.swaitv id _) => put 1 31 + put 1 28 + id.toNat
    | some (.sread id _) => put 1 31 + put 2 28 + id.toNat
    | some (.bar _ n) => put 1 31 + put 3 28 + n.toNat
  w + put k.units.syncQ.length 16

/-- The value of a core-local register (R71 to R77, R107, R142, R171, R200, R226, R298, R302). -/
def csrVal (s : State) (c : CoreId) (k : Core) (i : Nat) : Nat :=
  let lp := s.eng.lp
  let lo (v : BitVec 64) : Nat := v.toNat % 0x100000000
  let win (n : Nat) : Window := k.wins[n]?.getD {}
  match i with
  | 0x000 => put (ciOf c).val 16 + put (gyOf c) 8 + gxOf c
  | 0x001 =>
    put (physOf s (ptOf c)).val 16 + put ((ciOf c).val % 16 / 4) 10 + put ((ciOf c).val % 4) 8
      + put (gyOf c % 8) 4 + pcolOf s c
  | 0x002 =>
    put (match s.eng.pass with | some p => p.epoch.toNat | none => 0) 16 + put s.eng.placement 14
      + put s.eng.slotRate.toNat 12 + (match lp with | some l => l.entry % 4096 | none => 0)
  | 0x003 =>
    let span := match s.eng.image with | some im => im.span | none => []
    let me := s.eng.cfg.engineId
    put me.toNat 18 + put (if span.length = 0 then 1 else span.length) 4
      + (match span.findIdx? (fun m => m == me.setWidth 16) with | some j => j | none => 0)
  | 0x004 => k.task.lpass.toNat
  | 0x010 => lo k.cnt.cycle
  | 0x011 => k.cnt.cycle.toNat >>> 32
  | 0x012 => lo k.cnt.instret
  | 0x013 => k.cnt.instret.toNat >>> 32
  | 0x014 => lo k.cnt.mxBusy
  | 0x015 => k.cnt.mxBusy.toNat >>> 32
  | 0x016 => lo k.cnt.vxBusy
  | 0x017 => k.cnt.vxBusy.toNat >>> 32
  | 0x018 => lo k.cnt.txBytes
  | 0x019 => k.cnt.txBytes.toNat >>> 32
  | 0x01A => k.cnt.idleSlots.toNat
  | 0x01B => k.cnt.stale.toNat
  | 0x020 => k.recs.fault.toNat
  | 0x021 => k.recs.faultPc.toNat
  | 0x022 => k.recs.faultAddr.toNat
  | 0x040 => k.recs.numStatus.toNat
  | 0x050 => match runningPlan s with | some p => put p.index 13 + p.period | none => 0
  | 0x051 =>
    match runningPlan s with
    | some p => put (k.router.slot / p.period % 0x100000) 12 + k.router.slot % p.period
    | none => 0
  | 0x052 => k.recs.meshErr.toNat
  | 0x053 => joinBits 5 k.router.holdMax.toList
  | 0x054 => (k.cnt.flits[0]).toNat
  | 0x055 => (k.cnt.flits[1]).toNat
  | 0x056 => (k.cnt.flits[2]).toNat
  | 0x057 => (k.cnt.flits[3]).toNat
  | 0x060 => match s.eng.pass with | some p => bits p.desc.toNat 319 288 | none => 0
  | 0x100 => put (b2n k.task.carryValid) 16 + put k.task.carried.toNat 8 + k.task.seg.toNat
  | 0x101 => k.recs.perr.toNat
  | 0x102 => k.recs.perrMask.toNat
  | 0x103 => k.recs.winFault.toNat
  | 0x104 => k.cnt.stallRd.toNat
  | 0x105 => k.cnt.stallWr.toNat
  | 0x106 => k.cnt.stallDma.toNat
  | 0x107 => k.cnt.dmaYield.toNat
  | 0x200 =>
    put k.units.spQ.length 16 + (match k.units.hash with | some h => put 1 31 + h.live | none => 0)
  | 0x201 => k.cnt.hspill.toNat
  | 0x202 =>
    match lp with
    | some l => put (focusCode l.fmode) 6 + put (b2n l.sampled) 5 + put (b2n l.escalated) 4 + put (b2n l.masked) 3
    | none => put 2 6
  | 0x203 => k.task.tauP.toNat
  | 0x204 => k.task.tau.toNat
  | 0x205 => k.task.emin.toNat
  | 0x208 => k.cnt.spCycles.toNat
  | 0x209 => k.cnt.spMatched.toNat
  | 0x20A => k.cnt.spGroups.toNat
  | 0x20B => k.cnt.spProbes.toNat
  | 0x300 => k.recs.memErr.toNat
  | 0x301 => k.recs.memErrAddr.toNat
  | 0x302 =>
    let t := s.tiles[(physOf s (ptOf c)).val]
    put (b2n (streamedNow s)) 31 + put s.eng.cfg.memMode 29 + put (weightSlot s) 28
      + put (b2n t.layer1.doubled) 5 + put (b2n t.layer0.doubled) 4 + k.units.dmaQ.length
  | 0x303 => k.cnt.memStall.toNat
  | 0x304 => lo k.cnt.memBytes
  | 0x305 => k.cnt.memBytes.toNat >>> 32
  | 0x400 => syncState k
  | 0x401 => joinBits 8 (k.cnt.bars.toList.map BitVec.toNat)
  | 0x402 => k.recs.syncErr.toNat
  | 0x403 => k.cnt.tatStale.toNat
  | 0x404 => k.cnt.waitCycles.toNat
  | 0x405 => k.cnt.tatLate.toNat
  | _ =>
    if 0x30 ≤ i ∧ i ≤ 0x37 then (win (i - 0x30)).rx.toNat
    else if 0x110 ≤ i ∧ i ≤ 0x117 then
      let w := win (i - 0x110)
      put (b2n w.opened) 31 + put (b2n w.edge) 30 + put (b2n w.srcAny) 29 + w.base.toNat
    else if 0x118 ≤ i ∧ i ≤ 0x11F then (win (i - 0x118)).limit.toNat
    else if 0x120 ≤ i ∧ i ≤ 0x127 then
      let w := win (i - 0x120)
      put w.gyHi.toNat 24 + put w.gyLo.toNat 16 + put w.gxHi.toNat 8 + w.gxLo.toNat
    else if 0x310 ≤ i ∧ i ≤ 0x317 then (regionBytes s (ciOf c) (i - 0x310) + mib - 1) / mib % 4096
    else 0

/-- The counters that only lost arbitration advances, each by a free number of cycles before it is read (R119, R172). -/
def stallTick (i f : Nat) (k : Core) : Core :=
  let n := k.cnt
  let d := Config.freeCycles f
  match i with
  | 0x104 => { k with cnt := { n with stallRd := incW n.stallRd d } }
  | 0x105 => { k with cnt := { n with stallWr := incW n.stallWr d } }
  | 0x106 => { k with cnt := { n with stallDma := incW n.stallDma d } }
  | 0x107 => { k with cnt := { n with dmaYield := incW n.dmaYield d } }
  | 0x303 => { k with cnt := { n with memStall := incW n.memStall d } }
  | _ => k

/-- CSRR: a low word latches its high word, and the next read of the high word returns what was latched (R10). -/
def execCsrr (c : CoreId) (f : CsrF) (s : State) : Res :=
  issue c [f.sd] [] (fun s k =>
    let i := f.csr.toNat
    if !csrAssigned i then .fault 0 0x0230 0
    else
      let k1 := stallTick i s.free k
      let v := match tabFind k1.latch i with
        | some w => w.toNat
        | none => csrVal s c k1 i
      let latch := match csrPair k1 i with
        | some hi => tabSet k1.latch (i + 1) (BitVec.ofNat 32 hi)
        | none => tabErase k1.latch i
      let k2 : Core := { k1 with latch := latch }
      .go (k2.setS f.sd (BitVec.ofNat 64 v)) (k.regs.pc.toNat + 1) 1 1 false) s

/-- CSRW: only SP_TAU_P, SP_TAU and SP_EMIN take a write (R298); a write to a RO register is ignored (R12). -/
def execCsrw (c : CoreId) (f : CsrF) (s : State) : Res :=
  issue c [f.sa] [] (fun _ k =>
    let v := BitVec.ofNat 32 (k.sreg f.sa).toNat
    if !csrAssigned f.csr.toNat then .fault 0 0x0230 0
    else match f.csr.toNat with
      | 0x203 => .one { k with task := { k.task with tauP := v } }
      | 0x204 => .one { k with task := { k.task with tau := v } }
      | 0x205 => .one { k with task := { k.task with emin := v.setWidth 8 } }
      | _ => .one k) s

/-! ### FENCE and HALT -/

/-- Whether the units that a mask selects have finished (R51). -/
def fenceMet (u : CoreUnits) (m : Nat) : Bool :=
  (!bitOf m 0 || (u.mxQ.isEmpty && u.mac.isNone && u.move.isNone))
  && (!bitOf m 1 || (u.sendQ.isEmpty && u.sending.isEmpty))
  && (!bitOf m 2 || (u.dmaQ.isEmpty && u.dmaRun.isEmpty))
  && (!bitOf m 3 || (u.fcQ.isEmpty && u.fcRun.isNone))
  && (!bitOf m 4 || (u.spQ.isEmpty && u.spRun.isNone))

/-- FENCE holds issue until the units selected have finished; IMM[31:5] is RSVD. -/
def execFence (c : CoreId) (imm : BitVec 32) (s : State) : Res :=
  issue c [] [] (fun _ k =>
    if bits imm.toNat 31 5 ≠ 0 then .fault 0 0x0230 0
    else if fenceMet k.units imm.toNat then .one k else .stall) s

/-- HALT: the core issues no more and waits for the conditions of R70. -/
def execHalt (c : CoreId) (s : State) : Res :=
  issue c [] [] (fun _ k => .one { k with run := .halting }) s

/-- A core arrives at the layer-end barrier: ARRIVE of scope engine, barrier 0xFFFF, to its cluster hub (R192). -/
def haltArrive (c : CoreId) (s : State) : State :=
  let k := s.core c
  s.send (.core c) (.cluster (ciOf c)) (packet 8 2 0xFFFF (gxOf c) (gyOf c) 0 0 k.task.lpass.toNat 0)

/-- HALT_COMPLETE: every queue has drained and the last flits have been delivered (R70); the windows close (R132), the
accumulator ends (R276), and the core arrives at the layer-end barrier. -/
def execHaltComplete (c : CoreId) (s : State) : Res :=
  let k := s.core c
  if k.run == .halting && fenceMet k.units 31 && k.units.syncQ.isEmpty then
    .next (haltArrive c (s.setCore c (closeWins { k with run := .halted, units := { k.units with hash := none } })))
  else .next s

/-- The unit of an opcode, as R76 codes it, by the ranges of R54; the control unit for an opcode that is not assigned. -/
def unitOfOp (op : Nat) : Nat :=
  let within (lo hi : Nat) : Bool := decide (lo ≤ op) && decide (op ≤ hi)
  if within 0x40 0x44 then 1 else if within 0x50 0x68 then 2 else if within 0x80 0x82 then 3
  else if within 0x88 0x8F then 4 else if within 0x90 0x97 then 5 else if within 0x98 0x9B then 6
  else if within 0xC0 0xCF then 7 else 0

/-- CORE_ILLEGAL_OP: the word at the PC has a decoding fault (R52, R54). -/
def execCoreIllegalOp (c : CoreId) (w : BitVec 64) (s : State) : Res :=
  issue c [] [] (fun _ _ => if decodable w then .stall else .fault (unitOfOp (bits w.toNat 63 56)) 0x0230 0) s

/-- CORE_WATCHDOG: CORE_CYCLE has reached WDOG × 1,024 before HALT completed (R79). DESIGN CHOICE (log entry 73): CORE_FAULT_PC is the PC at
which the core stands, HALT's PC + 1 once HALT has issued; R79 names no instruction for this fault. -/
def execCoreWatchdog (c : CoreId) (s : State) : Res :=
  let k := s.core c
  match runningEntry s with
  | some e =>
    if e.wdog ≠ 0 && (k.run == .running || k.run == .halting) then
      let k' := { k with cnt := { k.cnt with cycle := BitVec.ofNat 64 (e.wdog * 1024) } }
      .next (coreFault c 0 0x0234 k.regs.pc 0 (s.setCore c k'))
    else .next s
  | none => .next s

end Sys2Proof.Machine
end

