-- ==== Sys2Proof/Machine/CoreSparse.lean ====
section
/-! DEFINITION. The sparse instructions (R268 to R279, R287, R295). -/

namespace Sys2Proof.Machine

open Sys2Proof

/-- Which fields of the format an instruction uses; the others must be zero (R268, R269). -/
def sparseUnused (f : SparseF) (sd sa sb ss fa mm : Bool) : Bool :=
  (sd || f.sd == 0) && (sa || f.sa == 0) && (sb || f.sb == 0) && (ss || f.ss == 0) && (fa || f.fmtA == 0)
    && (mm || (f.fmtB == 0 && f.acc == 0 && !f.za && !f.bsp && f.kg == 0))

/-- An operation enters the sparse unit: it starts when the unit is idle, else it waits in the queue of four. -/
def enqueueSp (k : Core) (op : SpOp) : Act :=
  match k.units.spRun with
  | none => .one { k with units := { k.units with spRun := some op } }
  | some _ =>
    if 4 ≤ k.units.spQ.length then .stall
    else .one { k with units := { k.units with spQ := k.units.spQ ++ [op] } }

/-- An operation with the register values it takes at issue. -/
def spOp (k : Core) (kind : SpKind) (f : SparseF) : SpOp :=
  ⟨kind, f, k.sreg f.sd, k.sreg f.sa, k.sreg f.sb, k.sreg f.ss, pcOf k, k.cnt.instret⟩

/-- SPACK: both addresses 32 B aligned, the source in range, a format that a strip has, NBLK from 1 to 2,048. -/
def execSpack (c : CoreId) (f : SparseF) (s : State) : Res :=
  issue c [f.sd, f.sa, f.sb] [] (fun _ k =>
    let b := (k.sreg f.sb).toNat
    let n := bits b 11 0
    let d := (k.sreg f.sd).toNat
    let a := (k.sreg f.sa).toNat
    let e := stripElem f.fmtA.toNat
    if !sparseUnused f true true true false true false || !fmtField f.fmtA.toNat then .fault 7 0x0230 0
    else if e = 0 ∨ n = 0 ∨ 2048 < n ∨ bits b 31 12 ≠ 0 then .fault 7 0x0233 0
    else match spadFaults k.task.seg [(a, 32 * n * e, 32), (d, 32, 32)] with
      | some (code, addr) => .fault 7 code addr
      | none => enqueueSp k (spOp k .spack f)) s

/-- The format pairs of SMMA (R272). -/
def smmaPair (a b : Nat) : Bool := (a == 0 && b == 0) || ((a == 2 || a == 3) && decide (2 ≤ b) && decide (b ≤ 5))

/-- SMMA: checks, then the matrix queue; its strips and panel are checked as it starts. -/
def execSmma (c : CoreId) (f : SparseF) (s : State) : Res :=
  issue c [f.sa, f.sb, f.ss] [] (fun _ k =>
    let kg := f.kg.toNat
    let a := (k.sreg f.sa).toNat
    let b := (k.sreg f.sb).toNat
    let sb := bits (k.sreg f.ss).toNat 51 32
    if 4 ≤ k.units.mxQ.length then .stall
    else if f.sd ≠ 0 || !fmtField f.fmtA.toNat || !fmtField f.fmtB.toNat then .fault 7 0x0230 0
    else if kg = 0 || !smmaPair f.fmtA.toNat f.fmtB.toNat then .fault 7 0x0233 0
    else
      let bs := if f.bsp then [(b, 32, 32)]
        else (b, 32 * kg * rowBytes f.fmtB, 32) :: (if hasScale f.fmtB then [(sb, 32 * kg, 16)] else [])
      match spadFaults k.task.seg ((a, 64, 1) :: bs) with
      | some (code, addr) => .fault 7 code addr
      | none => enqueueMx k (.smma f a b sb (pcOf k) k.cnt.instret)) s

/-- HINIT: the table 32 B aligned and in range; the spill offset and capacity multiples of 64, at most 16 MiB (R276). -/
def execHinit (c : CoreId) (f : SparseF) (s : State) : Res :=
  issue c [f.sa, f.sb] [] (fun _ k =>
    let a := (k.sreg f.sa).toNat
    let b := (k.sreg f.sb).toNat
    if !sparseUnused f false true true false false false then .fault 7 0x0230 0
    else if bits b 31 0 % 64 ≠ 0 ∨ bits b 63 32 % 64 ≠ 0 then .fault 7 0x0232 (bits b 31 0)
    else if 0x1000000 < bits b 63 32 then .fault 7 0x0233 0
    else match spadFaults k.task.seg [(a, 65536, 32)] with
      | some (code, addr) => .fault 7 code addr
      | none => enqueueSp k (spOp k .hinit f)) s

def execHadd (c : CoreId) (f : SparseF) (s : State) : Res :=
  issue c [f.sa] [] (fun _ k =>
    let a := (k.sreg f.sa).toNat
    if !sparseUnused f false true false false false false then .fault 7 0x0230 0
    else match spadFaults k.task.seg [(a, 32, 32)] with
      | some (code, addr) => .fault 7 code addr
      | none => enqueueSp k (spOp k .hadd f)) s

/-- HMERGE: the destination as DMAWR has it (R215, R279). -/
def execHmerge (c : CoreId) (f : SparseF) (s : State) : Res :=
  issue c [f.sd, f.sa, f.sb] [] (fun _ k =>
    let a := (k.sreg f.sa).toNat
    let r := bits a 35 32
    if !sparseUnused f true true true false false false then .fault 7 0x0230 0
    else if bits a 31 0 % 64 ≠ 0 then .fault 7 0x0232 (bits a 31 0)
    else if bits a 63 36 ≠ 0 then .fault 7 0x0233 0
    else if r = 0 ∨ 8 ≤ r ∨ r = 2 ∨ r = 6 ∨ r = 7 then .fault 7 0x0405 (bits a 31 0)
    else enqueueSp k (spOp k .hmerge f)) s

/-- FMASK: values 32 B aligned, codes 16 B aligned (R287). -/
def execFmask (c : CoreId) (f : SparseF) (s : State) : Res :=
  issue c [f.sd, f.sa, f.sb, f.ss] [] (fun _ k =>
    if !sparseUnused f true true true true false false then .fault 7 0x0230 0
    else match spadFaults k.task.seg [((k.sreg f.sa).toNat, 128, 32), ((k.sreg f.sb).toNat, 16, 16)] with
      | some (code, addr) => .fault 7 code addr
      | none => enqueueSp k (spOp k .fmask f)) s

/-- FCOUNT: an update of the sync unit's queue (R270, R295). -/
def execFcount (c : CoreId) (f : SparseF) (s : State) : Res :=
  issue c [f.sa, f.sb] [] (fun _ k =>
    if !sparseUnused f false true true false false false then .fault 7 0x0230 0
    else if 8 ≤ k.units.syncQ.length then .stall
    else
      let x := SyncItem.fcount ((k.sreg f.sa).setWidth 32) ((k.sreg f.sb).setWidth 32)
      .one { k with units := { k.units with syncQ := k.units.syncQ ++ [x] } }) s

/-! ### Completion -/

/-- What an operation leaves: the core, the free values taken, whether parity failed; or a fault. What it reads of region 5, by offset and
units, and its writes of stacked memory stand apart. -/
structure SpDone where
  k : Core
  free : Nat
  bad : Bool := false
  fault : Option (BitVec 16 × Nat) := none
  reads : Nat × Nat := (0, 0)
  writes : List (Nat × Nat × List Byte) := []
  cycles : Nat := 0

/-- A strip of a dense run (R271). -/
def packStrip (fmt n keyBase : Nat) (elems : List Nat) : List Byte :=
  let e := stripElem fmt
  let zeroCode (x : Nat) : Bool := x % 2 ^ (8 * e - 1) == 0
  let live := elems.filter fun x => !zeroCode x
  let bitmap := (List.range n).flatMap fun w =>
    leBytes 4 (joinBits 1 (((elems.drop (32 * w)).take 32).map fun x => b2n (!zeroCode x)))
  let padTo (l : List Byte) : List Byte := l ++ List.replicate (pad32 l.length - l.length) 0
  leBytes 4 live.length ++ leBytes 2 n ++ leBytes 1 fmt ++ [0] ++ leBytes 4 keyBase ++ List.replicate 20 0
    ++ padTo bitmap ++ padTo (live.flatMap (leBytes e))

def doSpack (k : Core) (o : SpOp) (free : Nat) : SpDone :=
  let n := bits o.b.toNat 11 0
  let e := stripElem o.f.fmtA.toNat
  let r := k.spadGet 7 o.a.toNat (32 * n * e) free
  let strip := packStrip o.f.fmtA.toNat n (bits o.b.toNat 63 32) (splitBits (8 * e) (32 * n) (leNat r.bytes))
  let d := o.d.toNat
  if spadIn k.task.seg d strip.length then
    { k := r.core.spadPut d strip, free := r.free, bad := r.bad, cycles := n * (if e = 4 then 2 else 1) }
  else { k := r.core, free := r.free, bad := r.bad, fault := some (0x0231, d) }

/-- The key of an entry that holds none. -/
abbrev noKey : Nat := 0xFFFFFFFF

def doHinit (k : Core) (o : SpOp) (free : Nat) : SpDone :=
  let a := o.a.toNat
  let k1 := k.spadPut a (leBytes 65536 (joinBits 64 (List.replicate 8192 noKey)))
  let h : HashAcc := ⟨a, bits o.b.toNat 31 0, bits o.b.toNat 63 32, 0, [], 0⟩
  { k := { k1 with units := { k1.units with hash := some h }, cnt := { k1.cnt with hspill := 0 } },
    free := free, cycles := 1024 }

/-- The home of a key (R277). -/
def hashHome (key : Nat) : Nat := key * 0x9E3779B1 % 2 ^ 32 / 2 ^ 19

/-- What the probes of a key find: an entry that holds it with its value, a free entry, or neither; and the probes. -/
inductive Probe where
  | held (idx value : Nat)
  | empty (idx : Nat)
  | full

/-- The probe sequence from entry `idx`, for `n` more probes. -/
def probe (k : Core) (table key : Nat) : Nat → Nat → Nat → Probe × Nat
  | 0, _, m => (.full, m)
  | n + 1, idx, m =>
    let i := idx % 8192
    let r := k.spadGet 7 (table + 8 * i) 8 0
    let key' := fieldAt r.bytes 0 4
    if key' = key then (.held i (fieldAt r.bytes 4 4), m + 1)
    else if key' = noKey then (.empty i, m + 1)
    else probe k table key n (i + 1) (m + 1)

/-- One element added (R277, R278). An element that is NaN sets NAN_IN wherever it goes (R107). -/
def haddElem (x : SpDone) (h : HashAcc) (key value : Nat) : SpDone × HashAcc :=
  let p := probe x.k h.table key 8 (hashHome key) 0
  let more := p.2 - 1
  let seen := (List.range p.2).foldl (fun (a : Core × Bool) i =>
    let w := (h.table + 8 * ((hashHome key + i) % 8192)) / 32
    let r := a.1.parity 7 w w
    (r.1, a.2 || r.2)) (x.k, false)
  let k0 : Core := { seen.1 with cnt := { seen.1.cnt with spProbes := incW seen.1.cnt.spProbes more } }
  let k0 := k0.flag (nanIn (Fmt.fp32.decode value))
  let x0 := { x with k := k0, bad := x.bad || seen.2, cycles := x.cycles + 1 + more }
  match p.1 with
  | .held i v =>
    let r := fpAdd (Fmt.fp32.decode v) (Fmt.fp32.decode value)
    let q := Fmt.fp32.ofFp false r.1
    let fl := r.2 ||| q.2 ||| nanIn (Fmt.fp32.decode v)
    ({ x0 with k := ((k0.spadPut (h.table + 8 * i + 4) (leBytes 4 q.1)).flag fl) }, h)
  | .empty i =>
    ({ x0 with k := k0.spadPut (h.table + 8 * i) (leBytes 4 key ++ leBytes 4 value) }, { h with live := h.live + 1 })
  | .full =>
    if h.cap < 8 * (h.spilled + 1) then ({ x0 with fault := some (0x0602, h.spillOff) }, h)
    else
      let pend := h.pend ++ [BitVec.ofNat 64 (key + put value 32)]
      let k1 : Core := { k0 with cnt := { k0.cnt with hspill := incW k0.cnt.hspill } }
      let h1 := { h with spilled := h.spilled + 1, pend := pend }
      if pend.length = 8 then
        let off := h.spillOff + 64 * (h.spilled / 8)
        ({ x0 with k := k1, writes := x0.writes ++ [(5, off, pend.flatMap fun w => leBytes 8 w.toNat)] },
          { h1 with pend := [] })
      else ({ x0 with k := k1 }, h1)

/-- The elements of a strip added in order, until one faults. DESIGN CHOICE (log entry 74): an FP32 element that is NaN is stored with its
bits where it is the first of its key, since its conversion to FP32 is exact (R277); a BF16 NaN is converted to the canonical
NaN of FP32 (R93). -/
def haddAll (keyBase : Nat) (m : Fmt) : List (Nat × Nat) → SpDone → HashAcc → SpDone × HashAcc
  | [], x, h => (x, h)
  | e :: t, x, h =>
    let v := (Fmt.fp32.ofFp false (m.decode e.2)).1
    let v := if m = .fp32 then e.2 else v
    let r := haddElem x h (keyBase + e.1) v
    if r.1.fault.isSome then r else haddAll keyBase m t r.1 r.2

def doHadd (k : Core) (o : SpOp) (free : Nat) : SpDone :=
  match k.units.hash with
  | none => { k := k, free := free, fault := some (0x0233, 0) }
  | some h =>
    match fetchPacked k o.a.toNat free stripLen fun bs =>
        stripOk bs none none && decide (fieldAt bs 8 4 + 32 * fieldAt bs 4 2 ≤ 0xFFFFFFFF) with
    | .fault code addr k1 f1 bad => { k := k1, free := f1, bad := bad, fault := some (code, addr) }
    | .got bs k1 f1 bad =>
      let fmt := fieldAt bs 6 1
      if fmt ≠ 0 ∧ fmt ≠ 0xA then { k := k1, free := f1, bad := bad, fault := some (0x0233, 0) }
      else
        let r := haddAll (fieldAt bs 8 4) (if fmt = 0 then .bf16 else .fp32) (stripElems bs)
          { k := k1, free := f1, bad := bad } h
        let k2 := r.1.k
        { r.1 with k := { k2 with units := { k2.units with hash := some r.2 } } }

/-- The table entries that hold a key, as key and value. -/
def tableRecords (bs : List Byte) : List (Nat × Nat) :=
  ((splitBits 64 8192 (leNat bs)).map fun w => (w % 2 ^ 32, w / 2 ^ 32)).filter fun r => r.1 != noKey

/-- A record added to those of spilled keys, in append order; the first of a key is kept as it is (R279). A record that is NaN sets
NAN_IN, and a NaN formed by an earlier addition of this HMERGE sets nothing further (R107). -/
def addRecord (acc : List (Nat × Nat) × Word) (r : Nat × Nat) : List (Nat × Nat) × Word :=
  let seen := acc.2 ||| nanIn (Fmt.fp32.decode r.2)
  if acc.1.any fun x => x.1 == r.1 then
    let upd := acc.1.map fun x =>
      if x.1 = r.1 then
        let s := fpAdd (Fmt.fp32.decode x.2) (Fmt.fp32.decode r.2)
        let q := Fmt.fp32.ofFp false s.1
        ((x.1, q.1), s.2 ||| q.2)
      else (x, 0)
    (upd.map Prod.fst, upd.foldl (fun w u => w ||| u.2) seen)
  else (acc.1 ++ [r], seen)

/-- Records in increasing key. -/
def insertKey (r : Nat × Nat) : List (Nat × Nat) → List (Nat × Nat)
  | [] => [r]
  | x :: t => if r.1 < x.1 then r :: x :: t else x :: insertKey r t

/-- HMERGE (R279); `bad` are the units of spilled records whose transfer fails link parity, of which nothing is known. -/
def doHmerge (s : State) (c : CoreId) (k : Core) (o : SpOp) (bad : List Nat) : SpDone :=
  match k.units.hash with
  | none => { k := k, free := s.free, fault := some (0x0233, 0) }
  | some h =>
    let t := k.spadGet 7 h.table 65536 s.free
    let whole := h.spilled / 8 * 64
    let kept := regionRead s (ciOf c) 5 h.spillOff whole t.free
    let back := garble bad kept.1 kept.2
    let spill := (splitBits 64 (h.spilled / 8 * 8) (leNat back.1) ++ h.pend.map BitVec.toNat).map fun w =>
      (w % 2 ^ 32, w / 2 ^ 32)
    let sums := spill.foldl addRecord ([], 0)
    let recs := (tableRecords t.bytes ++ sums.1).foldl (fun l r => insertKey r l) []
    let region := bits o.a.toNat 35 32
    let off := bits o.a.toNat 31 0
    let n := 8 * recs.length
    let part := if h.pend.isEmpty then [] else
      [(5, h.spillOff + whole, (h.pend.flatMap fun w => leBytes 8 w.toNat)
        ++ freeBytes back.2 (64 - 8 * h.pend.length))]
    let base : SpDone := { k := t.core.flag sums.2, free := back.2 + 64, bad := t.bad, reads := (h.spillOff, h.spilled / 8), writes := part }
    if o.b.toNat < n then { base with fault := some (0x0603, off) }
    else if regionBytes s (ciOf c) region < off + n then { base with fault := some (0x0404, off) }
    else
      let k1 := base.k.setS o.f.sd (BitVec.ofNat 64 recs.length)
      let k2 : Core := { k1 with
        units := { k1.units with hash := none },
        spad := { k1.spad with cells := cellSplice k1.spad.cells h.table (h.table + 65536) [] } }
      { base with k := k2, free := base.free + 1, cycles := Config.freeCycles base.free,
                  writes := part ++ (if n = 0 then []
                    else [(region, off, recs.flatMap fun r => leBytes 4 r.1 ++ leBytes 4 r.2)]) }

/-- β of a code (R287). -/
def betaOf (emin : BitVec 8) (code : Nat) : Dy := if code = 0 then ⟨0, 0⟩ else ⟨1, emin.toInt + code⟩

/-- Whether row i is predicted, and whether it is possible. -/
def fmaskBit (tp t n : Fp) (beta : Dy) (z : Fp) : Bool × Bool :=
  let isNan (x : Fp) : Bool := x == .nan
  let isInf (x : Fp) : Bool := match x with | .inf _ => true | _ => false
  (isNan z || fpLt tp z,
   isNan z || isNan n || isNan t || isInf n ||
     fpLt t (fpAdd z (match n with | .fin neg d => .fin neg (dyMul beta d) | x => x)).1)

def doFmask (k : Core) (o : SpOp) (free : Nat) : SpDone :=
  let z := k.spadGet 7 o.a.toNat 128 free
  let q := z.core.spadGet 7 o.b.toNat 16 z.free
  let zs := splitBits 32 32 (leNat z.bytes)
  let cs := splitBits 4 32 (leNat q.bytes)
  let fp (v : Nat) : Fp := Fmt.fp32.decode v
  let tp := fp k.task.tauP.toNat
  let ta := fp k.task.tau.toNat
  let n := fp (bits o.ss.toNat 31 0)
  let rs := (zs.zip cs).map fun x => fmaskBit tp ta n (betaOf k.task.emin x.2) (fp x.1)
  let fl := zs.foldl (fun w z => w ||| nanIn (fp z)) (nanIn tp ||| nanIn ta ||| nanIn n)
  let v := joinBits 1 (rs.map fun r => b2n r.1) + put (joinBits 1 (rs.map fun r => b2n r.2)) 32
  { k := (q.core.setS o.f.sd (BitVec.ofNat 64 v)).flag fl, free := q.free, bad := z.bad || q.bad, cycles := 4 }

/-- Bytes written in stacked memory over the DMA port, unit by unit from number `n` on; `bad` are the units whose transfer fails link
parity (R222, R270, R278). -/
def spWrites (c : CoreId) (bad : List Nat) : Nat → List (Nat × Nat × List Byte) → State → State
  | _, [], s => s
  | n, (r, off, bs) :: t, s =>
    let us := cut 64 ((bs.length + 63) / 64) bs
    let one (s : State) (x : Nat × List Byte) : State := writeUnit c r (off + 64 * x.1) x.2 (!bad.contains (n + x.1)) s
    spWrites c bad (n + us.length) t (((List.range us.length).zip us).foldl one s)

/-- The units of spilled records that an HMERGE has read: link parity and the stored check of each (R222, R223). -/
def spReads (c : CoreId) (bad : List Nat) (off n : Nat) (s : State) : State :=
  (List.range n).foldl (fun s i => readUnit c 5 (off + 64 * i) (!bad.contains i) s) s

/-- The operation that runs has ended: the next one of the queue starts, unless the one that ended faulted and the queue is discarded
with it (R80). -/
def nextSp (k : Core) (goOn : Bool) : Core :=
  match k.units.spQ with
  | [] => k
  | x :: t => if goOn then { k with units := { k.units with spRun := some x, spQ := t } } else k

/-- SPARSE_OP_COMPLETE: the operation that the sparse unit runs ends, and the next one of its queue starts. A fault is
recorded with UNIT 7 and the PC of the operation. Its transfers over the DMA port are numbered by unit, reads first. -/
def execSparseOpComplete (x : SparseEnd) (s : State) : Res :=
  let c := x.core
  let k := s.core c
  match k.units.spRun with
  | none => .next s
  | some o =>
    let k1 : Core := { k with units := { k.units with spRun := none } }
    let d := match o.kind with
      | .spack => doSpack k1 o s.free
      | .hinit => doHinit k1 o s.free
      | .hadd => doHadd k1 o s.free
      | .hmerge => doHmerge s c k1 o x.badLinks
      | .fmask => doFmask k1 o s.free
    let k2 := nextSp { d.k with cnt := { d.k.cnt with spCycles := incW d.k.cnt.spCycles d.cycles } } d.fault.isNone
    let s1 := spWrites c x.badLinks d.reads.2 d.writes
      (spReads c x.badLinks d.reads.1 d.reads.2 ((s.setCore c k2).took (d.free - s.free)))
    let s2 := if d.bad then coreHwAbort c 0x0401 (.core c) s1 else s1
    .next (match d.fault with
      | some (code, addr) => coreFaultAt o.ord c 7 code o.pc addr s2
      | none => s2)

end Sys2Proof.Machine
end

