-- ==== Sys2Proof/Machine/CoreVector.lean ====
section
/-! DEFINITION. The vector unit (R61 to R63, R103 to R106), and the vector loads and stores. -/

namespace Sys2Proof.Machine

open Sys2Proof

/-! ### Loads and stores -/

/-- VLD: 128 B, 32 B aligned. -/
def execVld (c : CoreId) (f : LoadF) (s : State) : Res :=
  issue c [f.sa] [f.d] (fun s k =>
    let a := effAddr k f
    match spadFault k.task.seg a 128 32 with
    | some code => .fault 2 code a
    | none =>
      let r := k.spadGet 2 a 128 s.free
      .go (r.core.setV f.d (BitVec.ofNat 1024 (leNat r.bytes))) (k.regs.pc.toNat + 1) 1 (r.free - s.free) r.bad) s

/-- VST: 128 B, 32 B aligned. -/
def execVst (c : CoreId) (f : LoadF) (s : State) : Res :=
  issue c [f.sa] [f.d] (fun _ k =>
    let a := effAddr k f
    match spadFault k.task.seg a 128 32 with
    | some code => .fault 2 code a
    | none => .one (k.spadPut a (leBytes 128 (k.vreg f.d).toNat))) s

/-! ### Lane-wise operations -/

/-- One cycle with a vector operation issued (R71). -/
def vxTick (k : Core) : Core := { k with cnt := { k.cnt with vxBusy := k.cnt.vxBusy + 1 } }

/-- A vector operation: TY = 3 is a decoding fault (R54). -/
def vecIssue (c : CoreId) (f : VecF) (ss vs : List Reg) (g : Core → Act) (s : State) : Res :=
  issue c ss vs (fun _ k => if f.ty = 3 then .fault 2 0x0230 0 else g (vxTick k)) s

/-- The lanes of VD: an active lane takes what `g` gives for lanes i of VA, VB and VC, an inactive one keeps its value;
the flags of the active lanes together (R61). -/
def laneMap (k : Core) (f : VecF) (g : Nat → Nat → Nat → Nat × Word) : BitVec 1024 × Word :=
  let p := predOf k f.pm
  let la := lanesOf f.ty (k.vreg f.va)
  let lb := lanesOf f.ty (k.vreg f.vb)
  let lc := lanesOf f.ty (k.vreg f.vc)
  let ld := lanesOf f.ty (k.vreg f.vd)
  let rs := (List.range (laneCount f.ty)).map fun i =>
    if p.getLsbD i then g (la[i]?.getD 0) (lb[i]?.getD 0) (lc[i]?.getD 0) else (ld[i]?.getD 0, 0)
  (ofLanes f.ty (rs.map Prod.fst), rs.foldl (fun w r => w ||| r.2) 0)

/-- A lane-wise operation that writes VD. -/
def laneOp (c : CoreId) (f : VecF) (g : Nat → Nat → Nat → Nat × Word) (s : State) : Res :=
  vecIssue c f [] [f.va, f.vb, f.vc, f.vd] (fun k =>
    let r := laneMap k f g
    .one ((k.setV f.vd r.1).flag r.2)) s

/-- A floating-point function of lanes rounded once; a NaN operand gives the canonical NaN and sets NAN_IN alone. -/
def fpLane (ty : BitVec 2) (rm : Bool) (xs : List Nat) (g : List Fp → Fp × Word) : Nat × Word :=
  let m := laneFmt ty
  let vs := xs.map m.decode
  if vs.contains .nan then (m.nanCode, nsNanIn)
  else
    let r := g vs
    let o := m.ofFp rm r.1
    (o.1, r.2 ||| o.2)

/-- An INT32 result: the low 32 bits. -/
def intLane (v : Int) : Nat × Word := ((BitVec.ofInt 32 v).toNat, 0)

def vaddLane (ty : BitVec 2) (rm : Bool) (a b _c : Nat) : Nat × Word :=
  if ty = 2 then intLane (a + b)
  else fpLane ty rm [a, b] fun | [x, y] => fpAdd x y | _ => (.nan, 0)

def vsubLane (ty : BitVec 2) (rm : Bool) (a b _c : Nat) : Nat × Word :=
  if ty = 2 then intLane ((a : Int) - b)
  else fpLane ty rm [a, b] fun | [x, y] => fpAdd x (fpNeg y) | _ => (.nan, 0)

def vmulLane (ty : BitVec 2) (rm : Bool) (a b _c : Nat) : Nat × Word :=
  if ty = 2 then intLane (a * b)
  else fpLane ty rm [a, b] fun | [x, y] => fpMul x y | _ => (.nan, 0)

def vfmaLane (ty : BitVec 2) (rm : Bool) (a b c : Nat) : Nat × Word :=
  if ty = 2 then intLane (a * b + c)
  else fpLane ty rm [a, b, c] fun
    | [x, y, z] => let p := fpMul x y; let r := fpAdd p.1 z; (r.1, p.2 ||| r.2)
    | _ => (.nan, 0)

/-- The larger of two lanes, or the smaller; −0 is below +0, and a NaN gives the canonical NaN (R105, R106). -/
def pickLane (ty : BitVec 2) (larger : Bool) (a b _c : Nat) : Nat × Word :=
  if ty = 2 then
    let lt := decide (signedOf 32 a < signedOf 32 b)
    (if lt == larger then b else a, 0)
  else
    let m := laneFmt ty
    let x := m.decode a
    let y := m.decode b
    if x == .nan || y == .nan then (m.nanCode, nsNanIn)
    else
      let neg (v : Nat) : Bool := v.testBit (m.width - 1)
      let lt := fpLt x y || (fpEq x y && neg a && !neg b)
      (if lt == larger then b else a, 0)

def execVadd (c : CoreId) (f : VecF) (s : State) : Res := laneOp c f (vaddLane f.ty f.rm) s
def execVsub (c : CoreId) (f : VecF) (s : State) : Res := laneOp c f (vsubLane f.ty f.rm) s
def execVmul (c : CoreId) (f : VecF) (s : State) : Res := laneOp c f (vmulLane f.ty f.rm) s
def execVfma (c : CoreId) (f : VecF) (s : State) : Res := laneOp c f (vfmaLane f.ty f.rm) s
def execVmax (c : CoreId) (f : VecF) (s : State) : Res := laneOp c f (pickLane f.ty true) s
def execVmin (c : CoreId) (f : VecF) (s : State) : Res := laneOp c f (pickLane f.ty false) s

def execVand (c : CoreId) (f : VecF) (s : State) : Res := laneOp c f (fun a b _ => (a &&& b, 0)) s
def execVor (c : CoreId) (f : VecF) (s : State) : Res := laneOp c f (fun a b _ => (a ||| b, 0)) s
def execVxor (c : CoreId) (f : VecF) (s : State) : Res := laneOp c f (fun a b _ => (a ^^^ b, 0)) s

/-- VBCAST: every active lane of VD is the low bits of S[VA]. -/
def execVbcast (c : CoreId) (f : VecF) (s : State) : Res :=
  vecIssue c f [f.va] [f.vd] (fun k =>
    .one (k.setV f.vd (laneMap k f fun _ _ _ => ((k.sreg f.va).toNat % 2 ^ laneBits f.ty, 0)).1)) s

/-- VMOVS: S[VD] is lane EXT[5:0] of VA; EXT[29:6] is RSVD. -/
def execVmovs (c : CoreId) (f : VecF) (s : State) : Res :=
  vecIssue c f [f.vd] [f.va] (fun k =>
    let i := bits f.ext.toNat 5 0
    if bits f.ext.toNat 29 6 ≠ 0 then .fault 2 0x0230 0
    else if laneCount f.ty ≤ i then .fault 2 0x0233 0
    else .one (k.setS f.vd (BitVec.ofNat 64 ((lanesOf f.ty (k.vreg f.va))[i]?.getD 0)))) s

/-! ### Comparison and selection (R105, R106) -/

/-- The comparison of a code for two lanes. -/
def cmpLane (ty : BitVec 2) (code a b : Nat) : Bool × Word :=
  let by' (lt eq : Bool) : Bool :=
    match code with
    | 0 => eq
    | 1 => !eq
    | 2 => lt
    | 3 => lt || eq
    | 4 => !lt && !eq
    | 5 => !lt
    | _ => false
  if ty = 2 then (by' (decide (signedOf 32 a < signedOf 32 b)) (a == b), 0)
  else
    let m := laneFmt ty
    let x := m.decode a
    let y := m.decode b
    if x == .nan || y == .nan then (code == 1 || code == 6, nsNanIn) else (by' (fpLt x y) (fpEq x y), 0)

/-- VCMP: P[VD] takes the comparison of the active lanes; its other bits stay. -/
def execVcmp (c : CoreId) (f : VecF) (s : State) : Res :=
  vecIssue c f [] [f.va, f.vb] (fun k =>
    let code := bits f.ext.toNat 2 0
    if h : code ≠ 7 ∧ 1 ≤ f.vd.val ∧ f.vd.val ≤ 7 then
      let p := predOf k f.pm
      let la := lanesOf f.ty (k.vreg f.va)
      let lb := lanesOf f.ty (k.vreg f.vb)
      let n : Fin 8 := ⟨f.vd.val, by omega⟩
      let old := k.regs.p[n.val]
      let rs := (List.range (laneCount f.ty)).map fun i =>
        if p.getLsbD i then cmpLane f.ty code (la[i]?.getD 0) (lb[i]?.getD 0) else (old.getLsbD i, 0)
      let low := BitVec.ofNat 64 (joinBits 1 (rs.map fun r => b2n r.1))
      let v := if laneCount f.ty = 64 then low else (old >>> 32 <<< 32) ||| low
      .one ((k.setP n v).flag (rs.foldl (fun w r => w ||| r.2) 0))
    else .fault 2 0x0230 0) s

/-- VSEL: VA where P[VC[2:0]] is 1, else VB; VC[4:3] must be zero. -/
def execVsel (c : CoreId) (f : VecF) (s : State) : Res :=
  vecIssue c f [] [f.va, f.vb, f.vd] (fun k =>
    if h : f.vc.val < 8 then
      let q := k.regs.p[f.vc.val]
      let p := predOf k f.pm
      let la := lanesOf f.ty (k.vreg f.va)
      let lb := lanesOf f.ty (k.vreg f.vb)
      let ld := lanesOf f.ty (k.vreg f.vd)
      .one (k.setV f.vd (ofLanes f.ty ((List.range (laneCount f.ty)).map fun i =>
        if p.getLsbD i then (if q.getLsbD i then la[i]?.getD 0 else lb[i]?.getD 0) else ld[i]?.getD 0)))
    else .fault 2 0x0230 0) s

/-! ### Approximate functions, correctly rounded (R104) -/

/-- A positive real number, given by its comparison, in a lane format with a sign. -/
def realLane (m : Fmt) (rm neg : Bool) (cmp : Dy → Ordering) : Nat × Word :=
  m.finish rm neg (m.roundReal rm cmp)

/-- |d|. -/
def dyAbs (d : Dy) : Dy := ⟨d.z.natAbs, d.e⟩

def rcpLane (m : Fmt) (rm : Bool) : Fp → Nat × Word
  | .nan => (m.nanCode, nsNanIn)
  | .inf neg => (m.withSign neg 0, 0)
  | .fin neg d =>
    if d.z = 0 then (m.withSign neg m.infCode, 0) else realLane m rm neg (cmpRcp (dyAbs d))

def rsqLane (m : Fmt) (rm : Bool) : Fp → Nat × Word
  | .nan => (m.nanCode, nsNanIn)
  | .inf neg => if neg then (m.nanCode, nsInvalid) else (0, 0)
  | .fin neg d =>
    if d.z = 0 then (m.withSign neg m.infCode, 0)
    else if neg then (m.nanCode, nsInvalid)
    else realLane m rm false (cmpRsq d)

def exp2Lane (m : Fmt) (rm : Bool) : Fp → Nat × Word
  | .nan => (m.nanCode, nsNanIn)
  | .inf neg => if neg then (0, 0) else (m.infCode, 0)
  | .fin _ d => if d.z = 0 then m.round rm false ⟨1, 0⟩ else realLane m rm false (cmpPow2 d)

def log2Lane (m : Fmt) (rm : Bool) : Fp → Nat × Word
  | .nan => (m.nanCode, nsNanIn)
  | .inf neg => if neg then (m.nanCode, nsInvalid) else (m.infCode, 0)
  | .fin neg d =>
    if d.z = 0 then (m.withSign true m.infCode, 0)
    else if neg then (m.nanCode, nsInvalid)
    else match dyCmp d ⟨1, 0⟩ with
      | .eq => (0, 0)
      | .gt => realLane m rm false fun t => (cmpPow2 t d).swap
      | .lt => realLane m rm true fun t => cmpPow2 ⟨-t.z, t.e⟩ d

/-- A function of one floating-point lane; TY = 2 is an operand fault (R61). -/
def realOp (c : CoreId) (f : VecF) (g : Fmt → Bool → Fp → Nat × Word) (s : State) : Res :=
  vecIssue c f [] [f.va, f.vd] (fun k =>
    if f.ty = 2 then .fault 2 0x0233 0
    else
      let m := laneFmt f.ty
      let r := laneMap k f fun a _ _ => g m f.rm (m.decode a)
      .one ((k.setV f.vd r.1).flag r.2)) s

def execVrcp (c : CoreId) (f : VecF) (s : State) : Res := realOp c f rcpLane s
def execVrsq (c : CoreId) (f : VecF) (s : State) : Res := realOp c f rsqLane s
def execVexp2 (c : CoreId) (f : VecF) (s : State) : Res := realOp c f exp2Lane s
def execVlog2 (c : CoreId) (f : VecF) (s : State) : Res := realOp c f log2Lane s

/-! ### Conversion (R62, R97) -/

/-- An element of a conversion source as a value. -/
def cvtVal (code x : Nat) : Fp :=
  if code = 0xB then let q := signedOf 32 x; .fin (q < 0) ⟨q, 0⟩
  else match codeFmt (BitVec.ofNat 4 code) with
    | some m => m.decode x
    | none => .nan

/-- A value as an element of a conversion result. -/
def cvtTo (code : Nat) (rz : Bool) (v : Fp) : Nat × Word :=
  if code = 0xB then toInt32 rz v
  else match codeFmt (BitVec.ofNat 4 code) with
    | some m => let r := m.ofFp rz v; (r.1, r.2 ||| nanIn v)
    | none => (0, 0)

/-- The spans of a conversion: that of the source, that of the result, or none where the part names no span. -/
def cvtSpans (sz rz p : Nat) : Option (Nat × Nat) :=
  if rz < sz then (if p < 4 / rz then some (0, p) else none)
  else if sz < rz then (if p < 4 / sz then some (p, 0) else none)
  else if p < 4 / sz then some (p, p) else none

/-- VCVT of 32 elements; a gated element is neither converted nor written. -/
def execVcvt (c : CoreId) (f : VecF) (s : State) : Res :=
  issue c [] [f.va, f.vd] (fun _ k0 =>
    let k := vxTick k0
    let e := f.ext.toNat
    let a := bits e 29 26
    let b := bits e 25 22
    if f.ty ≠ 0 ∨ bits e 19 0 ≠ 0 ∨ 12 ≤ a ∨ 12 ≤ b then .fault 2 0x0230 0
    else match cvtSize a, cvtSize b with
      | some sz, some rz =>
        match cvtSpans sz rz (bits e 21 20) with
        | none => .fault 2 0x0233 0
        | some (sp, rp) =>
          let src := splitBits (8 * sz) (128 / sz) (k.vreg f.va).toNat
          let old := splitBits (8 * rz) (128 / rz) (k.vreg f.vd).toNat
          let p := predOf k f.pm
          let rs := (List.range (128 / rz)).map fun j =>
            let i := j - 32 * rp
            if 32 * rp ≤ j ∧ j < 32 * rp + 32 ∧ p.getLsbD i then cvtTo b f.rm (cvtVal a (src[32 * sp + i]?.getD 0))
            else (old[j]?.getD 0, 0)
          .one ((k.setV f.vd (BitVec.ofNat 1024 (joinBits (8 * rz) (rs.map Prod.fst)))).flag
            (rs.foldl (fun w r => w ||| r.2) 0))
      | _, _ => .fault 2 0x0233 0) s

/-! ### Lane sum (R63) -/

/-- A node of the tree: its bits, and whether a NaN or infinity in it was formed within the tree. -/
structure RedNode where
  v : Nat
  formed : Bool

def finite (x : Fp) : Bool :=
  match x with
  | .fin _ _ => true
  | _ => false

/-- One addition of the tree. -/
def redAdd (ty : BitVec 2) (rm : Bool) (x y : RedNode) : RedNode × Word :=
  if ty = 2 then (⟨(intLane (x.v + y.v)).1, false⟩, 0)
  else
    let m := laneFmt ty
    let a := m.decode x.v
    let b := m.decode y.v
    let r := fpAdd a b
    let o := m.ofFp rm r.1
    let old := x.formed || y.formed
    let fl := if old then 0 else r.2 ||| o.2
    let fresh := (finite a && finite b) || fl &&& nsInvalid != 0
    (⟨o.1, !(finite (m.decode o.1)) && (old || fresh)⟩, fl)

/-- One level of the tree: adjacent pairs added. -/
def redLevel (ty : BitVec 2) (rm : Bool) : List RedNode → List RedNode × Word
  | x :: y :: t =>
    let r := redAdd ty rm x y
    let q := redLevel ty rm t
    (r.1 :: q.1, r.2 ||| q.2)
  | l => (l, 0)

/-- `n` levels of the tree. -/
def redTree (ty : BitVec 2) (rm : Bool) : Nat → List RedNode → Word → List RedNode × Word
  | 0, l, w => (l, w)
  | n + 1, l, w => let r := redLevel ty rm l; redTree ty rm n r.1 (w ||| r.2)

/-- VRED: the sum of the active lanes in lane 0, and zero in every other lane. -/
def execVred (c : CoreId) (f : VecF) (s : State) : Res :=
  vecIssue c f [] [f.va, f.vd] (fun k =>
    let p := predOf k f.pm
    let la := lanesOf f.ty (k.vreg f.va)
    let live := (List.range (laneCount f.ty)).map fun i => if p.getLsbD i then la[i]?.getD 0 else 0
    let seen := if f.ty ≠ 2 && live.any (fun x => (laneFmt f.ty).decode x == .nan) then nsNanIn else 0
    let r := redTree f.ty f.rm (if f.ty = 1 then 6 else 5) (live.map fun x => ⟨x, false⟩) seen
    .one ((k.setV f.vd (BitVec.ofNat 1024 ((r.1.head?.map RedNode.v).getD 0))).flag r.2)) s

end Sys2Proof.Machine
end

