-- ==== Sys2Proof/Machine/Fuses.lean ====
section
/-! DEFINITION. A tile's eFuse opens (R209, R220, R423, R487, R491). -/

namespace Sys2Proof.Machine

open Sys2Proof

/-- The logical tile that a physical one serves (R22), if it does. -/
def servesOf (s : State) (t : PhysTile) : Option TileId :=
  (List.finRange 48).find? fun pt => (s.flt.tileMap[pt.val]).toNat == t.val

/-- The engine falls back to BRINGUP when its last tile leaves service (R491). -/
def tilesGone (s : State) : State :=
  if s.boot.inService = 0 ∧ s.boot.eng ≠ .bringup then setEngine .bringup s else s

/-- The eFuse of a physical tile opens for a cause: the tile is off, and the logical tile that it serves leaves service. -/
def cutTile (t : PhysTile) (cause : Efuse) (s : State) : State :=
  let x := s.tiles[t.val]
  let s1 := s.setTile t { x with st := .off, powered := false, fuse := cause, opens := x.opens ++ [(cause, nowMs s)] }
  match servesOf s t with
  | some pt => noteEngine s1 (unserveTile pt (dropTile pt s1))
  | none => s1

/-- The openings of a tile's eFuse within 24 h for which a test holds (R487). -/
def recentOpens (s : State) (t : PhysTile) (p : Efuse → Bool) : Nat :=
  ((s.tiles[t.val]).opens.filter fun o => p o.1 && decide (nowMs s < o.2 + dayMs)).length

/-- Whether an opening condemns its tile (R487): a short; a second overload or a third over-temperature within 24 h. -/
def fuseCondemns (s : State) (t : PhysTile) (cause : Efuse) : Bool :=
  match cause with
  | .short => true
  | .overload => decide (2 ≤ recentOpens s t (· == .overload))
  | .dieTemp | .memTemp => decide (3 ≤ recentOpens s t fun c => c == .dieTemp || c == .memTemp)
  | .closed | .retired => false

/-- Whether every sensor of a tile reads below 60 °C. -/
def tileCool (t : PhysTile) (x : PTile) : Bool :=
  let below (free : Nat) (rs : List (Option Int)) : Bool := (List.range rs.length).all fun i => decide (readSensor free rs i < 960)
  below t.val x.diodes && below (64 + t.val) (quadList x.layer0.temp) && below (128 + t.val) (quadList x.layer1.temp)

/-- A trip of a powered tile: the shuttles raise the abort, a restoration that waits for its boundary is dropped, and what R487 lays down
follows. -/
def tripTile (t : PhysTile) (cause : Efuse) (code : BitVec 16) (s : State) : State :=
  if !(s.tiles[t.val]).powered then s
  else
    let serving := match servesOf s t with | some pt => inService s pt.val | none => false
    let s0 := cutTile t cause s
    let s1 : State := match servesOf s t with
      | some pt => { s0 with flt := { s0.flt with repairs := s0.flt.repairs.filter fun r => match r with | .restore k _ => k != pt | _ => true } }
      | none => s0
    let s2 := if serving then shuttleAbort code s1 else s1
    let s3 := match servesOf s t with
      | some pt => if fuseCondemns s1 t cause then relocateTile pt s2 else s2
      | none => s2
    tilesGone s3

end Sys2Proof.Machine
end

