-- ==== Sys2Proof/Machine/MemoryHost.lean ====
section
/-! DEFINITION. The stacked-memory layers' temperatures (R218 to R220), the host's accesses through the CXL.mem window (R212, R224,
R389), and the clearing of the host-path and port-die mesh records (R13, R224, R546). -/

namespace Sys2Proof.Machine

open Sys2Proof

/-! ### Layer temperature (R218 to R220, R432, R433) -/

/-- The temperature of a DRAM layer: the hottest of its four sensors. -/
def layerTemp (free : Nat) (q : QuadTemp) : Int :=
  (maxList ((List.range 4).map (readSensor free (quadList q)))).getD 0

/-- A layer with a new reading, in 1/16 °C. -/
def layerSample (free : Nat) (q : QuadTemp) (l : DramLayer) : DramLayer :=
  let t := layerTemp free q
  { l with temp := q, doubled := l.doubled || decide (1360 ≤ t), hot := if 1520 ≤ t then true else if t < 1472 then false else l.hot }

/-- The place of the free temperature of a layer with no sensor left. -/
def layerFree (t : PhysTile) (layer : Fin 2) : Nat := 64 + 64 * layer.val + t.val

/-- A DRAM layer of a tile. -/
def dramLayer (x : PTile) (layer : Fin 2) : DramLayer := if layer = 0 then x.layer0 else x.layer1

/-- A tile with one of its DRAM layers replaced. -/
def withLayer (x : PTile) (layer : Fin 2) (l : DramLayer) : PTile :=
  if layer = 0 then { x with layer0 := l } else { x with layer1 := l }

/-- DRAM_TEMP_SAMPLE: at 105 °C the tile's eFuse opens. -/
def execDramTempSample (t : PhysTile) (layer : Fin 2) (q : QuadTemp) (s : State) : Res :=
  let x := s.tiles[t.val]
  let free := layerFree t layer
  let l := dramLayer x layer
  let s1 := sensorEvents (quadList l.temp) (quadList q) (s.setTile t (withLayer x layer (layerSample free q l)))
  .next (if 1680 ≤ layerTemp free q then tripTile t .memTemp 0x0420 s1 else s1)

/-- REFRESH_RESTORE: the layer has been below 82 °C for 1 s. -/
def execRefreshRestore (t : PhysTile) (layer : Fin 2) (s : State) : Res :=
  let x := s.tiles[t.val]
  let l := dramLayer x layer
  if layerTemp (layerFree t layer) l.temp < 1312 then .next (s.setTile t (withLayer x layer { l with doubled := false }))
  else .next s

/-! ### CXL.mem (R212, R224, R389) -/

/-- An Advisory Non-Fatal Error (R224, R410): its bit in the AER Correctable Error Status register is set, and ERR_COR is sent. -/
def advisoryError (s : State) : State :=
  let s1 : State := { s with host := { s.host with advisoryNf := true } }
  s1.emit .advisoryNonFatal

/-- The first of a kind of record kept with its offset, and each later one counted. DESIGN CHOICE (log entry 46): COUNT becomes 1 with the access
that sets VALID, which R224's "since VALID was set" leaves open. -/
def pathRecord (err off fresh place : Word) : Word × Word :=
  if bitOf err.toNat 31 then (satField err 0 16, off) else (fresh, place)

/-- A host-path read that fails a check. -/
def pathError (h : BitVec 36) (kind : Nat) (s : State) : State :=
  let p := s.host.path
  let r := pathRecord p.err p.off
    (BitVec.ofNat 32 (put 1 31 + put (winCluster h.toNat).val 21 + put kind 20 + 1)) (BitVec.ofNat 32 (h.toNat / 64))
  msix 1 (advisoryError { s with host := { s.host with path := { p with err := r.1, off := r.2 } } })

/-- A CXL.mem write that is dropped. -/
def pathDrop (h : BitVec 36) (kind : Nat) (s : State) : State :=
  let p := s.host.path
  let r := pathRecord p.wdrop p.woff (BitVec.ofNat 32 (put 1 31 + put kind 30 + 1)) (BitVec.ofNat 32 (h.toNat / 64))
  msix 1 (advisoryError { s with host := { s.host with path := { p with wdrop := r.1, woff := r.2 } } })

/-- The unit of a window offset. -/
def unitBase (h : BitVec 36) : Nat := h.toNat / 64 * 64

/-- CXL_MEM_READ: a unit is returned as read. Of one that fails link parity nothing is known but that it is returned as it arrived. -/
def execCxlMemRead (h : BitVec 36) (linkOk : Bool) (s : State) : Res :=
  if !hostUp s then .next s
  else if !s.eng.cfg.window then .fault .unclaimedAddress
  else
    let r := winRead s (unitBase h) 64 s.free
    let data := if linkOk then r.1 else freeBytes r.2 64
    let s1 := ({ s with free := r.2 + if linkOk then 0 else 64 } : State).emit (.readData data)
    .next (if !linkOk then pathError h 1 s1 else if winBad s (unitBase h) 64 then pathError h 0 s1 else s1)

/-- CXL_MEM_WRITE: a poisoned write, or one whose transfer fails link parity, is dropped. -/
def execCxlMemWrite (h : BitVec 36) (data : BitVec 512) (poisoned linkOk : Bool) (s : State) : Res :=
  if !hostUp s then .next s
  else if !s.eng.cfg.window then .fault .unclaimedAddress
  else if poisoned then .next (pathDrop h 0 s)
  else if !linkOk then .next (pathDrop h 1 s)
  else .next (winWrite (unitBase h) (leBytes 64 data.toNat) s)

/-! ### Clearing (R13, R224, R546) -/

/-- VALID, bit 31, cleared with a field of the lowest `n` bits. -/
def clearValid (n : Nat) (w : Word) : Word := BitVec.ofNat 32 (w.toNat % 2147483648 / 2 ^ n * 2 ^ n)

/-- HOST_PATH_ERR_CLEAR: VALID stays set if a failing read coincides. -/
def execHostPathErrClear (again : Bool) (s : State) : Res :=
  if !hostUp s || again then .next s
  else
    let p := s.host.path
    .next { s with host := { s.host with path := { p with err := clearValid 16 p.err } } }

/-- HOST_PATH_WDROP_CLEAR: KIND is cleared with COUNT. -/
def execHostPathWdropClear (again : Bool) (s : State) : Res :=
  if !hostUp s || again then .next s
  else
    let p := s.host.path
    .next { s with host := { s.host with path := { p with wdrop := clearValid 31 p.wdrop } } }

/-- PD_MESH_ERR_CLEAR. -/
def execPdMeshErrClear (d : DieId) (again : Bool) (s : State) : Res :=
  if !hostUp s || again then .next s
  else .next (s.setDie d { s.dies[d.val] with meshErr := clearValid 8 (s.dies[d.val]).meshErr })

end Sys2Proof.Machine
end

