-- ==== Sys2Proof/Machine/Mailbox.lean ====
section
/-! DEFINITION. The mailboxes (R407 to R412), and the commands of the shuttles (R413, R414, R467). -/

namespace Sys2Proof.Machine

open Sys2Proof

/-! ### Directions and domains (R407) -/

/-- Whether the host sends on a mailbox. -/
def hostSends (m : MbxId) : Bool := decide (m.val < 24) || (decide (32 ≤ m.val) && decide (m.val < 44))

/-- The shuttle of a mailbox; `none` for Loupe's. -/
def mbxShuttle (m : MbxId) : Option (Fin 4) :=
  if m.val < 32 then none
  else if m.val < 44 then some ⟨(m.val - 32) / 3 % 4, Nat.mod_lt _ (by decide)⟩
  else some ⟨m.val % 4, Nat.mod_lt _ (by decide)⟩

/-- Whether a mailbox's domain is off. -/
def mbxOff (s : State) (m : MbxId) : Bool :=
  match mbxShuttle m with
  | none => s.host.loupeOff
  | some k => s.host.shuttleOff.getLsbD k.val

/-! ### The host's side (R409 to R412) -/

/-- A refusal: MBX_REJ, the first one in MBX_ERR, and an Advisory Non-Fatal Error (R410, R411). -/
def mbxRefuse (m : MbxId) (code : BitVec 16) (s : State) : State :=
  let s1 := s.setMbx m { s.host.mbx[m.val] with rej := true }
  let h := s1.host
  let err := if bitOf h.mbxErr.toNat 31 then h.mbxErr else BitVec.ofNat 32 (put 1 31 + put m.val 16 + code.toNat)
  advisoryError { s1 with host := { h with mbxErr := err } }

/-- The doorbell of a mailbox's receiver rings. -/
def ringReceiver (m : MbxId) (s : State) : State :=
  let h := s.host
  let b : Word := 1#32 <<< (m.val % 32)
  match mbxShuttle m with
  | none => { s with host := { h with loupeDb := h.loupeDb ||| b } }
  | some k => { s with host := { h with shuttleDb := h.shuttleDb.set k.val (h.shuttleDb[k.val] ||| b) } }

/-- MBX_DATA_WRITE. -/
def execMbxDataWrite (m : MbxId) (v : BitVec 32) (s : State) : Res :=
  let x := s.host.mbx[m.val]
  if !hostUp s || !hostSends m then .next s
  else if mbxOff s m then .next (mbxRefuse m 0x0102 s)
  else if x.full then .next (mbxRefuse m 0x0101 s)
  else .next (ringReceiver m (s.setMbx m { x with data := v, full := true, ackValid := false }))

/-- MBX_DATA_READ: MBX_DATA, or MBX_ACK, of a mailbox whose domain is on; else Completer Abort (R411). -/
def execMbxDataRead (m : MbxId) (ack : Bool) (s : State) : Res :=
  let x := s.host.mbx[m.val]
  if !hostUp s then .next s
  else if mbxOff s m then
    let h := s.host
    let err := if bitOf h.mbxErr.toNat 31 then h.mbxErr else BitVec.ofNat 32 (put 1 31 + put m.val 16 + 0x0102)
    .next (({ s with host := { h with mbxErr := err } } : State).emit .completerAbort)
  else .next (s.emit (.readData (leBytes 4 (if ack then put (b2n x.ackValid) 31 + x.ackCode.toNat else x.data.toNat))))

/-- The result of a Loupe command is written once RESULT is empty (R508). -/
def postResult (s : State) : State :=
  match s.mgmt.result with
  | none => s
  | some (rs, w) =>
    if s.host.mbx[25].full || s.host.loupeOff then s
    else
      let res := (List.finRange 6).foldl (fun s (i : Fin 6) => mbxSend ⟨26 + i.val, by omega⟩ (rs.getD i.val 0) s)
        { s with mgmt := { s.mgmt with result := none } }
      mbxPut 25 w res

/-- MBX_FULL_CLEAR: the host takes the word of an inbound mailbox, and a sender that waits for that goes on. -/
def execMbxFullClear (m : MbxId) (s : State) : Res :=
  if !hostUp s || hostSends m then .next s
  else .next (postResult (postEvents (s.setMbx m { s.host.mbx[m.val] with full := false })))

/-- MBX_REJ_CLEAR: MBX_REJ stays set if a refusal coincides. -/
def execMbxRejClear (m : MbxId) (again : Bool) (s : State) : Res :=
  if !hostUp s || again then .next s else .next (s.setMbx m { s.host.mbx[m.val] with rej := false })

/-! ### The module's side (R409, R411) -/

/-- Whether a mailbox holds a word from the host that its receiver can take. -/
def wordWaits (s : State) (m : MbxId) : Bool := hostSends m && (s.host.mbx[m.val]).full && !mbxOff s m

/-- Whether a command is pending at a shuttle. -/
def shuttleBusy (s : State) : Bool := s.host.shuttleCmd.isSome || !s.eng.abortReq.isEmpty

/-- Whether the word of a mailbox is a command that is pending: it is taken when it is answered (R413). -/
def wordPending (s : State) (m : MbxId) : Bool := s.host.shuttleCmd == some m || s.eng.abortReq.contains m

/-- The command of a word. -/
def wordCmd (s : State) (m : MbxId) : Nat := bits (s.host.mbx[m.val]).data.toNat 31 24

/-- The code with which a word is taken that is no command of its receiver (R413, R507, R508); `none` for a command, whose own meaning
takes it. A word of an argument is taken with the code given. -/
def takeCode (s : State) (m : MbxId) (code : BitVec 16) : Option (BitVec 16) :=
  let c := wordCmd s m
  if 32 ≤ m.val then
    if shuttleBusy s && c != 5 then some 0x0104 else if 1 ≤ c ∧ c ≤ 5 then none else some 0x0103
  else if m.val = 0 then
    if s.mgmt.result.isSome then some 0x0104 else if 1 ≤ c ∧ c ≤ 5 then none else some 0x0103
  else if 16 ≤ m.val then some 0x0103
  else some code

/-- MAILBOX_TAKE. -/
def execMailboxTake (m : MbxId) (code : BitVec 16) (s : State) : Res :=
  if !wordWaits s m || wordPending s m then .next s
  else match takeCode s m code with
    | some c => .next (takeWord m c s)
    | none => .next s

/-- MAILBOX_POST: the module writes an inbound mailbox. -/
def execMailboxPost (m : MbxId) (v : BitVec 32) (s : State) : Res :=
  if hostSends m || mbxOff s m then .next s else .next (mbxSend m v s)

/-- Whether two mailboxes lie in one domain. -/
def sameDomain (a b : MbxId) : Bool := mbxShuttle a == mbxShuttle b

/-- A word that is still FULL when its domain turns off is discarded (R411). -/
def discardWord (m : MbxId) (s : State) : State :=
  let x := s.host.mbx[m.val]
  if !hostSends m || !x.full then s
  else
    let s1 := ringBell (m.val % 32) (s.setMbx m { x with full := false, ackValid := true, ackCode := 0x0102 })
    let e := s1.eng
    { s1 with
      host := { s1.host with shuttleCmd := if s1.host.shuttleCmd = some m then none else s1.host.shuttleCmd },
      eng := { e with
        abortReq := e.abortReq.filter fun y => y != m,
        drains := { e.drains with cmdMbx := if e.drains.cmdMbx = some m then none else e.drains.cmdMbx } } }

/-- The domain of a mailbox turns off. -/
def domainOff (m : MbxId) (s : State) : State :=
  let s1 := ((List.finRange 48).filter (sameDomain m)).foldl (fun s k => discardWord k s) s
  let h := s1.host
  match mbxShuttle m with
  | none => { s1 with host := { h with loupeOff := true }, mgmt := { s1.mgmt with result := none } }
  | some k => { s1 with host := { h with shuttleOff := h.shuttleOff ||| (1#4 <<< k.val) } }

/-- MAILBOX_DOMAIN_OFF. -/
def execMailboxDomainOff (m : MbxId) (s : State) : Res := if mbxOff s m then .next s else .next (domainOff m s)

/-! ### The commands of the shuttles (R413) -/

/-- A word to a shuttle is handled: what is no command is taken with its code, and the command of a number is run. -/
def shuttleWord (m : MbxId) (cmd : Nat) (run : Nat → State → State) (s : State) : State :=
  if m.val < 32 ∨ !wordWaits s m ∨ wordPending s m then s
  else match takeCode s m 0 with
    | some c => takeWord m c s
    | none => if wordCmd s m = cmd then run (bits (s.host.mbx[m.val]).data.toNat 23 0) s else s

/-- PING. -/
def execPing (m : MbxId) (s : State) : Res := .next (shuttleWord m 1 (fun _ s => takeWord m 0 s) s)

/-- A queue flushes for QUEUE_RESET, which is answered once it is DISABLED. -/
def resetQueue (m : MbxId) (arg : Nat) (s : State) : State :=
  let q : QueueId := ⟨arg % 64, Nat.mod_lt _ (by decide)⟩
  let x := s.host.queues[q.val]
  if x.st = .disabled then takeWord m 0 s
  else
    let s1 : State := { s with host := { s.host with shuttleCmd := some m } }
    flushQueue q (s1.setQueue q { x with resetBy := some m })

/-- QUEUE_RESET. -/
def execQueueReset (m : MbxId) (s : State) : Res := .next (shuttleWord m 2 (resetQueue m) s)

/-- DRAIN begins, and waits for its boundary. -/
def beginDrain (m : MbxId) (s : State) : State :=
  drainBegin (fun d => { d with cmd := true, cmdMbx := some m }) { s with host := { s.host with shuttleCmd := some m } }

/-- DRAIN. -/
def execDrain (m : MbxId) (s : State) : Res := .next (shuttleWord m 3 (fun _ s => beginDrain m s) s)

/-- RESUME: the drains of commands, of the button and of Redfish end; the panel counts its codes anew (R467, R504). -/
def resumeAll (s : State) : State :=
  let s1 := drainEnd (fun d => { d with cmd := false, button := false, redfish := false }) s
  { s1 with mgmt := { s1.mgmt with panelCount := 0 } }

/-- RESUME. -/
def execResume (m : MbxId) (s : State) : Res := .next (shuttleWord m 4 (fun _ s => takeWord m 0 (resumeAll s)) s)

/-- ABORT_PASS (R414): a layer pass that runs is aborted with PASS_ABORTED, and the command waits until it is CLOSED; a pass or a slice that
stands between ends at once. -/
def abortPass (m : MbxId) (s : State) : State :=
  match s.eng.lp with
  | some lp =>
    if lp.started then shuttleAbort 0x020D { s with eng := { s.eng with abortReq := s.eng.abortReq ++ [m] } }
    else
      let s1 := match lp.kind, lp.inst with
        | .coll, some id => raiseInst id 0x020D 1 (s.setLp none)
        | _, _ => endWork 0x020D s
      takeWord m 0 s1
  | none =>
    match s.eng.pass with
    | some p => takeWord m 0 (if p.todo.isEmpty && s.eng.parked.isNone then s else endPass 0x020D s)
    | none => takeWord m 0 s

/-- ABORT_PASS. -/
def execAbortPass (m : MbxId) (s : State) : Res := .next (shuttleWord m 5 (fun _ s => abortPass m s) s)

end Sys2Proof.Machine
end

