-- ==== Sys2Proof/Machine/Startup.lean ====
section
/-! DEFINITION. Cold start and the steps of R449, permission (R450), waves and calibration (R455 to R460), power-down (R473), and what a
sled pull begins (R361, R492). -/

namespace Sys2Proof.Machine

open Sys2Proof

/-! ### What loses power -/

/-- A port of a module whose host die and port dies are off: its cage keeps what is in it. -/
def keepPort (x : Port) : Port := { present := x.present, passive := x.passive }

/-- A physical tile that is powered off. -/
def tileOff (x : PTile) : PTile :=
  { x with st := (if x.st = .retired ∨ x.st = .spare then x.st else .off), powered := false, test := 0, current := 0, voltage := 0 }

/-- The power stages stop: tiles, port dies and host die are off, with everything that they hold (R453, R473). -/
def engineOff (s : State) : State :=
  let s0 := setEngine .bringup s
  let b := s0.boot
  let p := s0.pwr
  { s0 with
    cores := [], clusters := [], tat := {}, dies := Vector.replicate 8 {}, ports := s0.ports.map keepPort,
    eng := { cfg := s0.eng.cfg }, wts := {}, red := {}, coll := {}, host := { hostDie := s0.host.hostDie },
    tiles := s0.tiles.map tileOff,
    pwr := { p with stages := p.stages.map fun x => { x with inService := false }, ballast := 0, nows := [], arms := [], lastResort := false },
    boot := { b with
      inService := 0, entering := 0, extraWave := [], calibrated := false, restoring := false, powerDown := 0, restart := false,
      wave := 0, wavesEnded := 0, act := {} },
    mgmt := { s0.mgmt with result := none, permit := false }, wires := [] }

/-- Loupe's clock now. -/
def clockNow (s : State) : Option Nat := s.mgmt.clock.map fun c => c + (nowMs s - s.mgmt.clockAt) / 1000

/-- The management store of a cartridge, as Loupe takes it: of the events the 4,096 latest, and up to 16 subscriptions (R503). -/
def takeStore (x : Store) (m : Mgmt) : Mgmt :=
  let log := x.log.take 4096
  { m with
    cas := x.cas, crl := x.crl, lastTime := x.lastTime, subs := (x.subs.take 16).map fun n => { id := n },
    log := log, events := m.events + log.length }

/-- The module with nothing running, before Loupe boots: what the cartridge, the firmware store and OTP hold stays, and so does what is
fitted; with no cartridge there is no management store. The clock stays only where standby power has stayed (R500). -/
def coldState (standby : Bool) (s : State) : State :=
  let e := engineOff s
  let m := e.mgmt
  let b := e.boot
  let kept : Mgmt := {
    keyIds := m.keyIds, opRevoked := m.opRevoked, fwRevoked := m.fwRevoked, ctrLoupe := m.ctrLoupe, ctrShuttle := m.ctrShuttle,
    ctrCore := m.ctrCore, ctrObject := m.ctrObject, clock := (if standby then clockNow e else none), lastTime := m.lastTime,
    tagChassis := m.tagChassis, tagManager := m.tagManager, cas := m.cas, crl := m.crl, csrs := m.csrs, tlsCert := m.tlsCert,
    subs := m.subs.map fun x => { x with failed := [] }, events := m.events, log := m.log }
  { e with
    flt := {}, eng := {},
    tiles := e.tiles.map fun x => { x with opens := [], st := .off, pairs := [] },
    pwr := {
      feeds := e.pwr.feeds, fans := e.pwr.fans.map fun x => { fitted := x.fitted, st := if x.st = .failed then .failed else .absent },
      stages := e.pwr.stages.map fun x => { x with inService := false } },
    boot := {
      standby := standby, cart := b.cart, fwInForce := b.fwInForce, fwOther := b.fwOther, fwPending := b.fwPending,
      bootCount := b.bootCount, earlyBreak := b.leverOpen, leverOpen := b.leverOpen },
    mgmt := if b.cart.isSome then kept else takeStore {} kept }

/-! ### Steps 2 to 4 of R449 -/

/-- The signature block of a bundle. -/
def bundleBlock (b : Bundle) : List Byte := b.bytes.drop (b.bytes.length - 256)

/-- The bytes of a bundle that its signature covers. -/
def bundleBody (b : Bundle) : List Byte := b.bytes.take (b.bytes.length - 256)

/-- Whether the ROM boots a slot's Loupe component (R512, R514): the checks 1 to 3 pass, and its SEC_VERSION is at or above LOUPE. The block
covers the whole bundle, so that checks 1 to 3 are those of the shuttle and core components too, which Loupe makes before it releases
them. -/
def romOk (s : State) (x : Slot) : Bool :=
  let block := bundleBlock x.bundle
  (if x.factory then !s.mgmt.fwRevoked.getLsbD (fieldAt block 7 1 % 4) else (sigBody s 3 (bundleBody x.bundle) block).isNone)
    && decide (s.mgmt.ctrLoupe ≤ x.secVersion)

/-- The bundle that the ROM boots: that in force, or else the other slot's, which is in force from then on; none where both fail (R514). -/
def romBoot (s : State) : Option State :=
  let b := s.boot
  let ok (x : Option Slot) : Bool := match x with | some y => romOk s y | none => false
  if ok b.fwInForce then some s
  else if ok b.fwOther then some { s with boot := { b with fwInForce := b.fwOther, fwOther := b.fwInForce, fwPending := false } }
  else none

/-- Whether Loupe can read a cartridge: its density is at least 2 MiB, and its addresses have 3 or 4 bytes (R461). -/
def cartReads (c : Cartridge) : Bool := c.sfdp.any fun p => decide (2097152 ≤ p.density) && (p.addrBytes == 3 || p.addrBytes == 4)

/-- Where a bank begins in the flash (R461). -/
def bankStart (c : Cartridge) (b : Bool) : Nat := if b then (match c.sfdp with | some p => p.density / 2 | none => 0) else 0

/-- The bank that Loupe puts in force at step 3: `false` for bank 0 (R464). -/
def chooseBank (c : Cartridge) : Option Bool :=
  match cartReads c && bankValid c.bank0, cartReads c && bankValid c.bank1 with
  | true, true => some (seqNewer (bankSeqOf c.bank1) (bankSeqOf c.bank0))
  | true, false => some false
  | false, true => some true
  | false, false => none

def bankAt (c : Cartridge) (b : Bool) : List Byte := if b then c.bank1 else c.bank0

/-- The bytes 0 to SIZE − 1 of a bank. -/
def bankBody (bs : List Byte) : List Byte := bs.take (fieldAt bs 6 2)

/-- A bank in force, with its configuration. -/
def forceBank (n : Bool) (bs : List Byte) (s : State) : State :=
  { s with
    boot := { s.boot with bank := some n, bankBytes := bankBody bs, bankSeq := bankSeqOf bs, bankFormat := bankFormatOf bs },
    eng := { s.eng with cfg := bankCfg bs },
    pwr := { s.pwr with capMw := (bankCfg bs).powerCapW * 1000 } }

/-- The repair record taken (R494): a tile that no longer serves its logical PT, and a failed darning tile, are retired. -/
def takeRecord (r : RepairRecord) (s : State) : State :=
  let map : Vector (BitVec 8) 48 := Vector.ofFn fun (i : Fin 48) => r.tileMap.getD i.val (BitVec.ofNat 8 i.val)
  let darn : Vector (BitVec 2) 2 := Vector.ofFn fun (i : Fin 2) => (r.darn.getD i.val 0).setWidth 2
  let tile (i : Fin 50) : PTile :=
    let x := s.tiles[i.val]
    let rows : Vector (BitVec 32) 16 := Vector.ofFn fun (k : Fin 16) => r.cores.getD (i.val * 16 + k.val) (BitVec.allOnes 32)
    let gone := if h : i.val < 48 then map[i.val] != BitVec.ofNat 8 i.val else darn[i.val - 48]'(by omega) == 2
    let spare := if h : i.val < 48 then false else darn[i.val - 48]'(by omega) == 0
    { x with rows := rows, st := (if gone then .retired else if spare then .spare else .off), fuse := (if gone then .retired else x.fuse) }
  { s with
    flt := { s.flt with tileMap := map, darn := darn, edge := r.edge, recSeq := r.seq },
    tiles := Vector.ofFn tile }

/-- With no valid record every logical PT starts on its own tile. -/
def freshRecord (s : State) : State :=
  { s with tiles := Vector.ofFn fun (i : Fin 50) =>
      { s.tiles[i.val] with rows := Vector.replicate 16 (BitVec.allOnes 32), fuse := .closed, st := (if i.val < 48 then .off else .spare) } }

/-- Step 3: Loupe reads the cartridge once. -/
def readCartridge (s : State) : State :=
  match s.boot.cart with
  | none => cfgCode 0x0B01 (freshRecord s)
  | some c =>
    let s1 := match (if cartReads c then newerRecord c else none) with | some r => takeRecord r s | none => freshRecord s
    match chooseBank c with
    | none => cfgCode 0x0B01 s1
    | some n =>
      let s2 := forceBank n (bankAt c n) s1
      if cartReads c && bankValid (bankAt c !n) then s2 else cfgCode 0x0B01 s2

/-- Loupe runs: steps 3 and 4, and the module waits for permission. Management-only service needs a cartridge fitted, so that with none
the module waits at step 3 (R452; DESIGN CHOICE, log entry 88). -/
def loupeRuns (s : State) : State :=
  let s1 := readCartridge s
  if s1.boot.cart.isNone then { s1 with boot := { s1.boot with phase := 2 } }
  else measure { s1 with
    boot := { s1.boot with phase := 4, recordDue := false },
    pwr := { s1.pwr with
      fanDuty := 60, fans := s1.pwr.fans.map fun x => if x.fitted && x.st == .absent then { x with st := .running } else x } }

/-- Step 2: the ROM boots Loupe, or stays in recovery (R514). -/
def loupeBoot (s : State) : State :=
  let b := s.boot
  let s1 : State := { s with boot := { b with phase := 1, bootCount := (b.bootCount + 1) % 4294967296 } }
  match romBoot s1 with
  | some s2 => loupeRuns s2
  | none => secCode 0x0C04 { s1 with boot := { s1.boot with recovery := true } }

/-- A cold start (R448). -/
def coldStart (s : State) : State := loupeBoot (coldState true s)

/-- Whether Loupe offers its services. -/
def loupeUp (s : State) : Bool :=
  s.boot.standby && decide (4 ≤ s.boot.phase) && !s.boot.recovery && !s.boot.loupeDown && !s.host.loupeOff

/-- The outcome of a Redfish action. -/
def redfish (ok : Bool) (s : State) : State := s.emit (.redfish ok)

/-- STANDBY_POWER_APPLIED. -/
def execStandbyPowerApplied (s : State) : Res := if s.boot.standby then .next s else .next (coldStart s)

/-! ### Waves (R455 to R457) -/

/-- The physical tiles that the wave is of. -/
def waveTiles (s : State) : List PhysTile :=
  let own := if s.boot.wave < 6 then
      (List.finRange 48).filterMap fun pt => if pt.val / 8 = s.boot.wave ∧ !tileUnserved s pt then some (physOf s pt) else none
    else []
  (own ++ s.boot.extraWave).eraseDups

/-- Those of them that have been powered for it, and are tested. -/
def waveOf (s : State) : List PhysTile := (waveTiles s).filter fun t => (s.tiles[t.val]).test == 1

/-- Whether Loupe may close a tile's eFuse now (R487): one opened by a short or by Loupe never, one opened by an overload once 10 s have
passed, one opened by heat once every sensor reads below 60 °C, and that of a condemned tile not at all. -/
def mayClose (s : State) (t : PhysTile) : Bool :=
  let x := s.tiles[t.val]
  let since := ((x.opens.getLast?).map fun o => o.2).getD 0
  x.st != .retired && !((servesOf s t).any fun pt => tilePending s pt && physOf s pt == t) && match x.fuse with
    | .closed => true
    | .overload => decide (since + 10000 ≤ nowMs s)
    | .dieTemp | .memTemp => tileCool t x
    | .short | .retired => false

/-- A tile powered for its wave. One whose eFuse may not be closed stays off, and takes no part in the wave (R487). Its stacked memory is
written with zeros, or, where bring-up has resumed, waits for its restoration (R210, R491). -/
def powerTile (t : PhysTile) (s : State) : State :=
  let x := s.tiles[t.val]
  if !mayClose s t then s
  else
    let s1 := s.setTile t { x with powered := true, fuse := .closed, st := .selftest, test := 1 }
    match servesOf s t with
    | some pt => if s.boot.restoring then s1
      else (tileClusters pt).foldl (fun s ci => s.setCluster ci { s.cluster ci with mem := {} }) s1
    | none => s1

/-- The tiles of the wave are powered. -/
def powerWave (s : State) : State := (waveTiles s).foldl (fun s t => powerTile t s) s

/-- Step 7 begins once the compute set is there, while permission stands (R450, R452); where a tile already serves, BRINGUP ends. -/
def bringUp (s : State) : State :=
  if s.boot.phase = 5 ∧ computeSet s ∧ s.mgmt.permit ∧ s.boot.powerDown = 0 then powerWave { s with boot := { s.boot with phase := 6, wave := 0, wavesEnded := 0 } }
  else tileServed s

/-- The failed physical columns of the rows in which a test has found a second failure (R489). -/
def pairsAfter (x : PTile) : List (Fin 16 × Fin 8 × Fin 9) → Tab (BitVec 9)
  | [] => x.pairs
  | (k, r, c) :: t =>
    let key := 8 * k.val + r.val
    let old := failedCols x k.val r.val (bits (x.rows[k.val]).toNat (4 * r.val + 3) (4 * r.val))
    tabSet (pairsAfter x t) key (tabGet old (pairsAfter x t) key ||| (1#9 <<< c.val))

/-- The rows of a tile with the failures that a test has found, and whether each row absorbs its own (R24, R494, R495). -/
def rowsAfter (rows : Vector (BitVec 32) 16) : List (Fin 16 × Fin 8 × Fin 9) → Vector (BitVec 32) 16 × Bool
  | [] => (rows, true)
  | (k, r, c) :: t =>
    let w := rows[k.val].toNat
    let old := bits w (4 * r.val + 3) (4 * r.val)
    let new := if old = 15 then c.val else if old = c.val ∨ old = 14 then old else 14
    let rest := rowsAfter (rows.set k.val (BitVec.ofNat 32 (w - put old (4 * r.val) + put new (4 * r.val)))) t
    (rest.1, rest.2 && (old == 15 || old == c.val || old == 14))

/-- A wave's result is a Redfish event (R503). -/
def waveEvent (ok : Bool) (s : State) : State := logNamed (if ok then "WaveResult: passed" else "WaveResult: failed") s

/-- A tile that passes: it enters service at the next pass boundary. -/
def wavePass (t : PhysTile) (s : State) : State :=
  let s1 := s.setTile t { s.tiles[t.val] with test := 2 }
  match servesOf s t with
  | some pt => waveEvent true { s1 with boot := { s1.boot with entering := s1.boot.entering ||| (1#48 <<< pt.val) } }
  | none => waveEvent true s1

/-- A tile that fails its wave (R456): it is retired, and its logical PT moves to a darning tile, which is tested next, or is unserved. -/
def waveFail (t : PhysTile) (s : State) : State :=
  let s1 := retireTile t (s.setTile t { s.tiles[t.val] with test := 3 })
  let s2 := advisory 0x0B05 (bootCode 0x0B05 (waveEvent false s1))
  match servesOf s t with
  | none => s2
  | some pt =>
    let b := s2.boot
    let s3 := noteEngine s2 (unserveTile pt { s2 with boot := { b with failedWave := b.failedWave ||| (1#48 <<< pt.val) } })
    match darnFor s3 pt with
    | some d =>
      writeRecord { s3 with
        flt := { s3.flt with tileMap := s3.flt.tileMap.set pt.val (BitVec.ofNat 8 (48 + d.val)), darn := s3.flt.darn.set d.val 1 },
        boot := { s3.boot with extraWave := s3.boot.extraWave ++ [darnTile d] } }
    | none => writeRecord { s3 with flt := { s3.flt with tileMap := s3.flt.tileMap.set pt.val 0xFF } }

/-- The result of one tile of a wave. The failures that its test finds are added to the record. -/
def waveTile (r : TileTest) (s : State) : State :=
  let x := s.tiles[r.t.val]
  let a := rowsAfter x.rows r.failed
  let s1 := s.setTile r.t { x with rows := a.1, pairs := pairsAfter x r.failed }
  let s2 := if a.1 = x.rows then s1 else writeRecord s1
  if r.othersOk && a.2 && x.powered then wavePass r.t s2 else waveFail r.t s2

/-- What follows a wave: the next one, with the darning tiles that it tests, or full calibration. The waves have rebuilt a record of which the
cartridge holds no valid copy (R494). A power-down under way lets no further wave begin. -/
def nextWave (s : State) : State :=
  let b := s.boot
  let s1 : State := { s with boot := { b with wave := b.wave + 1, wavesEnded := min 7 (b.wavesEnded + 1) } }
  if b.powerDown ≠ 0 then s1
  else if s1.boot.wave < 6 ∨ !s1.boot.extraWave.isEmpty then powerWave s1
  else
    let s2 : State := { s1 with boot := { s1.boot with phase := 7 } }
    if s1.boot.cart.any fun c => (newerRecord c).isNone then writeRecord s2 else s2

/-- The result of a tile that is tested for its restoration (R487): it may enter service, or its tile is condemned. -/
def restoreTile (r : TileTest) (s : State) : State :=
  match servesOf s r.t with
  | none => s
  | some pt =>
    if !s.flt.repairs.contains (.restore pt false) then s
    else
      let x := s.tiles[r.t.val]
      let a := rowsAfter x.rows r.failed
      let rest := s.flt.repairs.filter (· != .restore pt false)
      let ok := r.othersOk && a.2 && x.powered
      let s1 := s.setTile r.t { x with rows := a.1, pairs := pairsAfter x r.failed, test := if ok then 2 else 3 }
      let s2 := if a.1 = x.rows then s1 else writeRecord s1
      if ok then { s2 with flt := { s2.flt with repairs := rest ++ [.restore pt true] } }
      else relocateTile pt { s2 with flt := { s2.flt with repairs := rest } }

/-- WAVE_COMPLETE, with a result for each tile of the wave, or for tiles that are tested as a wave for their restoration. -/
def execWaveComplete (r : List TileTest) (s0 : State) : Res :=
  let s := r.foldl (fun s x => restoreTile x s) s0
  let ts := waveOf s
  let rs := ts.filterMap fun t => r.find? fun x => x.t == t
  if s.boot.phase ≠ 6 ∨ rs.length ≠ ts.length then .next s
  else
    let s1 := rs.foldl (fun s x => waveTile x s) { s with boot := { s.boot with extraWave := [] } }
    let s2 := nextWave s1
    .next (if atBoundary s2 then enterTiles s2 else s2)

/-! ### Full calibration (R454, R456, R460, R490) -/

/-- Full service: the caps are lifted, and each port die widens its ports one at a time. -/
def calibrated (s : State) : State :=
  let ports := s.ports.map fun x => { x with capped := false, widenDue := (x.st == .active || x.st == .retrain || x.st == .negotiate) && x.link.lanes == 4 }
  let s1 : State := { s with ports := ports, boot := { s.boot with phase := 8, calibrated := true, restoring := s.boot.restoring && s.boot.entering != 0 } }
  let s2 := (List.finRange 8).foldl (fun s d => widenNext d 4 s) s1
  if s2.boot.eng = .reduced then setEngine (if anyUnserved s2 then .degraded else .full) s2 else s2

/-- CALIBRATION_COMPLETE; a failure is that of the tile's wave, and a darning tile that takes its place runs as one more wave. -/
def execCalibrationComplete (failed : Option TileId) (s : State) : Res :=
  if s.boot.phase ≠ 7 ∨ s.boot.powerDown ≠ 0 then .next s
  else match failed with
    | none => .next (calibrated s)
    | some pt =>
      if tileUnserved s pt then .next s
      else
        let s1 := tilesGone (waveFail (physOf s pt) (dropTile pt s))
        .next (if s1.boot.extraWave.isEmpty then s1 else powerWave { s1 with boot := { s1.boot with phase := 6, wave := 6 } })

/-! ### Power-down (R448, R450, R473) -/

/-- The stages have stopped: the module stands by, with SAFE on, and waits for permission, or starts anew from step 2. -/
def standBy (s : State) : State :=
  let s1 := engineOff s
  if s.boot.restart then coldStart s1
  else { s1 with boot := { s1.boot with phase := min 4 s1.boot.phase, granted := none }, mgmt := { s1.mgmt with safe := true } }

/-- Orderly power-down begins: a drain that nothing resumes, and BRINGUP. -/
def powerDown (restart : Bool) (s : State) : State :=
  let b := s.boot
  let s1 : State := { s with boot := { b with restart := b.restart || restart }, mgmt := { s.mgmt with permit := false } }
  if b.phase < 5 then (if restart then coldStart s1 else s1)
  else if b.powerDown ≠ 0 then s1
  else
    let s2 := drainBegin (fun d => { d with power := true }) (setEngine .bringup s1)
    { s2 with boot := { s2.boot with powerDown := 8 } }

/-- A wave's tiles are powered off. -/
def dropWave (k : Nat) (s : State) : State :=
  noteEngine s ((List.finRange 48).foldl (fun s pt =>
    if pt.val / 8 ≠ k ∨ tileUnserved s pt then s
    else
      let t := physOf s pt
      (unserveTile pt (dropTile pt s)).setTile t (tileOff s.tiles[t.val])) s)

/-- What the tiles of a wave draw from their eFuses, in mW: the current in units of 0.1 A by the output in mV. -/
def wavePower (s : State) (k : Nat) : Nat :=
  (List.finRange 48).foldl (fun n pt =>
    if pt.val / 8 ≠ k ∨ tileUnserved s pt then n
    else let x := s.tiles[(physOf s pt).val]; n + x.current * x.voltage / 10) 0

/-- Whether the floor lies below the load that would remain without a wave (R473). -/
def waveMayGo (s : State) (k : Nat) : Bool := decide (effFloor s < s.pwr.p1 * 1000 - wavePower s k)

/-- Whether every port has left. -/
def portsLeft (s : State) : Bool := s.ports.toList.all fun x => x.st != .active && x.st != .retrain && x.st != .leaving

/-- A port leaves in order for the power-down, or goes DARK. -/
def leaveForOff (p : PortId) (s : State) : State :=
  if (s.ports[p.val]).st = .active ∨ (s.ports[p.val]).st = .retrain then enterLeaving p s
  else if (s.ports[p.val]).st = .leaving then s
  else goDark p s

/-- POWER_DOWN_WAVE: after the drain every port leaves; once they have, the waves go off in reverse order, each when the floor allows, and the
stages stop after the last. -/
def execPowerDownWave (s : State) : Res :=
  let n := s.boot.powerDown
  if n = 0 ∨ (n = 8 ∧ !drainReached s) then .next s
  else if n = 8 then
    let s1 := (List.finRange 32).foldl (fun s p => leaveForOff p s) (reportDrained s)
    .next { s1 with boot := { s1.boot with powerDown := 7 } }
  else if !portsLeft s || !waveMayGo s (n - 2) then .next s
  else
    let s1 := dropWave (n - 2) s
    if n ≤ 2 then .next (standBy s1) else .next { s1 with boot := { s1.boot with powerDown := n - 1 } }

/-! ### Permission (R450) and PERST# (R531, R532) -/

/-- Whether PERST# holds the link in reset: on either connector, but HOST1 is ignored with CXL_WIDTH = 1. -/
def linkHeld (s : State) : Bool := s.host.perst0 || (s.host.perst1 && s.eng.cfg.cxlWidth != 1)

/-- Whether the host die is up: from step 5 of R449 on. -/
def dieUp (s : State) : Bool := s.host.hostDie && decide (5 ≤ s.boot.phase)

/-- A conventional or hot reset (R390): every queue flushes, no ABI is selected, every mailbox is as at reset, and no command of a shuttle
waits for an answer. The link comes up unless PERST# holds it in reset. -/
def resetHost (s : State) : State :=
  let s1 := (List.finRange 64).foldl (fun s q => flushQueue q s) s
  let e := s1.eng
  let h := s1.host
  { s1 with
    eng := { e with abortReq := [], drains := { e.drains with cmdMbx := none } },
    host := { h with
      linkUp := !linkHeld s1, abi := 0, mbx := Vector.replicate 48 {}, shuttleCmd := none,
      queues := h.queues.map fun x => { x with resetBy := none } } }

/-- Whether PRSNT# is driven low on the connectors: from step 6 of R449. -/
def prsntLow (s : State) : Bool := s.host.hostDie && decide (5 ≤ s.boot.phase)

/-- What Loupe answers on the SMBus of a connector: read-only FRU data at one address. -/
def smbusRead (addr : Nat) : Option (List Byte) := if addr = 0x50 then some Config.fru else none

/-- GRANT_PERMISSION: step 6 begins where a bank is in force. A grant that stands already changes nothing. -/
def execGrantPermission (_mgr : Fin 2) (s : State) : Res :=
  if !loupeUp s then .next s
  else if s.mgmt.permit then .next (redfish true s)
  else
    let s1 := redfish true { s with
      mgmt := { s.mgmt with permit := true, safe := false }, boot := { s.boot with granted := some (nowMs s) } }
    if s1.boot.phase ≠ 4 ∨ s1.boot.bank.isNone ∨ s1.boot.earlyBreak then .next s1
    else
      let p := s1.pwr
      let s2 : State := { s1 with
        boot := { s1.boot with phase := 5, eng := .bringup },
        host := { s1.host with linkUp := s1.host.hostDie && !linkHeld s1 },
        pwr := { p with stages := p.stages.map fun x => { x with inService := x.present && !x.fault } } }
      .next (bringUp ((List.finRange 32).foldl (fun s q => startPort q s) (msix 0 (logNamed "EngineStateChanged" s2))))

/-- REVOKE_PERMISSION. -/
def execRevokePermission (_mgr : Fin 2) (s : State) : Res :=
  if !loupeUp s then .next s else .next (redfish true (if s.mgmt.permit then powerDown false s else s))

/-- COLD_RESTART. -/
def execColdRestart (s : State) : Res := if !loupeUp s then .next s else .next (redfish true (powerDown true s))

/-- POWER_OFF. -/
def execPowerOff (s : State) : Res := if !loupeUp s then .next s else .next (redfish true (powerDown false s))

/-- RAMP_EXCEEDED is recorded (R431, R445). -/
def rampExceeded (s : State) : State :=
  advisory 0x0A06 (powerCode 0x0A06 { s with pwr := { s.pwr with rampEvents := incW s.pwr.rampEvents } })

/-- FORCE_OFF: no drain, and no ramp of the floor. -/
def execForceOff (s : State) : Res :=
  if !loupeUp s then .next s
  else if s.boot.phase < 5 then .next (redfish true { s with mgmt := { s.mgmt with permit := false } })
  else
    let leave (s : State) (p : PortId) : State :=
      if (s.ports[p.val]).st = .active ∨ (s.ports[p.val]).st = .retrain then finishLeave p s else s
    let s1 := (List.finRange 32).foldl leave (rampExceeded s)
    .next (redfish true (standBy { s1 with boot := { s1.boot with restart := false } }))

/-! ### Drains by Redfish (R467) -/

/-- DRAIN_ACTION. -/
def execDrainAction (s : State) : Res :=
  if !loupeUp s then .next s else .next (redfish true (drainBegin (fun d => { d with redfish := true }) s))

/-- RESUME_ACTION. -/
def execResumeAction (s : State) : Res := if !loupeUp s then .next s else .next (redfish true (resumeAll s))

/-! ### A sled pull, and the loss of both feeds (R361, R421, R492) -/

/-- Every undecided instance is aborted with MEMBER_REMOVED; where this engine leads, DISPOSE "end" with MEMBER_REMOVED goes to every member
at once, whatever caused an abort before (R361). -/
def leaveInsts (s : State) : State :=
  s.coll.insts.foldl (fun s x => match instAt s x.id with
    | none => s
    | some k =>
      if !k.undecided then s
      else if k.me ≠ 0 then raiseInst k.id 0x0804 1 s
      else
        let s1 := if k.lead = .aborted then collAll k 5 1 0x0804 s else leaderAbort k 0x0804 1 s
        match instAt s1 k.id with
        | some k1 => if k1.lead = .aborted then leaderEnd k1 (some 0x0804) s1 else s1
        | none => s1) s

/-- What the shuttles and the ports do when the module is about to lose its power: the layer pass is aborted, nothing more is admitted, and
the frames of R361 are sent. -/
def pullSled (s : State) : State :=
  let s1 : State := { s with boot := { s.boot with earlyBreak := true } }
  let s2 := match s1.eng.lp with
    | some lp => if lp.started then shuttleAbort 0x0804 s1 else endPassBy 0x0804 s1
    | none => endPassBy 0x0804 s1
  let s3 := (leaveInsts s2).emit (.rack 0x0A06)
  (List.finRange 32).foldl (fun s p => pullPort p s) s3

/-- A sign of removal: the stop begins, and the module does not start again before the lever is closed (R492, R527, R530). -/
def unseat (s : State) : State :=
  let s1 : State := { s with boot := { s.boot with leverOpen := true } }
  if s.boot.earlyBreak || !s.boot.standby then s1 else pullSled s1

/-- EARLY_BREAK. -/
def execEarlyBreak (s : State) : Res := .next (unseat s)

/-- EARLY_BREAK_POWER_OFF: the module stays at standby. -/
def execEarlyBreakPowerOff (s : State) : Res :=
  if !s.boot.earlyBreak then .next s
  else
    let s1 := engineOff s
    .next { s1 with boot := { s1.boot with phase := min 4 s1.boot.phase, granted := none } }

/-- SEATED_OPEN: a second sign of removal (R530). -/
def execSeatedOpen (s : State) : Res := .next (unseat s)

/-- LEVER_CLOSE: a cold start, once the stop has been completed, the lever has been open for 1 s, and the sled is seated (R527). -/
def execLeverClose (openMs : Nat) (seated : Bool) (s : State) : Res :=
  if s.boot.leverOpen && decide (s.boot.phase ≤ 4) && decide (1000 ≤ openMs) && seated then
    let s1 : State := { s with boot := { s.boot with leverOpen := false } }
    .next (if s.boot.standby then coldStart s1 else s1)
  else .next s

end Sys2Proof.Machine
end

