-- ==== Sys2Proof/Machine/Firmware.lean ====
section
/-! DEFINITION. Staging of configuration banks (R464, R465) and of firmware bundles (R469, R515), and their activation (R468, R470, R471,
R513). -/

namespace Sys2Proof.Machine

open Sys2Proof

/-! ### Configuration (R465, R468) -/

/-- A bank written into the cartridge. -/
def writeBank (n : Bool) (bs : List Byte) (s : State) : State :=
  match s.boot.cart with
  | none => s
  | some c => { s with boot := { s.boot with cart := some (if n then { c with bank1 := bs } else { c with bank0 := bs }) } }

/-- A bank that is pending. -/
def pendBank (bs : List Byte) (mode : StageMode) (cold : Bool) (s : State) : State :=
  let b := s.boot
  { s with boot := { b with pendBank := some (bankBody bs), pendMode := mode, coldPending := cold, livePending := true } }

/-- A bank staged, with whether it was. One that is not staged has still been written over the one that was pending. With no bank in force
it is written as bank 0, and only a cold start takes it. -/
def stageBank (bs : List Byte) (mode : StageMode) (s : State) : State × Bool :=
  let b := s.boot
  let bad (s : State) : State × Bool :=
    (cfgCode 0x0B01 { s with boot := { s.boot with pendBank := none, livePending := false, coldPending := false } }, false)
  if b.cart.isNone then (cfgCode 0x0B01 s, false)
  else match b.bank with
    | none =>
      let s1 := writeBank false bs s
      if bankValid bs then (pendBank bs .stage true s1, true) else bad s1
    | some n =>
      let s1 := writeBank (!n) bs s
      if bankValid bs && seqNewer (bankSeqOf bs) b.bankSeq then
        let s2 := pendBank bs mode (coldDiffers (bankCfg bs) s.eng.cfg) s1
        (if mode = .drain then drainBegin (fun d => { d with activation := true }) s2 else s2, true)
      else bad s1

/-- STAGE_CONFIGURATION through Redfish. -/
def execStageConfiguration (bank : List Byte) (mode : StageMode) (s : State) : Res :=
  if !loupeUp s then .next s
  else
    let r := stageBank bank mode s
    .next (redfish r.2 r.1)

/-! ### Firmware staging (R469, R512, R515) -/

/-- FIRMWARE_STAGE: served in ROM recovery too (R514). -/
def execFirmwareStage (b : Bundle) (s : State) : Res :=
  if !(loupeUp s || (s.boot.standby && s.boot.recovery)) || s.boot.act.step != 0 then .next s
  else match sigCheck s 3 (bundleBody b) (bundleBlock b) with
    | some code => .next (redfish false (secCode code { s with boot := { s.boot with fwCode := code } }))
    | none =>
      .next (redfish true { s with boot := { s.boot with fwOther := some ⟨b, sigSec (bundleBlock b), false, false⟩, fwPending := true, fwMode := .stage } })

/-- FIRMWARE_ACTIVATE with mode WAIT or DRAIN. -/
def execFirmwareActivate (mode : StageMode) (s : State) : Res :=
  if !loupeUp s then .next s
  else if !s.boot.fwPending || mode == .stage then .next (redfish false s)
  else
    let s1 : State := { s with boot := { s.boot with fwMode := mode } }
    .next (redfish true (if mode = .drain then drainBegin (fun d => { d with activation := true }) s1 else s1))

/-! ### Activation (R470, R471) -/

/-- The step of a component. -/
def fwStep : FwComponent → Nat
  | .core => 1
  | .shuttle => 2
  | .loupe => 3

/-- A shuttle is restarted: its mailbox domain goes off. -/
def restartShuttle (k : Nat) (s : State) : State :=
  let s1 := domainOff ⟨32 + 3 * (k % 4), by have := Nat.mod_lt k (show 0 < 4 by decide); omega⟩ s
  { s1 with boot := { s1.boot with act := { step := 2, shuttles := k } } }

/-- Loupe is restarted: its domain goes off, its sessions are dropped, and the fans run at 100 %. -/
def restartLoupe (s : State) : State :=
  let s1 := domainOff 0 { s with host := { s.host with shuttleOff := 0 } }
  { s1 with
    boot := { s1.boot with act := { step := 3 } }, pwr := { s1.pwr with fanDuty := 100 },
    mgmt := { s1.mgmt with clients := 0, streams := 0, presence := false } }

/-- Loupe writes its record into a cartridge that was fitted while it could not (R494, R542). -/
def writeDue (s : State) : State := if s.boot.recordDue then writeRecord { s with boot := { s.boot with recordDue := false } } else s

/-- What was held while the activation ran goes on, with the measurement set of what is then in force (R521). -/
def activationEnds (s : State) : State :=
  postResult (postEvents (endActivationDrain (measure (writeDue
    { s with boot := { s.boot with act := {} }, host := { s.host with loupeOff := false, shuttleOff := 0 } }))))

/-- The activation is complete: the bundle is in force, the counters rise, and it is measured. -/
def activationDone (s : State) : State :=
  let b := s.boot
  match b.fwOther with
  | none => activationEnds s
  | some x =>
    let m := s.mgmt
    activationEnds { s with
      boot := { b with fwInForce := some x, fwOther := b.fwInForce, fwPending := false, fwMode := .stage },
      mgmt := { m with ctrLoupe := max m.ctrLoupe x.secVersion, ctrShuttle := max m.ctrShuttle x.secVersion,
                       ctrCore := max m.ctrCore x.secVersion } }

/-- FW_COMPONENT_READY. -/
def execFwComponentReady (k : FwComponent) (s : State) : Res :=
  let a := s.boot.act
  if a.step ≠ fwStep k then .next s
  else match k with
    | .core => .next (restartShuttle 0 s)
    | .shuttle => if a.shuttles < 3 then .next (restartShuttle (a.shuttles + 1) { s with host := { s.host with shuttleOff := 0 } })
      else .next (restartLoupe s)
    | .loupe => .next (activationDone s)

/-- FW_ACTIVATE: a component has not reported ready within its bound, and the bundle in force before stays. -/
def execFwActivate (k : FwComponent) (s : State) : Res :=
  let b := s.boot
  if b.act.step ≠ fwStep k then .next s
  else
    let s1 : State := { s with
      boot := { b with
        fwOther := b.fwOther.map fun x => { x with failed := true }, fwPending := false, fwMode := .stage,
        fwErr := true, fwComp := BitVec.ofNat 2 (fwStep k), fwCode := 0x0B04 } }
    .next (bootCode 0x0B04 (activationEnds s1))

end Sys2Proof.Machine
end

