-- ==== Sys2Proof/Machine/Certificates.lean ====
section
/-! DEFINITION. The module's certificate chain (R518) in DER. The encoding of X.509 v3 and the object identifiers stand outside the spec:
entry 6 of the assumption log. -/

namespace Sys2Proof.Machine

open Sys2Proof

/-- Bytes cut or padded with zeros to a length. -/
def fitBytes (n : Nat) (bs : List Byte) : List Byte := (bs ++ List.replicate n 0).take n

/-- A length in DER, up to 65,535. -/
def derLen (n : Nat) : List Byte :=
  if n < 128 then leBytes 1 n else if n < 256 then 0x81 :: leBytes 1 n else 0x82 :: (leBytes 2 n).reverse

/-- A value in DER. -/
def der (tag : Byte) (body : List Byte) : List Byte := tag :: derLen body.length ++ body

def derSeq (parts : List (List Byte)) : List Byte := der 0x30 parts.flatten

/-- ASCII text. -/
def ascii (t : String) : List Byte := t.toList.map fun c => BitVec.ofNat 8 c.toNat

/-- The algorithm ecdsa-with-SHA384. -/
def sigAlg : List Byte := derSeq [der 0x06 [0x2A, 0x86, 0x48, 0xCE, 0x3D, 0x04, 0x03, 0x03]]

/-- A name of one attribute, by the last byte of its identifier: 3 commonName, 5 serialNumber. -/
def derName (attr : Byte) (text : List Byte) : List Byte :=
  derSeq [der 0x31 (derSeq [der 0x06 [0x55, 0x04, attr], der 0x13 text])]

/-- The subject of a certificate of the chain: 0 identity, named by the module's serial number, 1 manufacturing CA, 2 root CA. -/
def certSubject (i : Nat) : List Byte :=
  if i = 0 then derName 5 Config.serial
  else if i = 1 then derName 3 (ascii "Jalretan Cenus Manufacturing CA")
  else derName 3 (ascii "Jalretan Root CA")

/-- The issuer of a certificate: the root CA signs itself. -/
def certIssuer (i : Nat) : Nat := min 2 (i + 1)

/-- A public key on brainpoolP384r1, from X and Y as R511 stores them. -/
def derKey (pub : List Byte) : List Byte :=
  let k := fitBytes 96 pub
  derSeq [derSeq [der 0x06 [0x2A, 0x86, 0x48, 0xCE, 0x3D, 0x02, 0x01], der 0x06 [0x2B, 0x24, 0x03, 0x03, 0x02, 0x08, 0x01, 0x01, 0x0B]],
    der 0x03 ([0x00, 0x04] ++ (k.take 48).reverse ++ (k.drop 48).reverse)]

/-- What the issuer of a certificate signs. -/
def certBody (i : Nat) : List Byte :=
  derSeq [der 0xA0 (der 0x02 [2]), der 0x02 (Config.certSerial i), sigAlg, certSubject (certIssuer i), Config.certValidity i, certSubject i,
    derKey (if i = 0 then Config.identityKey else Config.caKey i), der 0xA3 (Config.certExtensions i)]

/-- A certificate of the module's chain: 0 identity, 1 manufacturing CA, 2 root CA (R509, R518). -/
def certificate (i : Nat) : List Byte :=
  derSeq [certBody i, sigAlg, der 0x03 (0x00 :: Config.caSign (certIssuer i) (certBody i))]

end Sys2Proof.Machine
end

