-- ==== Sys2Proof/Machine/Registers.lean ====
section
/-! DEFINITION. What a read of each register of BAR0 returns (R391 to R393, R396, R408, R199, R416, R417, R446, R447, R385, R386, R264,
R299, R332, R363, R475, R495, R496, R523, R546). An unassigned offset reads zero (R391). -/

namespace Sys2Proof.Machine

open Sys2Proof

/-! ### Small parts -/

/-- A temperature in 1/16 °C as a field of 8 bits in °C. -/
def degrees (t : Int) : Nat := (max 0 (min 255 (t / 16))).toNat

/-- Half `i` of a 64-bit value. -/
def half (v i : Nat) : Nat := bits v (32 * i + 31) (32 * i)

/-- Bits of a list of truths, the first at bit 0. -/
def bitList : List Bool → Nat
  | [] => 0
  | b :: t => b2n b + 2 * bitList t

/-! ### Offsets from 0x0000_0000 (R393, R475, R496, R523) -/

def engStateCode : EngState → Nat
  | .bringup => 0
  | .reduced => 1
  | .full => 2
  | .degraded => 3
  | .draining => 4

/-- The firmware version in force, as FW_VER has it (R393). -/
def fwVer (s : State) : Nat := match s.boot.fwInForce with | some x => x.bundle.version.toNat | none => 0

def readIdentity (s : State) (off : Nat) : Nat :=
  let build := match s.eng.image with | some im => im.buildId.toNat | none => 0
  match off with
  | 0x000 => 0x00462304
  | 0x004 => 0x00000100
  | 0x008 => fwVer s
  | 0x00C => put 1 8 + 0x1F
  | 0x010 => s.host.abi.toNat
  | 0x014 => s.eng.cfg.engineId.toNat
  | 0x018 => put (engStateCode s.boot.eng) 28 + put (tilesInService s) 22 + put (b2n s.eng.image.isSome) 21 + put (b2n s.eng.cfg.window) 20
  | 0x01C => half build 0
  | 0x020 => half build 1
  | _ => 0

def readBoot (s : State) (off : Nat) : Nat :=
  let b := s.boot
  match off with
  | 0x100 => put (b.phase % 16) 28 + put (min 7 b.wavesEnded) 24 + min 65535 (match b.granted with | some m => (s.mgmt.uptime - m) / 1000 | none => 0)
  | 0x104 => half b.inService.toNat 0
  | 0x108 => half b.inService.toNat 1
  | 0x10C => half b.failedWave.toNat 0
  | 0x110 => half b.failedWave.toNat 1
  | 0x114 => put (b2n b.pendBank.isSome) 31 + put (b2n b.coldPending) 30 + put (b2n b.cfgErr) 29
      + put (b2n (b.bank == some true)) 28 + put b.bankFormat 24 + b.cfgCode.toNat
  | 0x118 => b.bankSeq.toNat
  | 0x11C => match b.pendBank with | some bs => (bankSeqOf bs).toNat | none => 0
  | 0x120 => put (b2n b.fwPending) 31 + put (b2n b.fwErr) 30 + put b.fwComp.toNat 28 + b.fwCode.toNat
  | _ => 0

/-- The bits of EDGE that FLT_EDGE_SEL selects. -/
def edgeMap (s : State) : Nat :=
  let d := bits s.host.edgeSel.toNat 6 4
  let w := bits s.host.edgeSel.toNat 1 0
  if 2 ≤ d ∧ 2 ≤ w then 0
  else bitList ((List.range 32).map fun i => s.flt.edge.getLsbD ((if d < 2 then d * 128 else 256 + (d - 2) * 64) + 32 * w + i))

/-- The logical cores that are unserved. -/
def coresUnserved (s : State) : Nat :=
  (List.finRange 768).foldl (fun n ci =>
    if tileUnserved s (tileOfCi ci) then n + 64
    else n + ((List.range 8).filter fun r => rowOf s ci r == 14).length) 0

def readFaults (s : State) (off : Nat) : Nat :=
  let f := s.flt
  match off with
  | 0x200 => put (f.darn[1]).toNat 30 + put (f.darn[0]).toNat 28 + put (b2n f.stagingLost) 27
      + put ((List.finRange 48).filter (tileUnserved s)).length 21 + put (min 15 f.repairs.length) 17 + coresUnserved s
  | 0x204 => f.err.toNat
  | 0x208 => f.repairReg.toNat
  | 0x20C => s.host.edgeSel.toNat
  | 0x210 => edgeMap s
  | 0x214 => f.hw.toNat
  | 0x218 => f.reruns.toNat
  | 0x21C => f.limit.toNat
  | 0x220 => f.shifts.toNat
  | 0x224 => f.relocs.toNat
  | _ => 0

def readSecurity (s : State) (off : Nat) : Nat :=
  let m := s.mgmt
  match off with
  | 0x300 => put (b2n m.secValid) 31 + put (b2n m.presence) 30 + m.secStat.toNat
  | 0x304 => put m.fwRevoked.toNat 28 + put m.opRevoked.toNat 8 + bitList (m.keyIds.toList.map fun k => !k.isEmpty)
  | 0x308 => put m.ctrLoupe 24 + put m.ctrShuttle 16 + put m.ctrCore 8
  | 0x30C => m.ctrObject
  | 0x310 => put (b2n m.permit) 31 + put (b2n m.locate) 30 + put (b2n m.panelLock) 29 + put (b2n m.safe) 28 + put m.links.toNat 26
  | _ => 0

/-- The MSI-X table and pending bits (R395). -/
def readMsix (s : State) (off : Nat) : Nat :=
  let m := s.host.msix
  if off < 0x8400 then
    let i := (off - 0x8000) / 4
    if i % 4 = 3 then b2n (m.mask.getLsbD (i / 4)) else (tabGet 0 m.table i).toNat
  else if off = 0x9000 then half m.pend.toNat 0
  else if off = 0x9004 then half m.pend.toNat 1
  else 0

/-! ### Queues and service registers (R392, R396) -/

def qStateCode : QState → Nat
  | .disabled => 0
  | .active => 1
  | .flushing => 2

def readQueue (x : Queue) (off : Nat) : Nat :=
  match off with
  | 0x00 => put x.baseLo.toNat 12
  | 0x04 => x.baseHi.toNat
  | 0x08 => put (b2n x.enable) 31 + put x.prio.toNat 28 + x.log2.toNat
  | 0x0C => x.tail.toNat
  | 0x10 => x.head.toNat
  | 0x14 => put (qStateCode x.st) 30 + put (b2n x.err) 29 + x.code.toNat
  | 0x18 => x.done.toNat
  | _ => 0

def loadCode : LoadState → Nat
  | .fetching => 1
  | .waiting => 2
  | .loading => 3
  | .complete => 4

/-- WI_LOAD (R264). -/
def wiLoad (s : State) : Nat :=
  match s.wts.load with
  | none => 0
  | some l =>
    let need := match l.man with | some m => neededChunks s m | none => []
    let done := (need.filter l.loaded.contains).length
    put l.number.toNat 16 + put (b2n l.adapter) 15 + put (loadCode l.st) 12 + put (l.role.toNat % 4) 10
      + (if need.isEmpty then (if l.st = .complete then 1000 else 0) else 1000 * done / need.length)

/-- Whole MiB that hold some bytes. -/
def mibOf (n : Nat) : Nat := (n + mib - 1) / mib

/-- An element of a list of eight by an offset in words. -/
def dieAt (s : State) (n : Nat) : Die := s.dies[n % 8]'(Nat.mod_lt _ (by decide))

/-- Steps whose reduction has not ended, and sketches held (R332). -/
def redStat (s : State) : Nat :=
  put (min 15 (s.red.steps.filter fun t => t.outcome.isNone).length) 28
    + min 65535 (s.red.sketches.filter fun k => k.st != .done && k.st != .ended).length

/-- COLL_STAT (R363): undecided queue instances, bindings, engines lost. -/
def collStat (s : State) : Nat :=
  let c := s.coll
  let open_ := c.insts.filter fun i => i.q.isSome && i.undecided
  put (min 16 open_.length) 27 + put (min 64 c.bindings.length) 20 + min 16383 c.lost.length

def readService (s : State) (off : Nat) : Nat :=
  let w := off / 4
  if off < 0x100 then
    match off with
    | 0x000 => s.host.path.err.toNat
    | 0x004 => s.host.path.off.toNat
    | 0x008 => s.host.path.wdrop.toNat
    | 0x00C => s.host.path.woff.toNat
    | _ => 0
  else if off < 0x110 then
    match off with
    | 0x100 => put (match s.wts.draining with | some e => e.number.toNat | none => 0) 16
        + (match s.wts.current with | some e => e.number.toNat | none => 0)
    | 0x104 => wiLoad s
    | 0x108 => s.wts.err.toNat
    | 0x10C => s.wts.errIndex.toNat
    | _ => 0
  else if off < 0x130 then
    let d := dieAt s (w - 0x44)
    put (min 255 (fetchHeld s ⟨(w - 0x44) % 8, Nat.mod_lt _ (by decide)⟩).length) 24 + put (min 255 d.reqs.length) 16 + put d.wiStale.toNat 8 + d.wiRetries.toNat
  else if off < 0x150 then (dieAt s (w - 0x4C)).wiIdle.toNat
  else if off < 0x320 then
    match off with
    | 0x204 => put s.eng.focusEsc.length 16 + s.eng.focusLast
    | 0x208 => s.eng.focusSample.toNat
    | 0x300 => redStat s
    | 0x304 => s.red.err.toNat
    | 0x308 => s.red.errStep.toNat
    | 0x30C => s.red.retries.toNat
    | 0x310 => s.red.refused.toNat
    | 0x314 => s.red.nfs.toNat
    | 0x318 => s.red.twin.toNat
    | 0x31C => s.red.stale.toNat
    | _ => 0
  else if off < 0x340 then
    let d : DieId := ⟨(w - 0xC8) % 8, Nat.mod_lt _ (by decide)⟩
    put (mibOf (((dieAt s d.val).ranges.filter fun r => r.sketch.isSome).foldl (fun n r => n + min r.got r.len) 0)) 16 + mibOf (heldBytes s d)
  else if off < 0x500 then
    match off with
    | 0x400 => collStat s
    | 0x404 => s.coll.err.toNat
    | 0x408 => s.coll.errId.toNat
    | 0x410 => s.coll.lastLost.toNat
    | 0x414 => s.coll.late.toNat
    | 0x418 => s.coll.escs.toNat
    | 0x41C => s.coll.timeouts.toNat
    | 0x420 => s.coll.stale.toNat
    | _ => 0
  else if off < 0x540 then
    let d := dieAt s ((off - 0x500) / 8)
    if off % 8 = 0 then d.meshErr.toNat else d.meshSlot.toNat
  else 0

/-! ### Mailboxes and sync objects (R408, R199) -/

/-- MBX_STAT and MBX_CTL of a mailbox; MBX_DATA and MBX_ACK are read by a command of their own. -/
def readMbx (s : State) (m : MbxId) (off : Nat) : Nat :=
  let x := s.host.mbx[m.val]
  match off with
  | 0x0 => x.data.toNat
  | 0x4 => put (b2n x.ackValid) 31 + x.ackCode.toNat
  | 0x8 => put (b2n x.full) 31 + put (b2n x.rej) 30 + put (b2n (mbxOff s m)) 29 + put (b2n (!hostSends m)) 28
  | _ => b2n x.mode

/-- A register of an object's block of the sync window. Between layer passes what a cluster-homed object holds is undefined: the
value is free (R199). -/
def readSync (s : State) (id off : Nat) : Nat :=
  let o := if id < 0xC000 && !passOn s then
      { count := Config.freeWord s.free, target := Config.freeWord (s.free + 1) } else objGet s id
  let held := match s.eng.lp with | some lp => lp.held.any fun h => h.1.toNat == id | none => false
  match off with
  | 0x0 => o.count.toNat
  | 0x4 => o.target.toNat
  | 0xC => put (b2n (satisfied o)) 31 + put (b2n held) 30 + min 65535 o.waiters.length
  | _ => 0

/-! ### Power and thermal mirror (R446, R447) -/

def feedCode : FeedState → Nat
  | .lost => 0
  | .qualifying => 1
  | .inService => 2

def fanCode : FanState → Nat
  | .absent => 0
  | .running => 1
  | .failed => 2

def feedWord (x : Feed) : Nat := put (feedCode x.st) 30 + put (min 2047 x.volt) 16 + min 65535 x.power

/-- P10 in W: the mean of the last ten values of P1. -/
def p10Of (s : State) : Nat := if s.pwr.last10.isEmpty then 0 else s.pwr.last10.foldl (· + ·) 0 / s.pwr.last10.length

/-- The fans in service. -/
def fansRunning (s : State) : Nat := (s.pwr.fans.toList.filter fun f => f.st == .running).length

/-- B of R429 in mJ. -/
def budgetLeft (s : State) : Nat := s.eng.cfg.ballastBudgetKj * 1000000 - s.pwr.drawn.foldl (· + ·) 0

/-- Whether a core's matrix unit has updates to make, which take the cycles before ballast (R428). -/
def matrixBusy (k : Core) : Bool := k.units.mac.isSome || k.units.move.isSome || !k.units.mxQ.isEmpty

/-- The clusters of which a matrix unit has updates to make. -/
def busyClusters (s : State) : List Nat :=
  (s.cores.filter fun e => matrixBusy e.2).filterMap fun e => if h : e.1 < 49152 then some (ciOf ⟨e.1, h⟩).val else none

/-- The ballast that is drawn, in mW: what is armed in a cluster whose matrix units have nothing to do, and else what its idle cycles are
to draw. A stop therefore meets armed ballast at once (R427). -/
def ballastDrawn (s : State) : Nat :=
  let busy := busyClusters s
  s.pwr.arms.foldl (fun n e => n + if busy.contains e.1 then tabGet 0 s.pwr.nows e.1 else e.2) 0

/-- PT_BALLAST.BUDGET, in units of 100 J: 0 until Loupe has booted (R447). -/
def budgetShown (s : State) : Nat := if s.boot.phase < 2 then 0 else min 65535 (budgetLeft s / 100000)

def readMirror (s : State) (off : Nat) : Nat :=
  let p := s.pwr
  if 0x020 ≤ off ∧ off < 0x040 then
    let f := p.fans[(off - 0x20) / 4 % 8]'(Nat.mod_lt _ (by decide))
    put (min 65535 f.rpm) 16 + put (min 255 p.fanDuty) 8 + fanCode f.st
  else if 0x100 ≤ off ∧ off < 0x280 then
    let i := (off - 0x100) / 128 * 32 + (off - 0x100) % 128 / 4
    (List.range 8).foldl (fun n j => n + put (tabGet ({} : Cluster) s.clusters (8 * i + j)).rung (4 * j)) 0
  else match off with
  | 0x000 => put (min 65535 (p10Of s)) 16 + min 65535 p.p1
  | 0x004 => put (min 65535 (p.ceilMw / 1000)) 16 + min 65535 (effFloor s / 1000)
  | 0x008 => put p.bind 29 + put s.eng.duty 24 + min 65535 p.rest
  | 0x00C => put (min 65535 (ballastDrawn s / 1000)) 16 + budgetShown s
  | 0x010 => feedWord p.feeds[0]
  | 0x014 => feedWord p.feeds[1]
  | 0x018 => put (bitList (p.stages.toList.map (·.fault))) 12 + bitList (p.stages.toList.map (·.inService))
  | 0x01C => put (degrees p.inlet) 24 + put (degrees p.outlet) 16 + put (degrees p.sink) 8 + put (fansRunning s) 4 + put (b2n p.degraded) 3
  | 0x040 => put s.eng.slotRate.toNat 30 + put s.eng.nextRate.toNat 28
      + put ((List.finRange 768).filter fun ci => clockTarget s (s.cluster ci) != 0).length 18
  | 0x044 => p.event.toNat
  | 0x048 => p.rampEvents.toNat
  | 0x04C => p.throttleEvents.toNat
  | 0x050 => p.deferrals.toNat
  | 0x054 => put s.eng.placement 30 + (BitVec.ofInt 16 s.eng.score).toNat
  | _ => 0

/-! ### Azram ports (R385, R386) -/

def portCode : PortState → Nat
  | .dark => 0
  | .detect => 1
  | .train => 2
  | .negotiate => 3
  | .active => 4
  | .retrain => 5
  | .down => 6
  | .leaving => 7

def readPort (s : State) (n : PortId) (off : Nat) : Nat :=
  let x := s.ports[n.val]
  let l := x.link
  let c := x.cnt
  if 0x040 ≤ off ∧ off < 0x050 then (c.txf[(off - 0x40) / 4 % 4]'(Nat.mod_lt _ (by decide))).toNat
  else if 0x050 ≤ off ∧ off < 0x060 then (c.rxf[(off - 0x50) / 4 % 4]'(Nat.mod_lt _ (by decide))).toNat
  else match off with
  | 0x000 => put (b2n x.disable) 1 + b2n x.locate
  | 0x004 => put (portCode x.st) 28 + put (bits s.eng.cfg.portRole.toNat (2 * n.val + 1) (2 * n.val)) 26 + put l.version.toNat 24
      + put l.lanes 20 + put (b2n l.half) 19 + put (b2n x.present) 18 + put (b2n x.capped) 17 + l.lastCode.toNat
  | 0x008 => put (b2n l.peerNode) 31 + put l.peerId.toNat 16 + l.peerPort.toNat
  | 0x00C => put l.fabricF.toNat 16 + put (b2n l.plane) 7 + put l.pversions.toNat 4 + l.features.toNat
  | 0x010 => l.err.toNat
  | 0x014 => put l.serHigh.toNat 16 + put l.failed.toNat 8 + l.inUse.toNat
  | 0x018 => c.fecCorr.toNat
  | 0x01C => c.fecUncorr.toNat
  | 0x020 => c.crcErr.toNat
  | 0x024 => c.replays.toNat
  | 0x028 => c.retrains.toNat
  | 0x02C => c.downs.toNat
  | 0x030 => c.lost.toNat
  | 0x034 => c.xdie.toNat
  | 0x038 => c.refused.toNat
  | _ => 0

/-! ### Tile status (R416, R417, R495) -/

def tileStateCode : TileState → Nat
  | .off => 0
  | .selftest => 1
  | .service => 2
  | .throttled => 3
  | .retired => 4
  | .spare => 5

def efuseCode : Efuse → Nat
  | .closed => 0
  | .short => 1
  | .overload => 2
  | .dieTemp => 3
  | .memTemp => 4
  | .retired => 5

/-- The physical tile that a block describes: blocks 48 and 49 always D0 and D1. -/
def blockTile (s : State) (t : PhysTile) : PhysTile :=
  if h : t.val < 48 then physOf s ⟨t.val, h⟩ else t

/-- Failed cores that a tile's darning columns absorb: one for each row with a failed column 0 to 7, or two failures. -/
def darned (x : PTile) : Nat :=
  x.rows.toList.foldl (fun n w =>
    n + ((List.range 8).filter fun r =>
      let v := bits w.toNat (4 * r + 3) (4 * r)
      decide (v < 8) || v == 14).length) 0

/-- The hottest of a group of sensors. -/
def hottest (free : Nat) (rs : List (Option Int)) : Int := (maxList ((List.range rs.length).map (readSensor free rs))).getD 0

/-- TILE_REPAIR.PENDING of a block: of the tile that it describes, or of the darning tile that is to take one (DEDUCED, log entry 83). -/
def pendingOf (s : State) (t : PhysTile) : Nat :=
  let p := blockTile s t
  let of (r : Repair) : Nat := match r with
    | .shift ci _ _ _ => if physCi s ci = p then 1 else 0
    | .relocate pt d _ => if physOf s pt = p ∨ darnTile d = p then 2 else 0
    | .restore pt _ => if physOf s pt = p then 3 else 0
    | _ => 0
  ((s.flt.repairs.map of).filter (· != 0)).headD 0

/-- The kind of an error as CLUSTER_ERRS sorts it: scratchpad, mesh, memory, tatting. -/
def errKind (code : BitVec 16) : Nat :=
  let n := code.toNat
  if n = 0x0401 then 3 else if n = 0x0402 ∨ n = 0x0403 then 1 else if n = 0x0306 ∨ n = 0x0307 then 0 else 2

/-- CLUSTER_ERRS of a cluster of a physical tile. -/
def clusterErrs (s : State) (p : PhysTile) (k : Nat) : Nat :=
  let es := (recentErrs s).filter fun e => e.site.tile == some p && e.site.cluster == k
  (List.range 4).foldl (fun n j => n + put (min 255 (es.filter fun e => errKind e.code == j).length) (8 * j)) 0

/-- The logical tile that a block's physical tile serves. -/
def servedBy (s : State) (p : PhysTile) : Nat :=
  match (List.finRange 48).find? fun pt => !tileUnserved s pt && physOf s pt == p && inService s pt.val with
  | some pt => pt.val
  | none => 63

def readTile (s : State) (t : PhysTile) (off : Nat) : Nat :=
  let p := blockTile s t
  let x := s.tiles[p.val]
  let pt := servedBy s p
  if 0x2000 ≤ off then
    if h : t.val < 48 then
      let j := (off - 0x2000) / 56
      let w := (off - 0x2000) % 56 / 4
      if hj : j < 1024 then
        let c : CoreId := ⟨(t.val / 8 * 32 + j / 32) * 256 + (t.val % 8 * 32 + j % 32), by omega⟩
        ((s.core c).status.getD w 0).toNat
      else 0
    else 0
  else if 0x200 ≤ off ∧ off < 0x240 then (x.rows[(off - 0x200) / 4 % 16]'(Nat.mod_lt _ (by decide))).toNat
  else if 0x300 ≤ off ∧ off < 0x340 then
    clusterErrs s p ((off - 0x300) / 4 % 16)
  else match off with
  | 0x0000 => put (tileStateCode x.st) 28 + put pt 22 + put p.val 16 + put (darned x) 8
  | 0x0004 => put (degrees (hottest p.val x.diodes)) 24 + put (degrees (hottest (64 + p.val) (quadList x.layer0.temp))) 16
      + put (degrees (hottest (128 + p.val) (quadList x.layer1.temp))) 8
  | 0x0100 => put (pendingOf s t) 28 + put (efuseCode x.fuse) 24
      + put (min 255 (x.opens.filter fun o => decide (nowMs s < o.2 + dayMs)).length) 16
      + put (min 255 ((recentErrs s).filter fun e => e.site.tile == some p).length) 8 + put (x.test % 16) 4
  | 0x0104 => put (min 65535 x.current) 16 + min 65535 x.voltage
  | _ => 0

/-! ### The whole of BAR0 (R391) -/

/-- What a read of a register at an offset returns. -/
def regRead (s : State) (off : Nat) : Nat :=
  if off < 0x100 then readIdentity s off
  else if off < 0x200 then readBoot s off
  else if off < 0x300 then readFaults s off
  else if off < 0x400 then readSecurity s off
  else if off < 0x8000 then 0
  else if off < 0x10000 then readMsix s off
  else if off < 0x100000 then 0
  else if off < 0x101000 then
    readQueue (s.host.queues[(off - 0x100000) / 64 % 64]'(Nat.mod_lt _ (by decide))) (off % 64)
  else if off < 0x110000 then 0
  else if off < 0x120000 then readService s (off - 0x110000)
  else if off < 0x200000 then 0
  else if off < 0x200300 then readMbx s ⟨(off - 0x200000) / 16 % 48, Nat.mod_lt _ (by decide)⟩ (off % 16)
  else if off < 0x300000 then
    match off with
    | 0x201000 => s.host.dbStat.toNat
    | 0x201004 => s.host.dbMask.toNat
    | 0x201008 => s.host.mbxErr.toNat
    | _ => 0
  else if off < 0x400000 then readSync s ((off - 0x300000) / 16) (off % 16)
  else if off < 0x500000 then readMirror s (off - 0x400000)
  else if off < 0x508000 then readPort s ⟨(off - 0x500000) / 1024 % 32, Nat.mod_lt _ (by decide)⟩ (off % 1024)
  else if off < 0x800000 then 0
  else if h : (off - 0x800000) / 65536 < 50 then readTile s ⟨(off - 0x800000) / 65536, h⟩ (off % 65536)
  else 0

end Sys2Proof.Machine
end

