-- ==== Sys2Proof/Machine/Manage.lean ====
section
/-! DEFINITION. Loupe's mailbox commands with the attestation report (R507 to R509, R518 to R521), the front panel (R504 to R506), keys
(R513, R517), clients, clock, certificates and events (R499 to R503, R518, R519), and the cartridge (R464, R494, R540, R542). -/

namespace Sys2Proof.Machine

open Sys2Proof

/-! ### Loupe's mailbox commands (R507 to R509) -/

/-- ARG0 to ARG(n − 1) taken with OK, in order, as far as each is FULL. -/
def takeArgs : Nat → Nat → State → List Nat × State
  | 0, _, s => ([], s)
  | n + 1, i, s =>
    let m : MbxId := ⟨(1 + i) % 48, Nat.mod_lt _ (by decide)⟩
    let x := s.host.mbx[m.val]
    if !x.full then ([], s)
    else
      let r := takeArgs n (i + 1) (takeWord m 0 s)
      (x.data.toNat :: r.1, r.2)

/-- The result of a command: its status and RES words. -/
def giveResult (tag : Nat) (status : Nat) (rs : List Word) (s : State) : State :=
  postResult { s with mgmt := { s.mgmt with result := some (rs, BitVec.ofNat 32 (put tag 16 + status)) } }

/-- A word of COMMAND handled: one that is busy or unknown is taken with its code; the command of a number is run on its arguments, once
every one of them has been taken. -/
def loupeWord (cmd need : Nat) (run : List Nat → State → Nat × List Word × State) (s : State) : State :=
  if !loupeUp s || !wordWaits s 0 then s
  else match takeCode s 0 0 with
    | some c => takeWord 0 c s
    | none =>
      let w := (s.host.mbx[0]).data.toNat
      let n := bits w 23 16
      if wordCmd s 0 ≠ cmd then s
      else if 15 < n then takeWord 0 0x0103 s
      else
        let r := takeArgs n 0 (takeWord 0 0 s)
        if r.1.length < n ∨ n < need then giveResult (bits w 15 0) 0x0103 [] r.2
        else
          let x := run r.1 r.2
          giveResult (bits w 15 0) x.1 x.2.1 x.2.2

/-- LOUPE_PING. -/
def execLoupePing (s : State) : Res := .next (loupeWord 1 0 (fun _ s => (0, [], s)) s)

/-- A measurement entry (R520). -/
def measureBytes (m : Measure) : List Byte :=
  leBytes 2 m.ty ++ leBytes 2 0 ++ leBytes 4 m.sec ++ leBytes 8 m.id.toNat ++ fitBytes 48 m.digest

/-- The report before its signature block (R519). -/
def reportBody (s : State) (nonce : List Byte) : List Byte :=
  let m := s.mgmt
  let enrolled := bitList (m.keyIds.toList.map fun k => !k.isEmpty)
  [0x43, 0x51, 0x41, 0x52] ++ leBytes 2 1 ++ leBytes 2 m.measures.length ++ leBytes 4 (128 + 64 * m.measures.length + 256)
    ++ leBytes 2 s.eng.cfg.engineId.toNat ++ leBytes 2 0 ++ fitBytes 32 nonce ++ fitBytes 16 Config.serial
    ++ leBytes 4 s.boot.bootCount ++ leBytes 4 (m.uptime / 1000)
    ++ leBytes 1 m.ctrLoupe ++ leBytes 1 m.ctrShuttle ++ leBytes 1 m.ctrCore ++ leBytes 1 m.ctrObject
    ++ leBytes 1 enrolled ++ leBytes 1 m.opRevoked.toNat ++ leBytes 1 m.fwRevoked.toNat ++ leBytes 49 0
    ++ m.measures.flatMap measureBytes

/-- Bytes 0x00 to 0x7F of the report's signature block (R511). Its SEC_VERSION is left open. -/
def reportBlock (sec : Nat) : List Byte :=
  [0x43, 0x51, 0x53, 0x42] ++ leBytes 2 1 ++ leBytes 1 4 ++ leBytes 1 0xFE ++ leBytes 4 (sec % 129) ++ leBytes 4 0
    ++ fitBytes 96 Config.identityKey ++ leBytes 16 0

/-- The attestation report. -/
def report (s : State) (nonce : List Byte) : List Byte :=
  let body := reportBody s nonce
  let block := reportBlock (Config.freeWord s.free).toNat
  body ++ block ++ fitBytes 96 (Config.attestSign (body ++ block)) ++ leBytes 32 0

/-- A host address in two words. -/
def addrOf (lo hi : Nat) : Nat := lo + hi * 4294967296

/-- ATTEST: the report is written where its buffer holds it. -/
def runAttest (args : List Nat) (s : State) : Nat × List Word × State :=
  let a (i : Nat) : Nat := args.getD i 0
  let r := report s ((args.take 8).flatMap fun w => leBytes 4 w)
  let size := BitVec.ofNat 32 r.length
  let at_ := addrOf (a 8) (a 9)
  if at_ % 64 ≠ 0 then (0x0103, [], s)
  else if a 10 < r.length then (0x0103, [size], s.took)
  else (0, [size], (s.hostWrite at_ r).took)

def execAttest (s : State) : Res := .next (loupeWord 2 11 runAttest s)

/-- GET_CERT. -/
def runGetCert (args : List Nat) (s : State) : Nat × List Word × State :=
  let a (i : Nat) : Nat := args.getD i 0
  let der := certificate (a 0)
  let at_ := addrOf (a 1) (a 2)
  if 2 < a 0 ∨ at_ % 64 ≠ 0 then (0x0103, [], s)
  else if a 3 < der.length then (0x0103, [BitVec.ofNat 32 der.length], s)
  else (0, [BitVec.ofNat 32 der.length], s.hostWrite at_ der)

def execGetCert (s : State) : Res := .next (loupeWord 3 4 runGetCert s)

/-- STAGE_CONFIG, with the bank that Loupe reads from host memory. -/
def runStageConfig (bank : List Byte) (args : List Nat) (s : State) : Nat × List Word × State :=
  let a (i : Nat) : Nat := args.getD i 0
  if addrOf (a 0) (a 1) % 64 ≠ 0 ∨ 2 < a 2 then (0x0103, [], s)
  else
    let r := stageBank bank (if a 2 = 0 then .stage else if a 2 = 1 then .wait else .drain) s
    (if r.2 then 0 else 0x0B01, [], r.1)

def execStageConfig (bank : List Byte) (s : State) : Res :=
  if bank.length ≠ 4096 then .next s else .next (loupeWord 4 3 (runStageConfig bank) s)

/-- Locate turned on or off: a change of the Chassis resource. -/
def setLocate (v : Bool) (s : State) : State :=
  { s with mgmt := { s.mgmt with locate := v, tagChassis := s.mgmt.tagChassis + 1 } }

/-- LOCATE. -/
def execLocate (s : State) : Res :=
  .next (loupeWord 5 1 (fun args s => (0, [], setLocate (bitOf (args.getD 0 0) 0) s)) s)

/-! ### The front panel (R504 to R506, R517) -/

/-- Whether power stages run (R505). -/
def stagesRun (s : State) : Bool := decide (0 < (s.pwr.stages.toList.filter (·.inService)).length)

/-- The POWER LED: off, flashing, on. -/
def powerLed (s : State) : Nat := if !s.boot.standby then 0 else if stagesRun s then 2 else 1

/-- The FAULT LED: DEGRADED, an FRU failed, or fewer than seven fans in service. -/
def faultLed (s : State) : Bool :=
  s.boot.eng == .degraded || (s.pwr.fans.toList.any fun f => f.st == .failed) || (s.pwr.stages.toList.any (·.fault))
  || decide (fansRunning s < 7)

/-- The LOCATE and SAFE LEDs. -/
def locateLed (s : State) : Bool := s.mgmt.locate
def safeLed (s : State) : Bool := s.mgmt.safe

/-- The blue LED of a fan: seven others are in service. -/
def fanLed (s : State) (n : FanId) : Bool :=
  decide (7 ≤ ((List.finRange 8).filter fun k => k != n && (s.pwr.fans[k.val]).st == .running).length)

/-- The blue LED of a stage: ten others are in service. -/
def stageLed (s : State) (k : StageId) : Bool :=
  decide (10 ≤ ((List.finRange 12).filter fun j => j != k && (s.pwr.stages[j.val]).inService).length)

/-- The state that line 1 of the display shows after the engine ID. -/
def panelState (s : State) : String :=
  if s.mgmt.presence then "PRESENCE"
  else if s.boot.phase = 4 then "PERMIT WAIT"
  else if s.boot.phase < 4 then "STANDBY"
  else match s.boot.eng with
    | .bringup => "BRINGUP"
    | .reduced => "REDUCED"
    | .full => "FULL"
    | .degraded => "DEGRADED"
    | .draining => "DRAINING"

/-- Line 1: the engine ID and the state; line 2: the most recent code that the panel shows, and their number since RESUME. -/
def panelLine1 (s : State) : Nat × String := (s.eng.cfg.engineId.toNat, panelState s)
def panelLine2 (s : State) : BitVec 16 × Nat := (s.mgmt.panelCode, s.mgmt.panelCount)

/-- LOCATE_PRESS. -/
def execLocatePress (s : State) : Res :=
  if !loupeUp s || s.mgmt.panelLock then .next s else .next (setLocate (!s.mgmt.locate) s)

/-- LOCATE_HOLD: the presence window opens, whatever PanelLock says. -/
def execLocateHold (s : State) : Res :=
  if !loupeUp s then .next s else .next { s with mgmt := { s.mgmt with presence := true } }

/-- PRESENCE_WINDOW_EXPIRE. -/
def execPresenceWindowExpire (s : State) : Res := .next { s with mgmt := { s.mgmt with presence := false } }

/-- DRAIN_PRESS: further presses have no effect while its drain lasts. -/
def execDrainPress (s : State) : Res :=
  if !loupeUp s || s.mgmt.panelLock || s.eng.drains.button then .next s
  else .next (drainBegin (fun d => { d with button := true }) s)

/-- DRAIN_HOLD: once the module is drained, permission is revoked locally. -/
def execDrainHold (s : State) : Res :=
  if !loupeUp s || s.mgmt.panelLock || !(drainOn s && s.eng.drains.reached) then .next s else .next (powerDown false s)

/-- Whether a PATCH is taken: it carries no If-Match, or the resource's ETag has not changed; else it is refused with HTTP 412 (R501). -/
def patchOk {α : Type} (p : Patch α) (tag : Nat) : Bool :=
  match p.ifMatch with
  | none => true
  | some t => t == tag

/-- SET_PANEL_LOCK: a PATCH of the Chassis resource, which may set the Locate indicator too (R502). -/
def execSetPanelLock (v : Patch ChassisSet) (s : State) : Res :=
  let m := s.mgmt
  if !loupeUp s then .next s
  else if !patchOk v m.tagChassis then .next (redfish false s)
  else .next (redfish true { s with mgmt := { m with
    panelLock := v.v.panelLock.getD m.panelLock, locate := v.v.locate.getD m.locate, tagChassis := m.tagChassis + 1 } })

/-! ### Keys and counters (R510, R513, R516, R517) -/

/-- ENROLL_KEY: into an empty slot, while the presence window is open. -/
def execEnrollKey (slot : BitVec 8) (pub : List Byte) (s : State) : Res :=
  if !loupeUp s then .next s
  else if h : slot.toNat < 8 then
    if s.mgmt.presence && (s.mgmt.keyIds[slot.toNat]).isEmpty && pub.length == 96 then
      .next (redfish true { s with mgmt := { s.mgmt with keyIds := s.mgmt.keyIds.set slot.toNat (sha384 pub) } })
    else .next (redfish false s)
  else .next (redfish false s)

/-- REVOKE_KEY: of an operator slot that is enrolled, or of a firmware key. -/
def execRevokeKey (slot : BitVec 8) (s : State) : Res :=
  if !loupeUp s then .next s
  else
    let n := slot.toNat
    let m := s.mgmt
    if n < 8 ∧ !(m.keyIds.toList.getD n []).isEmpty then
      .next (redfish true { s with mgmt := { m with opRevoked := m.opRevoked ||| (1#8 <<< n) } })
    else if 0xF0 ≤ n ∧ n < 0xF4 then
      .next (redfish true { s with mgmt := { m with fwRevoked := m.fwRevoked ||| (1#4 <<< (n - 0xF0)) } })
    else .next (redfish false s)

/-- RAISE_OBJECT_VERSION: from the current value to 128. -/
def execRaiseObjectVersion (v : Nat) (s : State) : Res :=
  if !loupeUp s then .next s
  else if s.mgmt.ctrObject ≤ v ∧ v ≤ 128 then .next (redfish true { s with mgmt := { s.mgmt with ctrObject := v } })
  else .next (redfish false s)

/-! ### Clients, clock and certificates (R500) -/

/-- CLOCK_SET, in s: a PATCH of the Manager resource. -/
def execClockSet (time : Patch Nat) (s : State) : Res :=
  let m := s.mgmt
  if !loupeUp s then .next s
  else if !patchOk time m.tagManager then .next (redfish false s)
  else .next (redfish true { s with mgmt := { m with
    clock := some time.v, clockAt := nowMs s, lastTime := time.v, tagManager := m.tagManager + 1 } })

/-- The certificates of a chain up to its CA, where each is issued by the next one, and the last is a CA certificate installed, or is
issued by one, which then ends the chain. -/
def chainTo (cas : List Cert) : List Cert → Option (List Cert)
  | [] => none
  | [c] =>
    if !c.signatureOk then none
    else if cas.any fun a => a.id == c.id then some [c]
    else (cas.find? fun a => a.id == c.issuer).map fun a => [c, a]
  | c :: d :: t => if c.signatureOk && c.issuer == d.id then (chainTo cas (d :: t)).map (c :: ·) else none

/-- Whether a certificate is within its validity period; until the clock is set, only notBefore is checked, against the last time recorded. -/
def certValid (s : State) (c : Cert) : Bool :=
  match clockNow s with
  | some now => decide (c.notBefore ≤ now) && decide (now ≤ c.notAfter)
  | none => decide (c.notBefore ≤ s.mgmt.lastTime)

/-- Whether a chain is one that Loupe accepts: it ends at an installed CA, and no certificate of it is on a CRL or outside its validity. -/
def chainOk (s : State) (chain : List Cert) : Bool :=
  match chainTo s.mgmt.cas chain with
  | some l => l.all fun c => !s.mgmt.crl.contains c.id && certValid s c
  | none => false

/-- Whether a connection is one that the ports support (R499): on a port with link, Redfish over HTTPS, with what is supported of TLS. -/
def offerOk (s : State) (c : Client) : Bool :=
  s.mgmt.links.getLsbD c.port.val && c.service == .redfish && c.tls13 && c.cipherOk && c.groupOk && c.signatureOk

/-- A property of a resource that is a natural number, and one that is true or false. -/
def prop (name : String) (n : Nat) : String × Int := (name, n)
def flag (name : String) (b : Bool) : String × Int := prop name (b2n b)

/-- The properties of a resource (R502). The names are the model's (DESIGN CHOICE, log entry 89). -/
def resourceFields (s : State) (r : Resource) : List (String × Int) :=
  let m := s.mgmt
  let p := s.pwr
  let b := s.boot
  match r with
  | .chassis => [prop "MassKg" 96, prop "RackPosition" s.eng.cfg.rackPosition, flag "Locate" m.locate, flag "PanelLock" m.panelLock,
      flag "Permission" m.permit, prop "ETag" m.tagChassis]
  | .powerSubsystem =>
      (p.feeds.toList.flatMap fun f => [prop "FeedState" (feedCode f.st), prop "FeedVolt" f.volt, prop "FeedPower" f.power])
      ++ (p.stages.toList.flatMap fun x => [flag "StagePresent" x.present, flag "StageInService" x.inService, flag "StageFault" x.fault])
      ++ [prop "InputMw" (p.p1 * 1000), prop "FloorMw" (effFloor s), prop "CeilingMw" p.ceilMw, prop "Limit" p.bind,
        prop "RampUpW" (p.rampUp.getD s.eng.cfg.rampUpW), prop "RampDownW" (p.rampDown.getD s.eng.cfg.rampDownW),
        prop "PowerCapW" (p.cap.getD s.eng.cfg.powerCapW)]
  | .thermalSubsystem =>
      (p.fans.toList.flatMap fun f => [prop "FanState" (fanCode f.st), prop "FanRpm" f.rpm])
      ++ [prop "FanDuty" p.fanDuty, ("Inlet", p.inlet), ("Outlet", p.outlet), ("Sink", p.sink)]
      ++ ((List.finRange 50).flatMap fun t =>
        let x := s.tiles[t.val]
        [("DieMax", hottest t.val x.diodes), ("Layer0Max", hottest (64 + t.val) (quadList x.layer0.temp)),
          ("Layer1Max", hottest (128 + t.val) (quadList x.layer1.temp))])
      ++ ((List.finRange 768).map fun ci => prop "Rung" (s.cluster ci).rung)
  | .manager => [prop "Links" m.links.toNat, flag "ClockSet" (clockNow s).isSome, prop "Clock" ((clockNow s).getD 0), prop "ETag" m.tagManager,
      prop "EngineId" s.eng.cfg.engineId.toNat, flag "LivePending" b.livePending, flag "ColdPending" b.coldPending]
  | .updateService =>
      (match b.fwInForce with | some x => [prop "FirmwareVersion" x.bundle.version.toNat] | none => [])
      ++ (match b.fwOther with | some x => [prop "OtherVersion" x.bundle.version.toNat, flag "Failed" x.failed] | none => [])
      ++ [flag "Pending" b.fwPending]
  | .certificateService => (m.cas.map fun c => prop "CA" c.id) ++ (m.crl.map (prop "Revoked"))
      ++ (match m.tlsCert with | some n => [prop "TLS" n] | none => []) ++ [prop "CSRs" m.csrs]
  | .componentIntegrity => m.measures.map fun x => prop "Measurement" x.ty
  | .eventService => m.subs.map fun x => prop "Subscription" x.id
  | .logService => [prop "Entries" m.log.length]
  | .securityService => [prop "Enrolled" (bitList (m.keyIds.toList.map fun k => !k.isEmpty)), prop "Revoked" m.opRevoked.toNat,
      prop "FirmwareRevoked" m.fwRevoked.toNat, prop "Loupe" m.ctrLoupe, prop "Shuttle" m.ctrShuttle, prop "Core" m.ctrCore,
      prop "Object" m.ctrObject]

/-- A request of a client that has no row of its own (R500, R502, R503, R518, R519). -/
def serveAsk (a : Ask) (s : State) : State :=
  match a with
  | .read r =>
    let s1 := s.emit (.resource r (resourceFields s r))
    if r = .logService then s1.emit (.events s.mgmt.log) else s1
  | .report nonce => (s.emit (.report (report s nonce))).took
  | .chain => s.emit (.chain [certificate 0, certificate 1, certificate 2])
  | .csr => ({ s with mgmt := { s.mgmt with csrs := s.mgmt.csrs + 1 } } : State).emit (.csr s.mgmt.csrs)
  | .stream => { s with mgmt := { s.mgmt with streams := s.mgmt.streams + 1 } }

/-- CLIENT_CONNECT: a client is accepted, and its requests are served in order, or it is refused (R499, R500, R501). Requests that the opcode
table gives no row are carried by the connection that makes them (DESIGN CHOICE, log entry 89). -/
def execClientConnect (c : Client) (s : State) : Res :=
  if !loupeUp s then .next s
  else if offerOk s c && chainOk s c.chain then
    .next (c.asks.foldl (fun s a => serveAsk a s) (redfish true { s with mgmt := { s.mgmt with clients := s.mgmt.clients + 1 } }))
  else .next (redfish false s)

/-- INSTALL_CERTIFICATE. A TLS server certificate is one issued against a CSR that Loupe has given out (R500). -/
def execInstallCertificate (k : CertItem) (s : State) : Res :=
  if !loupeUp s then .next s
  else
    let m := s.mgmt
    match k with
    | .ca c => .next (redfish true { s with mgmt := { m with cas := if m.cas.contains c then m.cas else m.cas ++ [c] } })
    | .crl ids => .next (redfish true { s with mgmt := { m with crl := (m.crl ++ ids).eraseDups } })
    | .tlsServer id csr =>
      if csr < m.csrs then .next (redfish true { s with mgmt := { m with tlsCert := some id } }) else .next (redfish false s)

/-! ### Events (R503) -/

/-- EVENT_SUBSCRIPTION: up to 16 are kept. -/
def execEventSubscription (create : Bool) (sub : Nat) (s : State) : Res :=
  if !loupeUp s then .next s
  else
    let m := s.mgmt
    let has := m.subs.any fun x => x.id == sub
    if create then
      if has ∨ 16 ≤ m.subs.length then .next (redfish false s)
      else .next (redfish true { s with mgmt := { m with subs := m.subs ++ [{ id := sub }] } })
    else if has then .next (redfish true { s with mgmt := { m with subs := m.subs.filter fun x => x.id != sub } })
    else .next (redfish false s)

/-- What a subscription keeps after a retry of an event: it is retried up to three times, and then dropped. Events that have left the log
are forgotten. -/
def afterRetry (events n : Nat) (e : Event) (tries : Nat) (l : List (Nat × Event × Nat)) : List (Nat × Event × Nat) :=
  (n, e, tries) :: l.filter fun x => x.1 != n && decide (events < x.1 + 4096)

/-- EVENT_PUSH_RETRY: a push that failed is made again, unless its event has been delivered or dropped for the subscription. -/
def execEventPushRetry (p : PushOf) (delivered : Bool) (s : State) : Res :=
  if !loupeUp s then .next s
  else
    let m := s.mgmt
    match m.subs.find? (fun x => x.id == p.sub), m.log[p.back]? with
    | some x, some e =>
      let n := m.events - 1 - p.back
      let tries := match x.failed.find? fun y => y.1 == n with | some y => y.2.2 | none => 0
      if 3 ≤ tries then .next s
      else
        let failed := afterRetry m.events n e (if delivered then 3 else tries + 1) x.failed
        let s1 : State := { s with mgmt := { m with subs := m.subs.map fun y => if y.id = p.sub then { y with failed := failed } else y } }
        .next (s1.emit (.push p.sub e))
    | _, _ => .next s

/-! ### The cartridge (R464, R494, R540, R542) -/

/-- The cartridge changed: a pending bank is forgotten. While Loupe works it keeps its management store, and writes it into a cartridge that
is fitted; else what is fitted brings its own (DESIGN CHOICE, log entry 88). -/
def changeCart (c : Option Cartridge) (s : State) : State :=
  let store : Store := match c with | some x => x.store | none => {}
  { s with
    boot := { s.boot with cart := c, pendBank := none, livePending := false, coldPending := false },
    mgmt := if loupeUp s then s.mgmt else takeStore store s.mgmt }

/-- CARTRIDGE_INSERT: Loupe writes the repair record that it holds, at once or when it can again; where it waits at step 3 for a cartridge, it
goes on. -/
def execCartridgeInsert (c : Cartridge) (s : State) : Res :=
  let b := s.boot
  if b.cart.isSome then .next s
  else if b.standby && b.phase == 2 && !b.recovery && !b.loupeDown then .next (loupeRuns (changeCart (some c) s))
  else if loupeUp s then .next (writeRecord (changeCart (some c) s))
  else
    let s1 := changeCart (some c) s
    .next { s1 with boot := { s1.boot with recordDue := b.standby && decide (4 ≤ b.phase) } }

/-- CARTRIDGE_REMOVE. -/
def execCartridgeRemove (s : State) : Res := if s.boot.cart.isNone then .next s else .next (changeCart none s)

end Sys2Proof.Machine
end

