-- ==== Sys2Proof/Machine/Power.lean ====
section
/-! DEFINITION. Power and cooling (R419 to R440): feeds, stages, eFuses, the 1 ms sample with its floor, ceiling, ballast and duty cap, the
throttle ladder, and fans. Powers are computed in mW. -/

namespace Sys2Proof.Machine

open Sys2Proof

/-! ### Limits (R424, R425, R429, R430, R438, R439) -/

def rampUpOf (s : State) : Nat := s.pwr.rampUp.getD s.eng.cfg.rampUpW
def rampDownOf (s : State) : Nat := s.pwr.rampDown.getD s.eng.cfg.rampDownW
def capOf (s : State) : Nat := s.pwr.cap.getD s.eng.cfg.powerCapW

def feedsIn (s : State) : Nat := (s.pwr.feeds.toList.filter fun f => f.st == .inService).length
def stagesIn (s : State) : Nat := (s.pwr.stages.toList.filter (·.inService)).length

/-- The mean of some samples, in mW. -/
def meanMw (l : List Nat) : Nat := if l.isEmpty then 0 else l.foldl (· + ·) 0 * 1000 / l.length

/-- Q_cap, with the inlet in 1/16 °C. -/
def qCap (fans : Nat) (inlet : Int) : Nat := min fans 7 * 18000000 * min 304 (864 - inlet).toNat / (7 * 304)

/-- The thermal limit. -/
def thermLimit (s : State) : Nat :=
  let q := qCap (fansRunning s) s.pwr.inlet
  if meanMw s.pwr.last60 < q then 20000000 * q / 18000000 else q

/-- The matrix duty of a rung, of 16 cycles (R434). -/
def ladderDuty (rung : Nat) : Nat := match rung with | 0 => 16 | 1 => 12 | 2 => 8 | _ => 4

/-- The ballast that a cluster draws at a duty: 0.22 W for each core at 2.0 GHz and full duty (R428). -/
def ballastAt (k : Cluster) (duty : Nat) : Nat := 14080 * rateOf k.clock * duty / 320

/-- The ballast that a cluster can draw, under its ladder duty and D_ENG. -/
def clusterArm (s : State) (k : Cluster) : Nat := ballastAt k (min s.eng.duty (ladderDuty k.rung))

/-- The clusters of the tiles in service. -/
def servedClusters (s : State) : List ClusterId := (List.finRange 768).filter fun ci => inService s (ci.val / 16)

/-- K_b: the ballast capacity at the clocks and ladder duties, whatever D_ENG is. -/
def ballastCapacity (s : State) : Nat :=
  (servedClusters s).foldl (fun n ci => n + ballastAt (s.cluster ci) (ladderDuty (s.cluster ci).rung)) 0

/-- The ballast that the module can draw now. -/
def ballastRoom (s : State) : Nat := (servedClusters s).foldl (fun n ci => n + clusterArm s (s.cluster ci)) 0

/-- The ballast-reserve limit. -/
def reserveLimit (s : State) : Nat :=
  s.pwr.rest * 1000 + min (ballastCapacity s) (isqrt 40 (20000 * rampDownOf s * budgetLeft s) 0)

/-- The limits that apply, each with its code in PT_LIMIT.BIND. -/
def limits (s : State) : List (Nat × Nat) :=
  let p := s.pwr
  (if p.exemptMs = 0 then [(1, p.rampMw)] else [])
  ++ [(2, match feedsIn s with | 0 => 0 | 1 => 11500000 | _ => 20000000), (3, 2000000 * stagesIn s), (4, p.thermMw), (5, p.capMw)]
  ++ (if s.eng.cfg.ballastReserve && s.eng.cfg.ballastBudgetKj != 0 then [(6, reserveLimit s)] else []) ++ [(7, 20000000)]

/-- The smallest limit, the first of equal ones. -/
def smallest : List (Nat × Nat) → Nat × Nat
  | [] => (0, 20000000)
  | [x] => x
  | x :: t => let y := smallest t; if x.2 ≤ y.2 then x else y

/-- An exempt event: F and C begin anew from the next P10 (R431). -/
def freshHistory (s : State) : State := { s with pwr := { s.pwr with floorMw := 0, rampMw := 20000000 } }

/-! ### The sample (R424 to R432) -/

/-- The readings of a tile. -/
def tileSample (x : TileSample) (s : State) : State :=
  let t := s.tiles[x.t.val]
  let layer (l : DramLayer) (q : QuadTemp) (free : Nat) : DramLayer :=
    { l with temp := q, hotMs := if l.hot ∧ 1520 ≤ layerTemp free q then l.hotMs + 1 else 0 }
  let group (t : PTile) : List (Option Int) := t.diodes ++ quadList t.layer0.temp ++ quadList t.layer1.temp
  let t1 : PTile := { t with
    diodes := x.diodes, layer0 := layer t.layer0 x.mem0 (layerFree x.t 0), layer1 := layer t.layer1 x.mem1 (layerFree x.t 1),
    current := x.current, voltage := x.voltage }
  let s1 := sensorEvents (group t) (group t1) (s.setTile x.t t1)
  match servesOf s x.t, s.eng.pass with
  | some pt, some _ =>
    let i := placeTile s.eng.placement pt.val
    let es := s1.eng.energy ++ List.replicate (48 - s1.eng.energy.length) 0
    { s1 with eng := { s1.eng with energy := es.set i (es.getD i 0 + x.energy) } }
  | _, _ => s1

/-- What the sample measures. -/
def takeSample (t : TickSample) (s : State) : State :=
  let p := s.pwr
  let p1 := t.powerA + t.powerB
  let feeds := (p.feeds.set 0 { p.feeds[0] with volt := t.voltA, power := t.powerA }).set 1 { p.feeds[1] with volt := t.voltB, power := t.powerB }
  let fans := t.fans.foldl (fun (v : Vector Fan 8) f => v.set f.n.val { v[f.n.val] with rpm := f.rpm }) p.fans
  t.tiles.foldl (fun s x => tileSample x s) { s with pwr := { p with
    feeds := feeds, fans := fans, p1 := p1, last10 := (p1 :: p.last10).take 10, last60 := (p1 :: p.last60).take 60000, rest := t.rest,
    inlet := t.inlet, outlet := t.outlet, sink := t.sink, ballast := ballastDrawn s, drawn := ((ballastDrawn s / 1000) :: p.drawn).take 3600000 } }

/-- F, the ramp limit, the rack manager's limit and the thermal limit; a change of the thermal limit is an exempt event, and while the ramp
limits do not apply F and the ramp limit begin anew with every sample (R421, R431). -/
def moveLimits (s : State) : State :=
  let p := s.pwr
  let p10 := meanMw p.last10
  let therm := thermLimit s
  let up := 10 * rampUpOf s
  let down := 10 * rampDownOf s
  let target := capOf s * 1000
  let fresh := therm != p.thermMw || p.exemptMs != 0
  { s with pwr := { p with
    thermMw := therm, floorMw := if fresh then p10 else max p10 (p.floorMw - down), rampMw := if fresh then p10 else min p10 (p.rampMw + up),
    capMw := if target < p.capMw then max target (p.capMw - down) else min target (p.capMw + up), exemptMs := p.exemptMs - 1 } }

/-- C, and the limit that sets it. -/
def setCeiling (s : State) : State :=
  let m := smallest (limits s)
  { s with pwr := { s.pwr with ceilMw := m.2, bind := m.1, thermMs := if m.1 = 4 then s.pwr.thermMs + 1 else 0 } }

/-- A cluster placed among those that take ballast: by rising rung, then by rising temperature. -/
def insertArm (x : Nat × Int × Nat × Nat) : List (Nat × Int × Nat × Nat) → List (Nat × Int × Nat × Nat)
  | [] => [x]
  | y :: t => if x.1 < y.1 ∨ (x.1 = y.1 ∧ x.2.1 ≤ y.2.1) then x :: y :: t else y :: insertArm x t

/-- Ballast given out in order, as cluster and power. -/
def giveArms : Nat → List (Nat × Int × Nat × Nat) → List (Nat × Nat)
  | _, [] => []
  | n, (_, _, ci, room) :: t => if n = 0 then [] else (ci, min n room) :: giveArms (n - min n room) t

/-- The clusters of the tiles in service that take ballast, in the order of R427, each with what it can draw. -/
def armOrder (s : State) : List (Nat × Int × Nat × Nat) :=
  let one (ci : ClusterId) : Nat × Int × Nat × Nat :=
    let t := physCi s ci
    ((s.cluster ci).rung, dieTemp t s.tiles[t.val] (ci.val % 16), ci.val, clusterArm s (s.cluster ci))
  (servedClusters s).foldl (fun l ci => insertArm (one ci) l) []

/-- Ballast given out in the order of R427, as power by cluster. -/
def spread (total : Nat) (order : List (Nat × Int × Nat × Nat)) : Tab Nat :=
  (giveArms total order).foldl (fun t e => tabSet t e.1 e.2) []

/-- What two tables hold together. -/
def addTabs (a b : Tab Nat) : Tab Nat := b.foldl (fun t e => tabSet t e.1 (tabGet 0 t e.1 + e.2)) a

/-- Whether ballast may be drawn (R428, R429, R439). -/
def ballastOn (s : State) : Bool := s.eng.cfg.ballastBudgetKj != 0 && decide (0 < budgetLeft s) && cooled s

/-- Ballast for the next ms (R427): what cycles that are idle now draw, given to the clusters with no matrix work first, and armed beside
it, in the clusters that have some, what would replace V, the load that would vanish at a stop. The division between clusters within the
order of R427 is a DESIGN CHOICE (log entry 82). -/
def setBallast (s : State) : State :=
  let p := s.pwr
  let order := if ballastOn s then armOrder s else []
  let busy := busyClusters s
  let work := order.filter fun x => busy.contains x.2.2.1
  let idle := order.filter fun x => !busy.contains x.2.2.1
  let room (l : List (Nat × Int × Nat × Nat)) : Nat := l.foldl (fun n x => n + x.2.2.2) 0
  let now := min (room order) (effFloor s - (p.p1 * 1000 - p.ballast))
  let first := spread (min now (room idle)) idle
  let nows := addTabs first (spread (now - min now (room idle)) work)
  let left := work.map fun x => (x.1, x.2.1, x.2.2.1, x.2.2.2 - tabGet 0 nows x.2.2.1)
  { s with pwr := { p with ballast := now, nows := nows, arms := addTabs nows (spread (p.p1 * 1000 - p.rest * 1000 - p.ballast) left) } }

/-- An island raises its clock as soon as its target rises. -/
def raiseClock (s : State) (k : Cluster) : Cluster :=
  let c := clockTarget s k
  if c.toNat < k.clock.toNat then { k with clock := c } else k

/-- Islands whose target has risen raise their clock (R436). -/
def raiseClocks (s : State) : State := { s with clusters := s.clusters.map fun e => (e.1, raiseClock s e.2) }

/-- D_ENG trimmed by a step (R426): it is raised while it holds matrix work back. The last resort ends when D_ENG rises again. -/
def trimDuty (s : State) : State :=
  let p := s.pwr
  let p10 := meanMw p.last10
  let d := s.eng.duty
  let heldBack := decide (d < 16) && !(busyClusters s).isEmpty
  let n := if p.ceilMw < p10 + 200000 then max 1 (d - 1) else if p10 + 800000 < p.ceilMw && heldBack then min 16 (d + 1) else d
  let s1 : State := { s with
    eng := { s.eng with duty := n },
    pwr := { p with dutyMs := if n = 1 then p.dutyMs + 1 else 0, lastResort := p.lastResort && n == 1 } }
  if p.lastResort && n != 1 then raiseClocks s1 else s1

/-- RAMP_EXCEEDED: recorded once until P10 has been back within bounds for 1 s (R431). -/
def watchRamp (s : State) : State :=
  let p := s.pwr
  let p10 := meanMw p.last10
  let out := p.exemptMs == 0 && ((s.eng.cfg.ballastBudgetKj != 0 && decide (p10 + 500000 < effFloor s)) || decide (p.ceilMw + 500000 < p10))
  let n := if out then p.outMs + 1 else 0
  let back := if out then 0 else p.inMs + 1
  let kept := p.rampRecorded && decide (back < 1000)
  let due := decide (10 ≤ n) && !kept
  let s1 : State := { s with pwr := { p with outMs := n, inMs := back, rampRecorded := kept || due } }
  if due then rampExceeded s1 else s1

/-- The duty of the fans: 100 % while one is missing or has failed, and while the heat-sink base stands above 65 °C or the outlet above 54 °C;
else one that holds these limits, which is left open, from 20 % to 100 % (R437, R537). -/
def setFans (s : State) : State :=
  let w := (Config.freeWord s.free).toNat
  let full := decide (fansRunning s < 8) || decide (1040 < s.pwr.sink) || decide (864 < s.pwr.outlet)
  ({ s with pwr := { s.pwr with fanDuty := if full then 100 else 20 + w % 81 } } : State).took

/-- Whether a cause of COOLING_DEGRADED is present (R440). -/
def coolingCause (s : State) : Bool :=
  decide (10000 ≤ s.pwr.thermMs) || (s.clusters.any fun e => decide (10000 ≤ e.2.lowMs)) || decide (fansRunning s < 7)

/-- The timers of R440. -/
def coolingTimers (s : State) : State :=
  let low (e : Nat × Cluster) : Nat × Cluster := (e.1, { e.2 with lowMs := if 3 ≤ e.2.rung then e.2.lowMs + 1 else 0 })
  let s1 : State := { s with clusters := s.clusters.map low }
  { s1 with pwr := { s1.pwr with freeMs := if coolingCause s1 then 0 else s1.pwr.freeMs + 1 } }

/-- Both feeds have been lost, and the store is spent: standby goes too (R421). -/
def feedsSpent (s : State) : Bool := s.boot.earlyBreak && s.pwr.feeds.toList.all fun f => f.st == .lost

/-- The pins of the module as the sample finds them: the links of MGT0 and MGT1, which run at 1000 Mb/s only (R499, R523), and PERST#, whose
assertion is a conventional reset and holds the link in reset until it ends (R390, R531). -/
def takePins (t : TickSample) (s : State) : State :=
  let links := BitVec.ofNat 2 (b2n (t.mgt0 == 1000) + 2 * b2n (t.mgt1 == 1000))
  let was := linkHeld s
  let s1 : State := { s with
    host := { s.host with perst0 := t.perst0, perst1 := t.perst1 }, mgmt := { s.mgmt with links := links } }
  if linkHeld s1 = was ∨ !dieUp s1 then s1
  else if was then { s1 with host := { s1.host with linkUp := true } }
  else resetHost s1

/-- LOUPE_TICK. While Loupe does not run, D_ENG and ballast hold their last values (R470, R491). -/
def execLoupeTick (t : TickSample) (s : State) : Res :=
  if !s.boot.standby then .next s
  else if feedsSpent s then .next (coldState false s)
  else
    let s0 := takePins t s
    let s1 : State := { s0 with mgmt := { s0.mgmt with uptime := s0.mgmt.uptime + 1 } }
    if !loupeUp s1 then .next s1
    else
      .next (coolingTimers (setFans (watchRamp (trimDuty (setBallast (setCeiling (moveLimits (takeSample t s1))))))))

/-- DUTY_LAST_RESORT: D_ENG has stood at 1 for 100 ms, and P10 still exceeds C. -/
def execDutyLastResort (s : State) : Res :=
  let p := s.pwr
  if s.eng.duty = 1 ∧ 100 ≤ p.dutyMs ∧ p.ceilMw < meanMw p.last10 then .next { s with pwr := { p with lastResort := true } } else .next s

/-! ### Feeds and stages (R420 to R422, R491) -/

/-- A feed that becomes LOST. -/
def loseFeed (was : FeedState) (s : State) : State :=
  let s1 := advisory 0x0A01 (powerCode 0x0A01 s)
  let s2 := if was = .inService then freshHistory { s1 with pwr := { s1.pwr with exemptMs := 1000 } } else s1
  if (s2.pwr.feeds.toList.all fun f => f.st == .lost) && !s2.boot.earlyBreak && s2.boot.standby then pullSled s2 else s2

/-- FEED_VOLTAGE_CHANGE. -/
def execFeedVoltageChange (f : FeedId) (dV : Nat) (s : State) : Res :=
  let p := s.pwr
  let x := p.feeds[f.val]
  let good := decide (640 ≤ dV) && decide (dV ≤ 780)
  let st : FeedState := if good then (if x.st = .lost then .qualifying else x.st) else .lost
  let s1 : State := { s with pwr := { p with feeds := p.feeds.set f.val { x with volt := dV, st := st } } }
  if x.st ≠ .lost ∧ st = .lost then .next (loseFeed x.st s1) else .next s1

/-- FEED_QUALIFIED: the feed limit is lifted. -/
def execFeedQualified (f : FeedId) (s : State) : Res :=
  let p := s.pwr
  let x := p.feeds[f.val]
  if x.st ≠ .qualifying then .next s
  else .next (bringUp (freshHistory { s with pwr := { p with feeds := p.feeds.set f.val { x with st := .inService } } }))

/-- Vector 0 for tiles that have left service in BRINGUP; a change of STATE has been sent already. -/
def noteTiles (was s : State) : State := if was.boot.eng = .bringup then noteEngine was s else s

/-- With fewer than two stages in service every tile goes off, and bring-up resumes at step 7 once two are back, through reduced service, with
its cap on the ports (R458, R491). A port that is ACTIVE on 8 lanes keeps them until it trains again (DEDUCED, log entry 88). -/
def stagesCheck (s : State) : State :=
  if s.boot.phase < 6 ∨ 2 ≤ stagesIn s then s
  else
    let s1 := match s.eng.lp with
      | some lp => if lp.started then shuttleAbort 0x0A05 s else endPassBy 0x0A05 s
      | none => endPassBy 0x0A05 s
    let s2 := (List.finRange 48).foldl (fun s pt => if tileUnserved s pt then s else unserveTile pt (dropTile pt s)) (powerCode 0x0A05 s1)
    let s3 := noteTiles s (setEngine .bringup { s2 with
      tiles := s2.tiles.map tileOff, ports := s2.ports.map fun x => { x with capped := true, widenDue := false } })
    { s3 with boot := { s3.boot with phase := 5, wave := 0, extraWave := [], calibrated := false, restoring := true } }

/-- A stage leaves service: an exempt event. -/
def stageLeaves (k : StageId) (x : Stage) (s : State) : State :=
  let was := (s.pwr.stages[k.val]).inService
  let s1 : State := { s with pwr := { s.pwr with stages := s.pwr.stages.set k.val x } }
  if was then stagesCheck (freshHistory (logNamed "PowerStageDeparture" s1)) else s1

/-- PWR_STAGE_FAULT. -/
def execPwrStageFault (k : StageId) (s : State) : Res :=
  let x := s.pwr.stages[k.val]
  if !x.inService then .next s
  else .next (advisory 0x0A02 (powerCode 0x0A02 (stageLeaves k { x with inService := false, fault := true } s)))

/-- STAGE_LATCH_OPEN: the departure that the latch announces records no code. -/
def execStageLatchOpen (k : StageId) (s : State) : Res := .next (stageLeaves k { present := false } s)

/-- STAGE_JOIN: a stage that has been inserted joins, where the stages run and permission stands (R450). -/
def execStageJoin (k : StageId) (s : State) : Res :=
  let p := s.pwr
  let x : Stage := { present := true, inService := decide (5 ≤ s.boot.phase) && s.mgmt.permit && s.boot.powerDown == 0 }
  .next (bringUp { s with pwr := { p with stages := p.stages.set k.val x } })

/-! ### eFuses (R423) -/

def tripEfuse : TripCause → Efuse
  | .short => .short
  | .overload => .overload
  | .dieTemp => .dieTemp

/-- EFUSE_TRIP. -/
def execEfuseTrip (t : PhysTile) (cause : TripCause) (s : State) : Res :=
  if !(s.tiles[t.val]).powered then .next s else .next (tripTile t (tripEfuse cause) 0x0A05 (powerCode 0x0A05 s))

/-! ### The throttle ladder (R432 to R436) -/

/-- Whether the ladder acts on a cluster, whatever its stress: a layer of its tile has stayed at or above 95 °C for 100 ms after it was
reported hot. -/
def layerActs (x : PTile) : Bool :=
  (x.layer0.hot && decide (100 ≤ x.layer0.hotMs)) || (x.layer1.hot && decide (100 ≤ x.layer1.hotMs))

/-- A cluster after one evaluation of 10 ms, given its stress in 1/16 K. -/
def stepRung (acts : Bool) (stress : Int) (k : Cluster) : Cluster :=
  if acts then
    let hot := k.hotMs + 10
    if k.rung < 3 ∨ (k.rung < 6 ∧ 100 ≤ hot) then { k with rung := k.rung + 1, hotMs := 0, coolMs := 0 }
    else { k with hotMs := hot, coolMs := 0 }
  else
    let clockRung := decide (4 ≤ k.rung)
    let cool := if stress ≤ (if clockRung then -80 else -48) then k.coolMs + 10 else 0
    if 0 < k.rung ∧ (if clockRung then 1000 else 100) ≤ cool then { k with rung := k.rung - 1, hotMs := 0, coolMs := 0 }
    else { k with hotMs := 0, coolMs := cool }

/-- THERMAL_THROTTLE: the first entry to rung 1 in a pass. -/
def noteThrottle (entries : Nat) (s : State) : State :=
  if entries = 0 then s
  else
    let s1 : State := { s with pwr := { s.pwr with throttleEvents := incW s.pwr.throttleEvents entries } }
    match s1.eng.pass with
    | some p => if p.throttled then s1
      else advisory 0x0A03 (powerCode 0x0A03 { s1 with eng := { s1.eng with pass := some { p with throttled := true } } })
    | none => s1

/-- A cluster of a tile in service evaluated. -/
def throttleCluster (s : State) (ci : ClusterId) : State :=
  let t := physCi s ci
  let x := s.tiles[t.val]
  let k := s.cluster ci
  let stress := stressAt t x (ci.val % 16)
  let k1 := if diodesLost x then { k with rung := 3, hotMs := 0, coolMs := 0 }
    else stepRung (decide (0 ≤ stress) || layerActs x) stress k
  let k2 := raiseClock s k1
  if k2 = k then s else s.setCluster ci k2

/-- TILE_STATE shows a tile as THROTTLED while one of its clusters stands below rung 0. -/
def showThrottle (s : State) (pt : TileId) : State :=
  if !inService s pt.val then s
  else
    let t := physOf s pt
    let low := (tileClusters pt).any fun ci => (s.cluster ci).rung != 0
    s.setTile t { s.tiles[t.val] with st := if low then .throttled else .service }

/-- THROTTLE_EVALUATION. -/
def execThrottleEvaluation (s : State) : Res :=
  let cs := servedClusters s
  let s1 := cs.foldl throttleCluster s
  let entries := (cs.filter fun ci => (s.cluster ci).rung == 0 && (s1.cluster ci).rung != 0).length
  .next ((List.finRange 48).foldl showThrottle (noteThrottle entries s1))

/-! ### Fans and cooling (R437, R440, R540) -/

/-- A fan changes its state, and the rest run at 100 % while one is missing. -/
def setFan (n : FanId) (fitted : Bool) (st : FanState) (s : State) : State :=
  let p := s.pwr
  let s1 : State := { s with pwr := { p with fans := p.fans.set n.val { p.fans[n.val] with fitted := fitted, st := st } } }
  if fansRunning s1 < 8 then { s1 with pwr := { s1.pwr with fanDuty := 100 } } else s1

/-- FAN_FAILURE. -/
def execFanFailure (n : FanId) (s : State) : Res :=
  if (s.pwr.fans[n.val]).st = .running then .next (logNamed "FanFailure" (setFan n true .failed s)) else .next s

/-- FAN_LATCH_OPEN. -/
def execFanLatchOpen (n : FanId) (s : State) : Res :=
  if !(s.pwr.fans[n.val]).fitted then .next s else .next (logNamed "FanRemoved" (setFan n false .absent s))

/-- FAN_INSERT. -/
def execFanInsert (n : FanId) (s : State) : Res :=
  if (s.pwr.fans[n.val]).fitted then .next s
  else .next (bringUp (setFan n true (if 2 ≤ s.boot.phase then .running else .absent) s))

/-- COOLING_DEGRADED. -/
def execCoolingDegraded (s : State) : Res :=
  if s.pwr.degraded || !coolingCause s then .next s
  else
    let s1 : State := { s with pwr := { s.pwr with degraded := true, freeMs := 0 } }
    .next (logNamed "CoolingDegraded" (advisory 0x0A04 (powerCode 0x0A04 s1)))

/-- COOLING_CLEAR: 60 s free of both causes. -/
def execCoolingClear (s : State) : Res :=
  if s.pwr.degraded && decide (60000 ≤ s.pwr.freeMs) && !coolingCause s then
    .next (logNamed "CoolingDegraded: cleared" { s with pwr := { s.pwr with degraded := false } })
  else .next s

/-! ### The rack managers' limits (R430) -/

/-- Whether a limit that is given lies in its range. -/
def limitOk (lo : Nat) : Option Nat → Bool
  | none => true
  | some v => decide (lo ≤ v) && decide (v ≤ 20000)

/-- SET_POWER_LIMITS. -/
def execSetPowerLimits (l : PowerLimits) (s : State) : Res :=
  if !loupeUp s then .next s
  else if !(limitOk 100 l.rampUp && limitOk 100 l.rampDown && limitOk 2500 l.cap) then .next (redfish false s)
  else
    let p := s.pwr
    .next (redfish true { s with pwr := { p with
      rampUp := l.rampUp.or p.rampUp, rampDown := l.rampDown.or p.rampDown, cap := l.cap.or p.cap } })

/-- CLEAR_POWER_LIMITS. -/
def execClearPowerLimits (s : State) : Res :=
  if !loupeUp s then .next s else .next (redfish true { s with pwr := { s.pwr with rampUp := none, rampDown := none, cap := none } })

end Sys2Proof.Machine
end

