-- ==== Sys2Proof/Machine/Queues.lean ====
section
/-! DEFINITION. Command queues (R394, R396 to R398, R404) and the descriptors that signal, wait, copy, fill and switch epochs (R257, R261,
R353, R402, R404, R406). -/

namespace Sys2Proof.Machine

open Sys2Proof

/-! ### Queue registers (R394, R396 to R398) -/

/-- Q_CTL while the queue is not DISABLED: PRIO alone is taken. -/
def setPrio (q : QueueId) (v : BitVec 32) (s : State) : State :=
  s.setQueue q { s.host.queues[q.val] with prio := BitVec.ofNat 2 (bits v.toNat 29 28) }

/-- Q_CTL while the queue is DISABLED: LOG2 is taken too. -/
def setRing (q : QueueId) (v : BitVec 32) (s : State) : State :=
  let s1 := setPrio q v s
  s1.setQueue q { s1.host.queues[q.val] with log2 := BitVec.ofNat 5 (bits v.toNat 4 0) }

/-- A DISABLED queue with ENABLE set (R398). -/
def enableQueue (q : QueueId) (s : State) : State :=
  let x := s.host.queues[q.val]
  let n := x.log2.toNat
  if n < 1 ∨ 16 < n then queueError q 0x0207 s
  else if s.host.abi = 0 then queueError q 0x0205 s
  else s.setQueue q { x with st := .active, enable := true, head := 0, tail := 0, done := 0 }

/-- QUEUE_ENABLE: Q_CTL written with ENABLE = 1. -/
def execQueueEnable (q : QueueId) (v : BitVec 32) (s : State) : Res :=
  if !hostUp s || !v.getLsbD 31 then .next s
  else if (s.host.queues[q.val]).st = .disabled then .next (enableQueue q (setRing q v s))
  else .next (setPrio q v s)

/-- QUEUE_DISABLE: Q_CTL written with ENABLE = 0. -/
def execQueueDisable (q : QueueId) (v : BitVec 32) (s : State) : Res :=
  if !hostUp s || v.getLsbD 31 then .next s
  else if (s.host.queues[q.val]).st = .disabled then .next (setRing q v s)
  else .next (flushQueue q (setPrio q v s))

/-- Q_TAIL_WRITE: the doorbell. -/
def execQTailWrite (q : QueueId) (v : BitVec 32) (s : State) : Res :=
  let x := s.host.queues[q.val]
  let n := bits v.toNat 15 0
  if !hostUp s || x.st != .active then .next s
  else if 2 ^ x.log2.toNat ≤ n then .next (queueError q 0x0206 s)
  else
    let r := s.host.rings + 1
    let s1 : State := { s with host := { s.host with rings := r } }
    .next (s1.setQueue q { x with tail := BitVec.ofNat 16 n, rung := r })

/-- ABI_SEL_WRITE: taken while every queue is DISABLED. -/
def execAbiSelWrite (v : BitVec 32) (s : State) : Res :=
  let n := bits v.toNat 15 0
  if !hostUp s || s.host.queues.toList.any fun x => x.st != .disabled then .next s
  else .next { s with host := { s.host with abi := if n / 256 = 1 ∧ n % 256 ≤ 4 then BitVec.ofNat 16 n else 0 } }

/-! ### Fetching (R398, R404) -/

/-- A queue error that flushes the queue: its shuttle reports when the queue has come to DISABLED (R413). -/
def failQueue (q : QueueId) (code : BitVec 16) (s : State) : State :=
  let s1 := queueError q code s
  flushQueue q (s1.setQueue q { s1.host.queues[q.val] with errFlush := true })

/-- DESCRIPTOR_FETCH: the next descriptor, while no more than 8 are fetched beyond the oldest that has not started. -/
def execDescriptorFetch (q : QueueId) (r : FetchResult) (s : State) : Res :=
  let x := s.host.queues[q.val]
  if !hostUp s || x.st != .active || !shuttleUp s q || x.head == x.tail || decide (8 < x.waiting.length) then .next s
  else match r with
    | .fail => .next (failQueue q 0x0203 s)
    | .ok d => .next (s.setQueue q { x with
        waiting := x.waiting ++ [⟨x.head, x.fetches, d⟩], fetches := x.fetches + 1, head := BitVec.ofNat 16 ((x.head.toNat + 1) % 2 ^ x.log2.toNat) })

/-! ### SIGNAL_SYNC (R353, R402, R404) -/

/-- The SYNC_UPDATE frame of an operation on another engine's object. -/
def syncFrame (s : State) (oper obj dst : Nat) (v : Word) : BitVec 512 :=
  hdrOf [(0, 2, magicCl), (2, 1, 1), (3, 1, 10), (0x10, 2, 0xFFFF), (0x14, 2, s.eng.cfg.engineId.toNat), (0x16, 2, dst),
    (0x2C, 4, v.toNat), (0x30, 2, obj), (0x32, 1, oper)]

/-- A SIGNAL_SYNC runs: on this engine at the root, on another by a frame; it completes once that is done. -/
def runSignal (q : QueueId) (oper : Nat) (op : Nat → Word → State → State) (f : Fetched) (s : State) : State :=
  let g := dField f.d
  let v := BitVec.ofNat 32 (g 0x24 4)
  let s1 := if g 0x28 2 = 0xFFFF then op (g 0x22 2) v s else sendRoot (g 0x28 2) (syncFrame s oper (g 0x22 2) (g 0x28 2) v) s
  complete q f 0 s1

/-- SIGNAL_SYNC with OPER 1 to 3; one whose OPER is none of them is dispatched, and refused, by any of the three. -/
def signalKind (oper : Nat) (d : BitVec 1024) : Bool :=
  dField d 0x20 1 == oper || dField d 0x20 1 == 0 || decide (3 < dField d 0x20 1)

def execSignalSyncAdd (q : QueueId) (s : State) : Res := .next (dispatch q 4 (signalKind 1) (runSignal q 1 objAdd) s)

def execSignalSyncSet (q : QueueId) (s : State) : Res := .next (dispatch q 4 (signalKind 2) (runSignal q 2 objSet) s)

def execSignalSyncTarget (q : QueueId) (s : State) : Res := .next (dispatch q 4 (signalKind 3) (runSignal q 3 objTarget) s)

/-! ### WAIT_SYNC (R402) -/

/-- WAIT_SYNC: it runs until its test holds. DESIGN CHOICE (log entry 87): while it runs it takes no wait entry at the root, so it counts
neither in WAITERS nor in the pool of R199; the rules do not say how a shuttle learns that the test holds. -/
def execWaitSync (q : QueueId) (s : State) : Res := .next (dispatch q 5 (fun _ => true) (fun _ s => afterRoot s) s)

/-- The WAIT_SYNC of a queue that run with a limit, the one that started first in front. -/
def timedWaits (s : State) (q : QueueId) : List Fetched :=
  (s.host.queues[q.val]).running.filter fun f => dType f.d == 5 && dField f.d 0x28 4 != 0

/-- WAIT_TIMEOUT: a WAIT_SYNC that runs with a limit reaches it. -/
def execWaitTimeout (w : WaitLimit) (s : State) : Res :=
  match (timedWaits s w.q)[w.n]? with
  | some f => .next (complete w.q f 0x020A s)
  | none => .next s

/-! ### COPY and FILL (R404, R406) -/

/-- The job of a COPY or FILL. -/
def jobOf (q : QueueId) (f : Fetched) : CopyJob :=
  let g := dField f.d
  if dType f.d = 7 then ⟨q, f.ticket, true, 0, g 0x24 4, 0, g 0x28 8, BitVec.ofNat 32 (g 0x20 4)⟩
  else ⟨q, f.ticket, false, g 0x20 1, g 0x24 4, g 0x28 8, g 0x30 8, 0⟩

/-- A COPY or FILL starts. -/
def startJob (q : QueueId) (f : Fetched) (s : State) : State :=
  { s with eng := { s.eng with copies := s.eng.copies ++ [jobOf q f] } }

/-- COPY_DESC: at most four COPY and FILL run. -/
def execCopyDesc (q : QueueId) (s : State) : Res :=
  if 4 ≤ s.eng.copies.length && (headOf s q 6).isSome then .next s
  else .next (dispatch q 6 (fun _ => true) (startJob q) s)

/-- FILL_DESC. -/
def execFillDesc (q : QueueId) (s : State) : Res :=
  if 4 ≤ s.eng.copies.length && (headOf s q 7).isSome then .next s
  else .next (dispatch q 7 (fun _ => true) (startJob q) s)

/-- Each unit of a range of the window that fails a check is recorded as a failed host-path read: those in `bad` fail link parity, which
decides KIND (R222, R224). -/
def noteBad (bad : List Nat) (h n : Nat) (s : State) : State :=
  (List.range ((n + 63) / 64)).foldl (fun (s : State) i =>
    if bad.contains i then pathError (BitVec.ofNat 36 (h + 64 * i)) 1 s
    else if winBad s (h + 64 * i) 64 then pathError (BitVec.ofNat 36 (h + 64 * i)) 0 s else s) s

/-- Bytes written to the window from an offset on, but for the units that fail link parity: each of those is dropped (R224). -/
def winWriteBut (dropped : List Nat) (h : Nat) (bs : List Byte) (s : State) : State :=
  if dropped.isEmpty then winWrite h bs s
  else (List.range (bs.length / 64)).foldl (fun (s : State) i =>
    if dropped.contains i then pathDrop (BitVec.ofNat 36 (h + 64 * i)) 1 s
    else winWrite (h + 64 * i) ((bs.drop (64 * i)).take 64) s) s

/-- A job moves its bytes: a FILL its pattern, a COPY what it read; the bytes read from the host are given. -/
def moveJob (j : CopyJob) (data : List Byte) (bad dropped : List Nat) (s : State) : State :=
  if j.fill then winWriteBut dropped j.dst (List.replicate (j.len / 4) (leBytes 4 j.pat.toNat)).flatten s
  else if j.dir = 0 then winWriteBut dropped j.dst data s
  else
    let r := winRead s j.src j.len s.free
    let g := garble bad r.1 r.2
    let s1 := noteBad bad j.src j.len { s with free := g.2 }
    if j.dir = 1 then s1.hostWrite j.dst g.1 else winWriteBut dropped j.dst g.1 s1

/-- COPY_FILL_DONE: the job with a place in the list has moved every byte, or its host read has failed. -/
def execCopyFillDone (n : Nat) (data : List Byte) (fin : CopyEnd) (s : State) : Res :=
  match s.eng.copies[n]? with
  | none => .next s
  | some j =>
    let fromHost := !j.fill && j.dir == 0
    let s1 : State := { s with eng := { s.eng with copies := s.eng.copies.eraseIdx n } }
    if fromHost && !fin.ok then .next (completeAt j.q j.ticket 0x020B (loseWindow j.dst j.len s1))
    else if fromHost && data.length != j.len then .next s
    else .next (completeAt j.q j.ticket 0 (moveJob j data fin.bad fin.dropped s1))

/-! ### EPOCH_SWITCH (R257, R261) -/

/-- An EPOCH_SWITCH to a base epoch, by the newness of its NUMBER. -/
def runSwitch (q : QueueId) (f : Fetched) (s : State) : State :=
  match switchCode s (BitVec.ofNat 16 (dField f.d 0x22 2)) with
  | some code => complete q f code s
  | none => acceptSwitch q f s

/-- The descriptors of type 8 that each of the two commands dispatches; one whose KIND is neither is refused by both. -/
def switchKind (kind : Nat) (d : BitVec 1024) : Bool := dField d 0x20 1 == kind || decide (1 < dField d 0x20 1)

/-- EPOCH_SWITCH: one at a time. -/
def execEpochSwitch (q : QueueId) (s : State) : Res :=
  if s.wts.load.isSome && (headOf s q 8).isSome then .next s
  else .next (dispatch q 8 (switchKind 0) (runSwitch q) s)

/-- EPOCH_SWITCH_ADAPTER. -/
def execEpochSwitchAdapter (q : QueueId) (s : State) : Res :=
  if s.wts.load.isSome && (headOf s q 8).isSome then .next s
  else .next (dispatch q 8 (switchKind 1) (acceptSwitch q) s)

end Sys2Proof.Machine
end

