-- ==== Sys2Proof/Machine/SyncHost.lean ====
section
/-! DEFINITION. Host writes to the sync-object window (R178, R182, R199). -/

namespace Sys2Proof.Machine

open Sys2Proof

/-- A host write to an object of the root takes effect at once, and what it lets complete completes; a write to any other object is
ignored. -/
def hostObject (id : BitVec 16) (op : State → State) (s : State) : State :=
  if hostUp s && decide (0xC000 ≤ id.toNat) then afterRoot (op s) else s

/-- SYNC_CNT_WRITE: SET. -/
def execSyncCntWrite (id : BitVec 16) (v : BitVec 32) (s : State) : Res := .next (hostObject id (objSet id.toNat v) s)

/-- SYNC_TGT_WRITE: TARGET. -/
def execSyncTgtWrite (id : BitVec 16) (v : BitVec 32) (s : State) : Res := .next (hostObject id (objTarget id.toNat v) s)

/-- SYNC_ADD_WRITE: ADD. -/
def execSyncAddWrite (id : BitVec 16) (v : BitVec 32) (s : State) : Res := .next (hostObject id (objAdd id.toNat v) s)

end Sys2Proof.Machine
end

