-- ==== Sys2Proof/Machine/RegAccess.lean ====
section
/-! DEFINITION. The host's accesses to the registers of BAR0 (R9 to R13, R391, R395), and the resets and loss of the CXL link (R390,
R491). -/

namespace Sys2Proof.Machine

open Sys2Proof

/-! ### Reading (R9, R10, R12, R13) -/

/-- Whether an access has a size and alignment that a register takes (R9). -/
def accessOk (off size : Nat) : Bool := (size == 4 || size == 8) && off % size == 0

/-- UNSUPPORTED_ACCESS: the access is not applied. -/
def execUnsupportedAccess (off : BitVec 26) (size : Nat) (_write : Bool) (s : State) : Res :=
  if !hostUp s || accessOk off.toNat size then .next s else .next (s.emit .unsupported)

/-- The registers that are the low word of a 64-bit quantity. -/
def lowWord (off : Nat) : Bool :=
  off == 0x1C || off == 0x104 || off == 0x10C || (decide (0x100000 ≤ off) && decide (off < 0x101000) && off % 64 == 0)

/-- The registers of a counter with access RC, or with fields of that access (R264, R332, R363, R385, R446, R496). -/
def rcReg (off : Nat) : Bool :=
  let o := off - 0x110000
  (decide (0x214 ≤ off) && decide (off ≤ 0x224))
  || (decide (0x110000 ≤ off) && decide (off < 0x120000) &&
    ((decide (0x110 ≤ o) && decide (o < 0x150)) || (decide (0x30C ≤ o) && decide (o ≤ 0x31C)) || (decide (0x414 ≤ o) && decide (o ≤ 0x420))))
  || off == 0x400048 || off == 0x40004C || off == 0x400050
  || (decide (0x500000 ≤ off) && decide (off < 0x508000) &&
    let p := off % 1024
    (decide (0x18 ≤ p) && decide (p ≤ 0x38)) || (decide (0x40 ≤ p) && decide (p < 0x60)))

/-- The counters of a service register with access RC set to what was counted while they were read. -/
def setServiceCount (o : Nat) (w : Word) (s : State) : State :=
  let red := s.red
  let coll := s.coll
  if 0x110 ≤ o ∧ o < 0x130 then
    let d : DieId := ⟨(o - 0x110) / 4 % 8, Nat.mod_lt _ (by decide)⟩
    s.setDie d { s.dies[d.val] with wiStale := BitVec.ofNat 8 (bits w.toNat 15 8), wiRetries := BitVec.ofNat 8 (bits w.toNat 7 0) }
  else if 0x130 ≤ o ∧ o < 0x150 then
    let d : DieId := ⟨(o - 0x130) / 4 % 8, Nat.mod_lt _ (by decide)⟩
    s.setDie d { s.dies[d.val] with wiIdle := w }
  else match o with
  | 0x30C => { s with red := { red with retries := w } }
  | 0x310 => { s with red := { red with refused := w } }
  | 0x314 => { s with red := { red with nfs := w } }
  | 0x318 => { s with red := { red with twin := w } }
  | 0x31C => { s with red := { red with stale := w } }
  | 0x414 => { s with coll := { coll with late := w } }
  | 0x418 => { s with coll := { coll with escs := w } }
  | 0x41C => { s with coll := { coll with timeouts := w } }
  | 0x420 => { s with coll := { coll with stale := w } }
  | _ => s

/-- The counters of a port. -/
def setPortCount (o : Nat) (w : Word) (c : PortCnt) : PortCnt :=
  if 0x40 ≤ o ∧ o < 0x50 then { c with txf := c.txf.set ((o - 0x40) / 4 % 4) w (Nat.mod_lt _ (by decide)) }
  else if 0x50 ≤ o ∧ o < 0x60 then { c with rxf := c.rxf.set ((o - 0x50) / 4 % 4) w (Nat.mod_lt _ (by decide)) }
  else match o with
  | 0x018 => { c with fecCorr := w }
  | 0x01C => { c with fecUncorr := w }
  | 0x020 => { c with crcErr := w }
  | 0x024 => { c with replays := w }
  | 0x028 => { c with retrains := w }
  | 0x02C => { c with downs := w }
  | 0x030 => { c with lost := w }
  | 0x034 => { c with xdie := w }
  | 0x038 => { c with refused := w }
  | _ => c

/-- A register with access RC set to what was counted while it was read. -/
def setCount (off : Nat) (w : Word) (s : State) : State :=
  let f := s.flt
  if 0x500000 ≤ off ∧ off < 0x508000 then portCnt ⟨(off - 0x500000) / 1024 % 32, Nat.mod_lt _ (by decide)⟩ (setPortCount (off % 1024) w) s
  else if 0x110000 ≤ off ∧ off < 0x120000 then setServiceCount (off - 0x110000) w s
  else match off with
  | 0x214 => { s with flt := { f with hw := w } }
  | 0x218 => { s with flt := { f with reruns := w } }
  | 0x21C => { s with flt := { f with limit := w } }
  | 0x220 => { s with flt := { f with shifts := w } }
  | 0x224 => { s with flt := { f with relocs := w } }
  | 0x400048 => { s with pwr := { s.pwr with rampEvents := w } }
  | 0x40004C => { s with pwr := { s.pwr with throttleEvents := w } }
  | 0x400050 => { s with pwr := { s.pwr with deferrals := w } }
  | _ => s

/-- The high word that a requester has latched at an offset. -/
def latched (s : State) (req : Nat) (off : BitVec 26) : Option Word :=
  (s.host.latch.find? fun e => e.1 == req && e.2.1 == off).map fun e => e.2.2

/-- Whether a read is one of MBX_DATA or MBX_ACK, which a command of its own holds. -/
def mailWord (off : Nat) : Bool := decide (0x200000 ≤ off) && decide (off < 0x200300) && decide (off % 16 < 8)

/-- The value that an aligned 32-bit read by a requester returns: what was latched for it, or what the register holds (R10). -/
def wordAt (req : Nat) (off : BitVec 26) (s : State) : Word :=
  (latched s req off).getD (BitVec.ofNat 32 (regRead s off.toNat))

/-- The registers of cluster-homed objects, whose values between layer passes are free: a read takes them (R199). -/
def freeObject (off : Nat) (s : State) : Bool := decide (0x300000 ≤ off) && decide (off < 0x3C0000) && !passOn s

/-- What such a read leaves: a low word latches its high word, and the next read of the high word takes what was latched (R10). -/
def takeLatch (req : Nat) (off : BitVec 26) (s' : State) : State :=
  let s := if freeObject off.toNat s' then s'.took.took else s'
  let h := s.host
  let rest := h.latch.filter fun e => !(e.1 == req && e.2.1 == off)
  let hi := off + 4
  let next :=
    if lowWord off.toNat then
      (req, hi, BitVec.ofNat 32 (regRead s hi.toNat)) :: rest.filter fun e => !(e.1 == req && e.2.1 == hi)
    else rest
  { s with host := { h with latch := next } }

/-- An aligned 32-bit read by a requester. -/
def readReg (req : Nat) (off : BitVec 26) (s : State) : State :=
  (takeLatch req off s).emit (.readData (leBytes 4 (wordAt req off s).toNat))

/-- An aligned 64-bit read by a requester: the register and the next one, as one read of each (R9). -/
def readWide (req : Nat) (off : BitVec 26) (s : State) : State :=
  let s1 := takeLatch req off s
  (takeLatch req (off + 4) s1).emit
    (.readData (leBytes 4 (wordAt req off s).toNat ++ leBytes 4 (wordAt req (off + 4) s1).toNat))

/-- The mailbox of a register of its block. -/
def mbxAt (off : Nat) : MbxId := ⟨(off - 0x200000) / 16 % 48, Nat.mod_lt _ (by decide)⟩

/-- LOW_WORD_READ; a read of any other register but a counter with access RC is made in the same way. One of MBX_DATA or MBX_ACK, or of
both, is as MBX_DATA_READ makes it. -/
def execLowWordRead (req : Nat) (r : ReadAt) (s : State) : Res :=
  let off := r.off
  let n := off.toNat
  if !hostUp s then .next s
  else if r.wide then
    if n % 8 != 0 || rcReg n || rcReg (n + 4) then .next s
    else if mailWord n && mbxOff s (mbxAt n) then execMbxDataRead (mbxAt n) false s
    else .next (readWide req off s)
  else if n % 4 != 0 || rcReg n then .next s
  else if mailWord n then execMbxDataRead (mbxAt n) (n % 16 == 4) s
  else .next (readReg req off s)

/-- A counter that has been read holds what it counted meanwhile (R13), laid out as the register's fields. -/
def afterRead (off events : Nat) (s : State) : State :=
  if rcReg off then setCount off (BitVec.ofNat 32 events) s else s

/-- RC_COUNTER_READ, or a 64-bit read of a register and the next one of which either is such a counter. -/
def execRcCounterRead (req : Nat) (off : BitVec 26) (events : ReadEvents) (s : State) : Res :=
  if !hostUp s then .next s
  else match events.high with
    | none =>
      if off.toNat % 4 != 0 || !rcReg off.toNat then .next s
      else .next (afterRead off.toNat events.low (readReg req off s))
    | some more =>
      if off.toNat % 8 != 0 || !(rcReg off.toNat || rcReg (off.toNat + 4)) then .next s
      else .next (afterRead (off.toNat + 4) more (afterRead off.toNat events.low (readWide req off s)))

/-! ### MSI-X (R395) -/

/-- The pending messages of the vectors that nothing masks are sent. -/
def msixFlush (s : State) : State :=
  let m := s.host.msix
  if !m.enable || m.fmask then s
  else
    let vs := (List.range 64).filter fun v => m.pend.getLsbD v && !m.mask.getLsbD v
    vs.foldl (fun s v => s.emit (.msix v)) { s with host := { s.host with msix := { m with pend := m.pend &&& m.mask } } }

/-- The Mask bit of a vector written. -/
def setMask (v : Fin 64) (b : Bool) (s : State) : State :=
  let m := s.host.msix
  let bit : BitVec 64 := 1#64 <<< v.val
  msixFlush { s with host := { s.host with msix := { m with mask := if b then m.mask ||| bit else m.mask &&& ~~~bit } } }

/-- MSIX_UNMASK: the Mask bit of a vector is cleared, or, with no vector, Message Control is written with MSI-X Enable set and the Function
Mask clear. -/
def execMsixUnmask (v : Option (Fin 64)) (s : State) : Res :=
  if !hostUp s then .next s
  else match v with
    | some k => .next (setMask k false s)
    | none => .next (msixFlush { s with host := { s.host with msix := { s.host.msix with enable := true, fmask := false } } })

/-! ### Writing (R12, R13) -/

/-- Bit `i` of a word cleared. -/
def clearBit32 (i : Nat) (w : Word) : Word := w &&& ~~~(1#32 <<< i)

/-- A word whose bit `i` has access RW1C, after a write. -/
def rw1c (i : Nat) (v w : Word) : Word := if v.getLsbD i then clearBit32 i w else w

/-- A write to the registers at 0x100 to 0x3FF (R475, R496, R523). -/
def writeControl (off : Nat) (v : Word) (s : State) : State :=
  let b := s.boot
  let f := s.flt
  match off with
  | 0x114 => { s with boot := { b with cfgErr := b.cfgErr && !v.getLsbD 29 } }
  | 0x120 => { s with boot := { b with fwErr := b.fwErr && !v.getLsbD 30 } }
  | 0x200 => { s with flt := { f with stagingLost := f.stagingLost && !v.getLsbD 27 } }
  | 0x204 => { s with flt := { f with err := rw1c 31 v f.err } }
  | 0x20C => { s with host := { s.host with edgeSel := v &&& 0x73 } }
  | 0x300 => { s with mgmt := { s.mgmt with secValid := s.mgmt.secValid && !v.getLsbD 31 } }
  | _ => s

/-- A write to the MSI-X table. -/
def writeMsix (off : Nat) (v : Word) (s : State) : State :=
  let i := (off - 0x8000) / 4
  let m := s.host.msix
  if i % 4 = 3 then setMask ⟨i / 4 % 64, Nat.mod_lt _ (by decide)⟩ (v.getLsbD 0) s
  else { s with host := { s.host with msix := { m with table := tabSet m.table i v } } }

/-- A write to Q_BASE_LO, Q_BASE_HI or Q_STAT (R396, R397). -/
def writeQueue (q : QueueId) (off : Nat) (v : Word) (s : State) : State :=
  let x := s.host.queues[q.val]
  match off with
  | 0x00 => if x.st = .disabled then s.setQueue q { x with baseLo := BitVec.ofNat 20 (bits v.toNat 31 12) } else s
  | 0x04 => if x.st = .disabled then s.setQueue q { x with baseHi := v } else s
  | 0x14 => s.setQueue q { x with err := x.err && !v.getLsbD 29 }
  | _ => s

/-- A write to a service register (R264, R332, R363). -/
def writeService (off : Nat) (v : Word) (s : State) : State :=
  match off with
  | 0x108 => { s with wts := { s.wts with err := rw1c 31 v s.wts.err } }
  | 0x304 => { s with red := { s.red with err := rw1c 31 v s.red.err } }
  | 0x404 => { s with coll := { s.coll with err := rw1c 31 v s.coll.err } }
  | _ => s

/-- A write to MBX_CTL, or to the doorbell registers (R408). -/
def writeMailbox (off : Nat) (v : Word) (s : State) : State :=
  let h := s.host
  if off < 0x200300 then
    let m : MbxId := ⟨(off - 0x200000) / 16 % 48, Nat.mod_lt _ (by decide)⟩
    if off % 16 = 12 then s.setMbx m { h.mbx[m.val] with mode := v.getLsbD 0 } else s
  else match off with
  | 0x201000 => { s with host := { h with dbStat := h.dbStat &&& ~~~v } }
  | 0x201004 => { s with host := { h with dbMask := v } }
  | 0x201008 => { s with host := { h with mbxErr := rw1c 31 v h.mbxErr } }
  | _ => s

/-- A write to AZ_ERR of a port (R386). -/
def writePort (p : PortId) (off : Nat) (v : Word) (s : State) : State :=
  if off = 0x10 then portLink p (fun l => { l with err := rw1c 31 v l.err }) s else s

/-- An aligned 32-bit write to a register that has no command of its own; RO and RC fields and unassigned offsets ignore it. -/
def writeReg (off : Nat) (v : Word) (s : State) : State :=
  if off < 0x400 then writeControl off v s
  else if 0x8000 ≤ off ∧ off < 0x8400 then writeMsix off v s
  else if 0x100000 ≤ off ∧ off < 0x101000 then writeQueue ⟨(off - 0x100000) / 64 % 64, Nat.mod_lt _ (by decide)⟩ (off % 64) v s
  else if 0x110000 ≤ off ∧ off < 0x120000 then writeService (off - 0x110000) v s
  else if 0x200000 ≤ off ∧ off < 0x300000 then writeMailbox off v s
  else if 0x500000 ≤ off ∧ off < 0x508000 then
    writePort ⟨(off - 0x500000) / 1024 % 32, Nat.mod_lt _ (by decide)⟩ (off % 1024) v s
  else s

/-- The registers without a command of their own that hold bits with access RW1C. -/
def rw1cReg (off : Nat) : Bool :=
  [0x114, 0x120, 0x200, 0x204, 0x300, 0x110108, 0x110304, 0x110404, 0x201000, 0x201008].contains off
  || (decide (0x100000 ≤ off) && decide (off < 0x101000) && off % 64 == 0x14)
  || (decide (0x500000 ≤ off) && decide (off < 0x508000) && off % 1024 == 0x10)

/-- The state that a command leaves. -/
def stateOf (s : State) (r : Res) : State := match r with | .next t => t | _ => s

/-- A command made where a bit of the word written is set. -/
def onBit (b : Bool) (f : State → Res) (s : State) : State := if b then stateOf s (f s) else s

/-- A word written to AZ_CTL. DESIGN CHOICE (log entry 50): LOCATE and DISABLE are taken first, then WIDEN, then RETRAIN. -/
def writeAzCtl (p : PortId) (v : Word) (s : State) : State :=
  let s1 := stateOf s (execAzCtlLocate p (v.getLsbD 0) s)
  let s2 := stateOf s1 (execAzCtlDisable p (v.getLsbD 1) s1)
  onBit (v.getLsbD 2) (execAzCtlRetrain p) (onBit (v.getLsbD 3) (execAzCtlWiden p) s2)

/-- A word written to MBX_DATA or MBX_STAT. -/
def writeMbxWord (off : Nat) (v again : Word) (s : State) : State :=
  let m := mbxAt off
  match off % 16 with
  | 0 => stateOf s (execMbxDataWrite m v s)
  | 8 => onBit (v.getLsbD 30) (execMbxRejClear m (again.getLsbD 30)) (onBit (v.getLsbD 31) (execMbxFullClear m) s)
  | _ => s

/-- A word written to SYNC_CNT, SYNC_TGT or SYNC_ADD of an object. -/
def writeSync (off : Nat) (v : Word) (s : State) : State :=
  let id := BitVec.ofNat 16 ((off - 0x300000) / 16)
  match off % 16 with
  | 0 => stateOf s (execSyncCntWrite id v s)
  | 4 => stateOf s (execSyncTgtWrite id v s)
  | 8 => stateOf s (execSyncAddWrite id v s)
  | _ => s

/-- A word written to Q_CTL or Q_TAIL. -/
def writeQueueCtl (off : Nat) (v : Word) (s : State) : State :=
  let q : QueueId := ⟨(off - 0x100000) / 64 % 64, Nat.mod_lt _ (by decide)⟩
  if off % 64 = 0x0C then stateOf s (execQTailWrite q v s)
  else if v.getLsbD 31 then stateOf s (execQueueEnable q v s) else stateOf s (execQueueDisable q v s)

/-- Whether a write of a register has a command of its own. -/
def ownWrite (off : Nat) : Bool :=
  [0x10, 0x110000, 0x110008, 0x110200, 0x11040C].contains off
  || (decide (0x100000 ≤ off) && decide (off < 0x101000) && (off % 64 == 0x08 || off % 64 == 0x0C))
  || (decide (0x110500 ≤ off) && decide (off < 0x110540) && off % 8 == 0)
  || (decide (0x200000 ≤ off) && decide (off < 0x200300) && off % 16 != 12)
  || (decide (0x300000 ≤ off) && decide (off < 0x400000))
  || (decide (0x500000 ≤ off) && decide (off < 0x508000) && off % 1024 == 0)

/-- A word written to a register whose write has a command of its own has that command's effect. -/
def writeOwn (off : Nat) (v again : Word) (s : State) : State :=
  if 0x500000 ≤ off then writeAzCtl ⟨(off - 0x500000) / 1024 % 32, Nat.mod_lt _ (by decide)⟩ v s
  else if 0x300000 ≤ off then writeSync off v s
  else if 0x200000 ≤ off then writeMbxWord off v again s
  else if 0x110500 ≤ off then
    onBit (v.getLsbD 31) (execPdMeshErrClear ⟨(off - 0x110500) / 8 % 8, Nat.mod_lt _ (by decide)⟩ (again.getLsbD 31)) s
  else match off with
  | 0x10 => stateOf s (execAbiSelWrite v s)
  | 0x110000 => onBit (v.getLsbD 31) (execHostPathErrClear (again.getLsbD 31)) s
  | 0x110008 => onBit (v.getLsbD 31) (execHostPathWdropClear (again.getLsbD 31)) s
  | 0x110200 => onBit (v.getLsbD 0) execFocusCtlClear s
  | 0x11040C => stateOf s (execCollAbort v s)
  | _ => writeQueueCtl off v s

/-- A word written to a register: an RW1C bit that an event sets in the same cycle is not cleared (R13). -/
def writeWord (off : Nat) (v again : Word) (s : State) : State :=
  if ownWrite off then writeOwn off v again s
  else writeReg off (if rw1cReg off then v &&& ~~~again else v) s

/-- REGISTER_WRITE: one register, or with an aligned 64-bit write it and the next one (R9). -/
def execRegisterWrite (off : BitVec 26) (v : RegWrite) (s : State) : Res :=
  if !hostUp s then .next s
  else match v.high with
    | none => if off.toNat % 4 != 0 then .next s else .next (writeWord off.toNat v.v v.again s)
    | some x =>
      if off.toNat % 8 != 0 then .next s
      else .next (writeWord (off.toNat + 4) x.1 x.2 (writeWord off.toNat v.v v.again s))

/-! ### The CXL link (R390, R491) -/

/-- CXL_RESET: a conventional or a hot reset. -/
def execCxlReset (s : State) : Res := if !dieUp s then .next s else .next (resetHost s)

/-- CXL_LINK_DOWN: nothing more is fetched, and writes to host memory are lost. -/
def execCxlLinkDown (s : State) : Res := .next { s with host := { s.host with linkUp := false } }

end Sys2Proof.Machine
end

