-- ==== Sys2Proof/Machine/Repairs.lean ====
section
/-! DEFINITION. Repairs in progress (R482 to R487), and the loss of a unit of the compute set (R491). -/

namespace Sys2Proof.Machine

open Sys2Proof

/-! ### Tests of what is to serve (R482, R484) -/

/-- DARNING_COLUMN_TEST_DONE: the shift may be applied, or the row cannot absorb its failure. -/
def execDarningColumnTestDone (ci : ClusterId) (row : Fin 8) (pass : Bool) (s : State) : Res :=
  let mine (r : Repair) : Bool := match r with | .shift k w _ tested => k == ci && w == row.val && !tested | _ => false
  let f := s.flt
  match f.repairs.find? mine with
  | some (.shift _ _ pcol _) =>
    if pass then .next { s with flt := { f with repairs := f.repairs.map fun r => if mine r then .shift ci row.val pcol true else r } }
    else .next (rowAgain ci row.val ((1#9 <<< pcol) ||| (1#9 <<< 8)) { s with flt := { f with repairs := f.repairs.filter fun r => !mine r } })
  | _ => .next s

/-- What a condemned tile that no darning tile can take comes to: it leaves service, or, where only rows of it hold two failed cores, those
rows lose their logical column 7 (R489). -/
def noDarn (pt : TileId) (s : State) : State :=
  let rows := s.flt.cases.filterMap fun x => if x.1 = pt then x.2 else none
  if rows.isEmpty ∨ s.flt.cases.contains (pt, none) then addRepair (.loseTile pt) s
  else rows.foldl (fun s r => loseRow r.1 r.2.1 r.2.2 s) s

/-- A darning tile has failed its test: the other one is tried, if it is spare (R484). -/
def darnFails (pt : TileId) (d : Fin 2) (s : State) : State :=
  let t := darnTile d
  let s1 := writeRecord (retireTile t (s.setTile t { s.tiles[t.val] with test := 3 }))
  match darnFor s1 pt with
  | some e => beginDarn pt e s1
  | none => noDarn pt s1

/-- DARNING_TILE_TEST_DONE. -/
def execDarningTileTestDone (d : Fin 2) (r : TileTest) (s : State) : Res :=
  let mine (x : Repair) : Bool := match x with | .relocate _ e tested => e == d && !tested | _ => false
  let f := s.flt
  match f.repairs.find? mine with
  | some (.relocate pt _ _) =>
    if r.t ≠ darnTile d then .next s
    else
      let x := s.tiles[r.t.val]
      let a := rowsAfter x.rows r.failed
      let rest := f.repairs.filter fun y => !mine y
      let s1 := s.setTile r.t { x with rows := a.1, pairs := pairsAfter x r.failed }
      if r.othersOk && a.2 && x.powered then
        let s2 : State := { s1 with flt := { f with repairs := rest ++ [.relocate pt d true] } }
        let s3 := s2.setTile r.t { s2.tiles[r.t.val] with test := 2 }
        .next (if a.1 = x.rows then s3 else writeRecord s3)
      else .next (darnFails pt d { s1 with flt := { f with repairs := rest } })
  | _ => .next s

/-! ### Contents and restoration (R485, R487) -/

/-- Whether image bytes that are read again are those of the image in force: its TABLE_DIGEST, and the DIGEST of every section. -/
def rereadOk (im : Image) (bs : List Byte) : Bool := digestsOk bs && (parseImage bs).tableDigest == im.tableDigest

/-- IMAGE_REREAD_DONE: the tile's share is in place, or the image is lost. -/
def execImageRereadDone (t : TileId) (bytes : List Byte) (s : State) : Res :=
  if !s.flt.rereads.contains t then .next s
  else
    let s1 : State := { s with flt := { s.flt with rereads := s.flt.rereads.filter (· != t) } }
    match s1.eng.image with
    | none => .next s1
    | some im =>
      if rereadOk im bytes then
        let cs := constsOf bytes
        .next ((tileClusters t).foldl (fun s ci => writeConsts ci (tabGet [] cs ci.val) s) s1)
      else .next (loseImage s1)

/-- EFUSE_RESTORE_TIMER: Loupe closes the eFuse of a tile that has not been condemned, and tests the tile as a wave. -/
def execEfuseRestoreTimer (t : PhysTile) (s : State) : Res :=
  let x := s.tiles[t.val]
  let may := x.fuse == .overload || ((x.fuse == .dieTemp || x.fuse == .memTemp) && tileCool t x)
  match servesOf s t with
  | none => .next s
  | some pt =>
    if !may || x.st == .retired || tilePending s pt || tileUnserved s pt then .next s
    else .next (addRepair (.restore pt false) (s.setTile t { x with powered := true, fuse := .closed, st := .selftest, test := 1 }))

/-! ### Loupe and the host die (R491) -/

/-- LOUPE_WATCHDOG_EXPIRE: the fans go to 100 %, and the shuttles admit nothing. -/
def execLoupeWatchdogExpire (s : State) : Res :=
  if s.boot.standby && decide (2 ≤ s.boot.phase) then
    .next { s with boot := { s.boot with loupeDown := true }, pwr := { s.pwr with fanDuty := 100 } }
  else .next s

/-- LOUPE_RESTART_DONE: Loupe has restarted from ROM, with the bundle that the ROM boots, no command under way and no presence window, and
writes the record that is due; where neither slot passes, it stays in recovery, and does not return (R491, R514). BOOT_COUNT counts cold
starts only (R519). -/
def execLoupeRestartDone (s : State) : Res :=
  if !s.boot.loupeDown || s.boot.recovery then .next s
  else match romBoot s with
    | none => .next (secCode 0x0C04 { s with boot := { s.boot with recovery := true } })
    | some s0 =>
      let s1 : State := { s0 with
        boot := { s0.boot with loupeDown := false },
        mgmt := { s0.mgmt with presence := false, result := none, clients := 0, streams := 0 } }
      .next (postEvents (measure (writeDue s1)))

/-- LOUPE_RECOVERY_TIMEOUT: the module powers down without a drain and without a ramp. -/
def execLoupeRecoveryTimeout (s : State) : Res :=
  if !s.boot.loupeDown || decide (s.boot.phase < 5) then .next s
  else
    let leave (s : State) (p : PortId) : State :=
      if (s.ports[p.val]).st = .active ∨ (s.ports[p.val]).st = .retrain then finishLeave p s else s
    let s1 := (List.finRange 32).foldl leave s
    .next (standBy { s1 with boot := { s1.boot with restart := false } })

/-- HOST_DIE_LOST: nothing that the host die ran goes on, and Loupe reports it. -/
def execHostDieLost (s : State) : Res :=
  if !s.host.hostDie then .next s
  else
    let s1 : State := { s with
      host := { s.host with hostDie := false, linkUp := false }, eng := { s.eng with pass := none, lp := none, parked := none, copies := [] }, tat := {} }
    .next (setEngine .bringup (logNamed "HostDieLost" s1))

end Sys2Proof.Machine
end

