-- ==== Sys2Proof/Machine/Dispatch.lean ====
section
/-! DEFINITION. One arm for each command: a direct call of its meaning. -/

namespace Sys2Proof.Machine

open Sys2Proof

def exec (i : Instr) (s : State) : Host.Outcome State Fault Refusal :=
  match i with
  | .nop c => Sys2Proof.Machine.execNop c s
  | .add c f => Sys2Proof.Machine.execAdd c f s
  | .addi c f => Sys2Proof.Machine.execAddi c f s
  | .sub c f => Sys2Proof.Machine.execSub c f s
  | .subi c f => Sys2Proof.Machine.execSubi c f s
  | .and c f => Sys2Proof.Machine.execAnd c f s
  | .andi c f => Sys2Proof.Machine.execAndi c f s
  | .or c f => Sys2Proof.Machine.execOr c f s
  | .ori c f => Sys2Proof.Machine.execOri c f s
  | .xor c f => Sys2Proof.Machine.execXor c f s
  | .xori c f => Sys2Proof.Machine.execXori c f s
  | .shl c f => Sys2Proof.Machine.execShl c f s
  | .shli c f => Sys2Proof.Machine.execShli c f s
  | .shr c f => Sys2Proof.Machine.execShr c f s
  | .shri c f => Sys2Proof.Machine.execShri c f s
  | .sar c f => Sys2Proof.Machine.execSar c f s
  | .sari c f => Sys2Proof.Machine.execSari c f s
  | .mul c f => Sys2Proof.Machine.execMul c f s
  | .muli c f => Sys2Proof.Machine.execMuli c f s
  | .min c f => Sys2Proof.Machine.execMin c f s
  | .mini c f => Sys2Proof.Machine.execMini c f s
  | .max c f => Sys2Proof.Machine.execMax c f s
  | .maxi c f => Sys2Proof.Machine.execMaxi c f s
  | .slt c f => Sys2Proof.Machine.execSlt c f s
  | .slti c f => Sys2Proof.Machine.execSlti c f s
  | .sltu c f => Sys2Proof.Machine.execSltu c f s
  | .sltui c f => Sys2Proof.Machine.execSltui c f s
  | .lih c f => Sys2Proof.Machine.execLih c f s
  | .ld c f => Sys2Proof.Machine.execLd c f s
  | .ldw c f => Sys2Proof.Machine.execLdw c f s
  | .st c f => Sys2Proof.Machine.execSt c f s
  | .stw c f => Sys2Proof.Machine.execStw c f s
  | .beq c f => Sys2Proof.Machine.execBeq c f s
  | .bne c f => Sys2Proof.Machine.execBne c f s
  | .blt c f => Sys2Proof.Machine.execBlt c f s
  | .bge c f => Sys2Proof.Machine.execBge c f s
  | .bltu c f => Sys2Proof.Machine.execBltu c f s
  | .bgeu c f => Sys2Proof.Machine.execBgeu c f s
  | .jal c f => Sys2Proof.Machine.execJal c f s
  | .jr c f => Sys2Proof.Machine.execJr c f s
  | .csrr c f => Sys2Proof.Machine.execCsrr c f s
  | .csrw c f => Sys2Proof.Machine.execCsrw c f s
  | .fence c imm => Sys2Proof.Machine.execFence c imm s
  | .halt c => Sys2Proof.Machine.execHalt c s
  | .haltComplete c => Sys2Proof.Machine.execHaltComplete c s
  | .coreIllegalOp c w => Sys2Proof.Machine.execCoreIllegalOp c w s
  | .mma c f => Sys2Proof.Machine.execMma c f s
  | .accst c f => Sys2Proof.Machine.execAccst c f s
  | .accrd c f => Sys2Proof.Machine.execAccrd c f s
  | .accwr c f => Sys2Proof.Machine.execAccwr c f s
  | .accz c f => Sys2Proof.Machine.execAccz c f s
  | .matrixOpStart c u => Sys2Proof.Machine.execMatrixOpStart c u s
  | .matrixOpComplete c u => Sys2Proof.Machine.execMatrixOpComplete c u s
  | .vld c f => Sys2Proof.Machine.execVld c f s
  | .vst c f => Sys2Proof.Machine.execVst c f s
  | .vbcast c f => Sys2Proof.Machine.execVbcast c f s
  | .vmovs c f => Sys2Proof.Machine.execVmovs c f s
  | .vadd c f => Sys2Proof.Machine.execVadd c f s
  | .vsub c f => Sys2Proof.Machine.execVsub c f s
  | .vmul c f => Sys2Proof.Machine.execVmul c f s
  | .vfma c f => Sys2Proof.Machine.execVfma c f s
  | .vmax c f => Sys2Proof.Machine.execVmax c f s
  | .vmin c f => Sys2Proof.Machine.execVmin c f s
  | .vcmp c f => Sys2Proof.Machine.execVcmp c f s
  | .vsel c f => Sys2Proof.Machine.execVsel c f s
  | .vrcp c f => Sys2Proof.Machine.execVrcp c f s
  | .vrsq c f => Sys2Proof.Machine.execVrsq c f s
  | .vexp2 c f => Sys2Proof.Machine.execVexp2 c f s
  | .vlog2 c f => Sys2Proof.Machine.execVlog2 c f s
  | .vcvt c f => Sys2Proof.Machine.execVcvt c f s
  | .vred c f => Sys2Proof.Machine.execVred c f s
  | .vand c f => Sys2Proof.Machine.execVand c f s
  | .vor c f => Sys2Proof.Machine.execVor c f s
  | .vxor c f => Sys2Proof.Machine.execVxor c f s
  | .send c f => Sys2Proof.Machine.execSend c f s
  | .sendwait c f => Sys2Proof.Machine.execSendwait c f s
  | .waitrx c f => Sys2Proof.Machine.execWaitrx c f s
  | .sadd c f => Sys2Proof.Machine.execSadd c f s
  | .sset c f => Sys2Proof.Machine.execSset c f s
  | .stgt c f => Sys2Proof.Machine.execStgt c f s
  | .sread c f => Sys2Proof.Machine.execSread c f s
  | .swait c f => Sys2Proof.Machine.execSwait c f s
  | .swaitv c f => Sys2Proof.Machine.execSwaitv c f s
  | .bar c f => Sys2Proof.Machine.execBar c f s
  | .sabort c f => Sys2Proof.Machine.execSabort c f s
  | .dmard c f => Sys2Proof.Machine.execDmard c f s
  | .dmawr c f => Sys2Proof.Machine.execDmawr c f s
  | .dmard2 c f => Sys2Proof.Machine.execDmard2 c f s
  | .dmawr2 c f => Sys2Proof.Machine.execDmawr2 c f s
  | .dmaUnitTransfer c n linkOk => Sys2Proof.Machine.execDmaUnitTransfer c n linkOk s
  | .dmaComplete c n => Sys2Proof.Machine.execDmaComplete c n s
  | .fill c f => Sys2Proof.Machine.execFill c f s
  | .copy c f => Sys2Proof.Machine.execCopy c f s
  | .fillCopyComplete c => Sys2Proof.Machine.execFillCopyComplete c s
  | .wopen c f => Sys2Proof.Machine.execWopen c f s
  | .wclose c f => Sys2Proof.Machine.execWclose c f s
  | .spack c f => Sys2Proof.Machine.execSpack c f s
  | .smma c f => Sys2Proof.Machine.execSmma c f s
  | .hinit c f => Sys2Proof.Machine.execHinit c f s
  | .hadd c f => Sys2Proof.Machine.execHadd c f s
  | .hmerge c f => Sys2Proof.Machine.execHmerge c f s
  | .fmask c f => Sys2Proof.Machine.execFmask c f s
  | .fcount c f => Sys2Proof.Machine.execFcount c f s
  | .sparseOpComplete c => Sys2Proof.Machine.execSparseOpComplete c s
  | .coreWatchdog c => Sys2Proof.Machine.execCoreWatchdog c s
  | .segmentWakeComplete c seg => Sys2Proof.Machine.execSegmentWakeComplete c seg s
  | .messageReceive c flow => Sys2Proof.Machine.execMessageReceive c flow s
  | .stitchFire n => Sys2Proof.Machine.execStitchFire n s
  | .flitArrive n inp sb flit => Sys2Proof.Machine.execFlitArrive n inp sb flit s
  | .meshBridge n inp => Sys2Proof.Machine.execMeshBridge n inp s
  | .startMark tatError => Sys2Proof.Machine.execStartMark tatError s
  | .settleRequest n => Sys2Proof.Machine.execSettleRequest n s
  | .tatAdd at_ p => Sys2Proof.Machine.execTatAdd at_ p s
  | .tatSet at_ p => Sys2Proof.Machine.execTatSet at_ p s
  | .tatTarget at_ p => Sys2Proof.Machine.execTatTarget at_ p s
  | .tatRead at_ p => Sys2Proof.Machine.execTatRead at_ p s
  | .tatWait at_ p => Sys2Proof.Machine.execTatWait at_ p s
  | .tatWake at_ p => Sys2Proof.Machine.execTatWake at_ p s
  | .tatReadReply at_ p => Sys2Proof.Machine.execTatReadReply at_ p s
  | .tatArrive at_ p => Sys2Proof.Machine.execTatArrive at_ p s
  | .tatRelease at_ p => Sys2Proof.Machine.execTatRelease at_ p s
  | .tatAbort at_ p => Sys2Proof.Machine.execTatAbort at_ p s
  | .tatAbortAck at_ p => Sys2Proof.Machine.execTatAbortAck at_ p s
  | .tatLock at_ p => Sys2Proof.Machine.execTatLock at_ p s
  | .layerPassClose => Sys2Proof.Machine.execLayerPassClose s
  | .layerBoundary => Sys2Proof.Machine.execLayerBoundary s
  | .meshRelock island => Sys2Proof.Machine.execMeshRelock island s
  | .passBoundary => Sys2Proof.Machine.execPassBoundary s
  | .stepBoundary => Sys2Proof.Machine.execStepBoundary s
  | .drainBoundary => Sys2Proof.Machine.execDrainBoundary s
  | .syncCntWrite obj v => Sys2Proof.Machine.execSyncCntWrite obj v s
  | .syncTgtWrite obj v => Sys2Proof.Machine.execSyncTgtWrite obj v s
  | .syncAddWrite obj v => Sys2Proof.Machine.execSyncAddWrite obj v s
  | .dramTempSample t layer q => Sys2Proof.Machine.execDramTempSample t layer q s
  | .refreshRestore t layer => Sys2Proof.Machine.execRefreshRestore t layer s
  | .cxlMemRead h linkOk => Sys2Proof.Machine.execCxlMemRead h linkOk s
  | .cxlMemWrite h data poisoned linkOk => Sys2Proof.Machine.execCxlMemWrite h data poisoned linkOk s
  | .hostPathErrClear again => Sys2Proof.Machine.execHostPathErrClear again s
  | .hostPathWdropClear again => Sys2Proof.Machine.execHostPathWdropClear again s
  | .pdMeshErrClear d again => Sys2Proof.Machine.execPdMeshErrClear d again s
  | .chunk d port m => Sys2Proof.Machine.execChunk d port m s
  | .manifestPart d port m => Sys2Proof.Machine.execManifestPart d port m s
  | .nack d port h => Sys2Proof.Machine.execNack d port h s
  | .endMsg d port h => Sys2Proof.Machine.execEndMsg d port h s
  | .chunkReqRetry d tag => Sys2Proof.Machine.execChunkReqRetry d tag s
  | .weightTimeout d tag => Sys2Proof.Machine.execWeightTimeout d tag s
  | .bcastWaitExpire => Sys2Proof.Machine.execBcastWaitExpire s
  | .chunkStageComplete d k => Sys2Proof.Machine.execChunkStageComplete d k s
  | .epochRelease number => Sys2Proof.Machine.execEpochRelease number s
  | .maskMessage d m => Sys2Proof.Machine.execMaskMessage d m s
  | .focusCtlClear => Sys2Proof.Machine.execFocusCtlClear s
  | .intakeMessage d m => Sys2Proof.Machine.execIntakeMessage d m s
  | .grant d plane h => Sys2Proof.Machine.execGrant d plane h s
  | .refuse d h => Sys2Proof.Machine.execRefuse d h s
  | .redData d m => Sys2Proof.Machine.execRedData d m s
  | .result d h => Sys2Proof.Machine.execResult d h s
  | .redTimeout sk => Sys2Proof.Machine.execRedTimeout sk s
  | .redShardLost => Sys2Proof.Machine.execRedShardLost s
  | .barrier q list => Sys2Proof.Machine.execBarrier q list s
  | .broadcast q list => Sys2Proof.Machine.execBroadcast q list s
  | .allGather q list => Sys2Proof.Machine.execAllGather q list s
  | .reduceScatter q list => Sys2Proof.Machine.execReduceScatter q list s
  | .bind q list => Sys2Proof.Machine.execBind q list s
  | .unbind q list => Sys2Proof.Machine.execUnbind q list s
  | .collData d m => Sys2Proof.Machine.execCollData d m s
  | .join d h => Sys2Proof.Machine.execJoin d h s
  | .ready d h => Sys2Proof.Machine.execReady d h s
  | .commit d h => Sys2Proof.Machine.execCommit d h s
  | .collAbortFrame d h => Sys2Proof.Machine.execCollAbortFrame d h s
  | .collAbortAck d h => Sys2Proof.Machine.execCollAbortAck d h s
  | .dispose d h => Sys2Proof.Machine.execDispose d h s
  | .already d h => Sys2Proof.Machine.execAlready d h s
  | .escalate d h => Sys2Proof.Machine.execEscalate d h s
  | .syncUpdate d h => Sys2Proof.Machine.execSyncUpdate d h s
  | .collTimeout id => Sys2Proof.Machine.execCollTimeout id s
  | .collHalfTimeout id => Sys2Proof.Machine.execCollHalfTimeout id s
  | .collAbortedTimeout id => Sys2Proof.Machine.execCollAbortedTimeout id s
  | .leaderSilenceTimeout id => Sys2Proof.Machine.execLeaderSilenceTimeout id s
  | .collAbort tag => Sys2Proof.Machine.execCollAbort tag s
  | .portPresent p passive => Sys2Proof.Machine.execPortPresent p passive s
  | .portRemoved p => Sys2Proof.Machine.execPortRemoved p s
  | .modulePowered p => Sys2Proof.Machine.execModulePowered p s
  | .linkModule p => Sys2Proof.Machine.execLinkModule p s
  | .trainLock p lanes partnerFour => Sys2Proof.Machine.execTrainLock p lanes partnerFour s
  | .trainTimeout p => Sys2Proof.Machine.execTrainTimeout p s
  | .hello p h => Sys2Proof.Machine.execHello p h s
  | .helloResend p => Sys2Proof.Machine.execHelloResend p s
  | .helloTimeout p => Sys2Proof.Machine.execHelloTimeout p s
  | .lockLost p long => Sys2Proof.Machine.execLockLost p long s
  | .retrainTimeout p => Sys2Proof.Machine.execRetrainTimeout p s
  | .downRetry p => Sys2Proof.Machine.execDownRetry p s
  | .laneSerWindow p high => Sys2Proof.Machine.execLaneSerWindow p high s
  | .flitReceive p flit uncorrectable => Sys2Proof.Machine.execFlitReceive p flit uncorrectable s
  | .flitTransmit p => Sys2Proof.Machine.execFlitTransmit p s
  | .replayTimeout p => Sys2Proof.Machine.execReplayTimeout p s
  | .leave p h => Sys2Proof.Machine.execLeave p h s
  | .unreach p h => Sys2Proof.Machine.execUnreach p h s
  | .reach p h => Sys2Proof.Machine.execReach p h s
  | .azCtlWiden p => Sys2Proof.Machine.execAzCtlWiden p s
  | .azCtlRetrain p => Sys2Proof.Machine.execAzCtlRetrain p s
  | .azCtlDisable p v => Sys2Proof.Machine.execAzCtlDisable p v s
  | .azCtlLocate p v => Sys2Proof.Machine.execAzCtlLocate p v s
  | .leaveTimeout p => Sys2Proof.Machine.execLeaveTimeout p s
  | .loadProgram q => Sys2Proof.Machine.execLoadProgram q s
  | .imageValidationDone bytes => Sys2Proof.Machine.execImageValidationDone bytes s
  | .runPass q table => Sys2Proof.Machine.execRunPass q table s
  | .signalSyncAdd q => Sys2Proof.Machine.execSignalSyncAdd q s
  | .signalSyncSet q => Sys2Proof.Machine.execSignalSyncSet q s
  | .signalSyncTarget q => Sys2Proof.Machine.execSignalSyncTarget q s
  | .waitSync q => Sys2Proof.Machine.execWaitSync q s
  | .waitTimeout w => Sys2Proof.Machine.execWaitTimeout w s
  | .copyDesc q => Sys2Proof.Machine.execCopyDesc q s
  | .fillDesc q => Sys2Proof.Machine.execFillDesc q s
  | .copyFillDone n data fin => Sys2Proof.Machine.execCopyFillDone n data fin s
  | .epochSwitch q => Sys2Proof.Machine.execEpochSwitch q s
  | .epochSwitchAdapter q => Sys2Proof.Machine.execEpochSwitchAdapter q s
  | .descriptorFetch q r => Sys2Proof.Machine.execDescriptorFetch q r s
  | .qTailWrite q v => Sys2Proof.Machine.execQTailWrite q v s
  | .queueEnable q v => Sys2Proof.Machine.execQueueEnable q v s
  | .queueDisable q v => Sys2Proof.Machine.execQueueDisable q v s
  | .abiSelWrite v => Sys2Proof.Machine.execAbiSelWrite v s
  | .mbxDataWrite m v => Sys2Proof.Machine.execMbxDataWrite m v s
  | .mailboxTake m code => Sys2Proof.Machine.execMailboxTake m code s
  | .mailboxPost m v => Sys2Proof.Machine.execMailboxPost m v s
  | .mbxFullClear m => Sys2Proof.Machine.execMbxFullClear m s
  | .mbxRejClear m again => Sys2Proof.Machine.execMbxRejClear m again s
  | .mailboxDomainOff m => Sys2Proof.Machine.execMailboxDomainOff m s
  | .ping m => Sys2Proof.Machine.execPing m s
  | .queueReset m => Sys2Proof.Machine.execQueueReset m s
  | .drain m => Sys2Proof.Machine.execDrain m s
  | .resume m => Sys2Proof.Machine.execResume m s
  | .abortPass m => Sys2Proof.Machine.execAbortPass m s
  | .loupePing => Sys2Proof.Machine.execLoupePing s
  | .attest => Sys2Proof.Machine.execAttest s
  | .getCert => Sys2Proof.Machine.execGetCert s
  | .stageConfig bank => Sys2Proof.Machine.execStageConfig bank s
  | .locate => Sys2Proof.Machine.execLocate s
  | .cxlReset => Sys2Proof.Machine.execCxlReset s
  | .cxlLinkDown => Sys2Proof.Machine.execCxlLinkDown s
  | .msixUnmask v => Sys2Proof.Machine.execMsixUnmask v s
  | .unsupportedAccess off size write => Sys2Proof.Machine.execUnsupportedAccess off size write s
  | .lowWordRead req r => Sys2Proof.Machine.execLowWordRead req r s
  | .rcCounterRead req off events => Sys2Proof.Machine.execRcCounterRead req off events s
  | .registerWrite off v => Sys2Proof.Machine.execRegisterWrite off v s
  | .loupeTick t => Sys2Proof.Machine.execLoupeTick t s
  | .dutyLastResort => Sys2Proof.Machine.execDutyLastResort s
  | .feedVoltageChange f dV => Sys2Proof.Machine.execFeedVoltageChange f dV s
  | .feedQualified f => Sys2Proof.Machine.execFeedQualified f s
  | .pwrStageFault k => Sys2Proof.Machine.execPwrStageFault k s
  | .stageLatchOpen k => Sys2Proof.Machine.execStageLatchOpen k s
  | .stageJoin k => Sys2Proof.Machine.execStageJoin k s
  | .efuseTrip t cause => Sys2Proof.Machine.execEfuseTrip t cause s
  | .throttleEvaluation => Sys2Proof.Machine.execThrottleEvaluation s
  | .fanFailure n => Sys2Proof.Machine.execFanFailure n s
  | .fanLatchOpen n => Sys2Proof.Machine.execFanLatchOpen n s
  | .fanInsert n => Sys2Proof.Machine.execFanInsert n s
  | .coolingDegraded => Sys2Proof.Machine.execCoolingDegraded s
  | .coolingClear => Sys2Proof.Machine.execCoolingClear s
  | .setPowerLimits l => Sys2Proof.Machine.execSetPowerLimits l s
  | .clearPowerLimits => Sys2Proof.Machine.execClearPowerLimits s
  | .standbyPowerApplied => Sys2Proof.Machine.execStandbyPowerApplied s
  | .grantPermission mgr => Sys2Proof.Machine.execGrantPermission mgr s
  | .revokePermission mgr => Sys2Proof.Machine.execRevokePermission mgr s
  | .waveComplete r => Sys2Proof.Machine.execWaveComplete r s
  | .calibrationComplete failed => Sys2Proof.Machine.execCalibrationComplete failed s
  | .drainAction => Sys2Proof.Machine.execDrainAction s
  | .resumeAction => Sys2Proof.Machine.execResumeAction s
  | .coldRestart => Sys2Proof.Machine.execColdRestart s
  | .powerOff => Sys2Proof.Machine.execPowerOff s
  | .forceOff => Sys2Proof.Machine.execForceOff s
  | .powerDownWave => Sys2Proof.Machine.execPowerDownWave s
  | .stageConfiguration bank mode => Sys2Proof.Machine.execStageConfiguration bank mode s
  | .firmwareStage b => Sys2Proof.Machine.execFirmwareStage b s
  | .firmwareActivate mode => Sys2Proof.Machine.execFirmwareActivate mode s
  | .fwComponentReady k => Sys2Proof.Machine.execFwComponentReady k s
  | .fwActivate k => Sys2Proof.Machine.execFwActivate k s
  | .darningColumnTestDone ci row pass => Sys2Proof.Machine.execDarningColumnTestDone ci row pass s
  | .darningTileTestDone d r => Sys2Proof.Machine.execDarningTileTestDone d r s
  | .imageRereadDone t bytes => Sys2Proof.Machine.execImageRereadDone t bytes s
  | .efuseRestoreTimer t => Sys2Proof.Machine.execEfuseRestoreTimer t s
  | .loupeWatchdogExpire => Sys2Proof.Machine.execLoupeWatchdogExpire s
  | .loupeRecoveryTimeout => Sys2Proof.Machine.execLoupeRecoveryTimeout s
  | .earlyBreak => Sys2Proof.Machine.execEarlyBreak s
  | .earlyBreakPowerOff => Sys2Proof.Machine.execEarlyBreakPowerOff s
  | .seatedOpen => Sys2Proof.Machine.execSeatedOpen s
  | .leverClose openMs seated => Sys2Proof.Machine.execLeverClose openMs seated s
  | .cartridgeInsert c => Sys2Proof.Machine.execCartridgeInsert c s
  | .locatePress => Sys2Proof.Machine.execLocatePress s
  | .locateHold => Sys2Proof.Machine.execLocateHold s
  | .drainPress => Sys2Proof.Machine.execDrainPress s
  | .drainHold => Sys2Proof.Machine.execDrainHold s
  | .presenceWindowExpire => Sys2Proof.Machine.execPresenceWindowExpire s
  | .enrollKey slot pub => Sys2Proof.Machine.execEnrollKey slot pub s
  | .revokeKey slot => Sys2Proof.Machine.execRevokeKey slot s
  | .raiseObjectVersion v => Sys2Proof.Machine.execRaiseObjectVersion v s
  | .setPanelLock v => Sys2Proof.Machine.execSetPanelLock v s
  | .clockSet time => Sys2Proof.Machine.execClockSet time s
  | .clientConnect c => Sys2Proof.Machine.execClientConnect c s
  | .eventPushRetry sub delivered => Sys2Proof.Machine.execEventPushRetry sub delivered s
  | .stitchBankLoaded n => Sys2Proof.Machine.execStitchBankLoaded n s
  | .syncUnitSend c => Sys2Proof.Machine.execSyncUnitSend c s
  | .cartridgeRemove => Sys2Proof.Machine.execCartridgeRemove s
  | .hostDieLost => Sys2Proof.Machine.execHostDieLost s
  | .loupeRestartDone => Sys2Proof.Machine.execLoupeRestartDone s
  | .mbxDataRead m ack => Sys2Proof.Machine.execMbxDataRead m ack s
  | .installCertificate k => Sys2Proof.Machine.execInstallCertificate k s
  | .eventSubscription create sub => Sys2Proof.Machine.execEventSubscription create sub s

end Sys2Proof.Machine
end

