-- ==== Sys2Proof/Safety.lean ====
section
/-! DEFINITION. The terms in which claims speak of a run: when a core can issue, what an issued instruction leaves, and
the bounds that a state keeps. -/

namespace Sys2Proof

open Sys2Proof.Machine

/-- The core can issue an instruction that uses S registers `ss` and V registers `vs`: it runs, waits for nothing, no
queued operation will still write one of them (R49), and the PC names an instruction of the program. -/
abbrev CanIssue (s : State) (c : CoreId) (ss vs : List Reg) : Prop :=
  (s.core c).run = .running ∧ (s.core c).units.wait = none ∧ (∀ r ∈ ss, busyS (s.core c).units r = false)
    ∧ (∀ r ∈ vs, busyV (s.core c).units r = false) ∧ (s.core c).regs.pc.toNat < (s.core c).text.length

/-- As `CanIssue`, and the next instruction is one of the program too. -/
abbrev CanGoOn (s : State) (c : CoreId) (ss vs : List Reg) : Prop :=
  CanIssue s c ss vs ∧ (s.core c).regs.pc.toNat + 1 < (s.core c).text.length

/-- The state `t` after core `c` has issued an instruction in `s`: the core is `k` but for its PC, which is `pc`, and the
counters CORE_CYCLE and CORE_INSTRET, which counts it; every other core and every other part of the state is as
before. The count of free values taken may rise. -/
def Issued (s : State) (c : CoreId) (k : Core) (pc : Nat) (t : State) : Prop :=
  t = { s with cores := t.cores, free := t.free }
    ∧ (∀ c', c' ≠ c → t.core c' = s.core c')
    ∧ ∃ cycle, t.core c = { k with
        regs := { k.regs with pc := BitVec.ofNat 11 pc },
        cnt := { k.cnt with cycle := cycle, instret := k.cnt.instret + 1 } }

end Sys2Proof
end

