-- ==== Sys2Proof/Certificates/Slice0/Obligations.lean ====
section
/-! DEFINITION. The statements for the provers. Each docstring says which rule of spec/ a statement formalises. -/

open Sys2Proof Sys2Proof.Machine

/-- A step takes the command at the front of the queue and answers what its meaning answers on the state with the
queue's rest; with nothing queued the module idles (log entry 1). -/
def Obligations.StepRunsFrontCommand : Prop :=
  (∀ i rest s, s.pending = i :: rest → step s = exec i { s with pending := rest }) ∧
  (∀ s : State, s.pending = [] → step s = .next s)

/-- The packets on the links once a node has sent packets towards others, in order (R187). -/
def Sys2Proof.Claims.sentAll (src : TatNode) (l : List (TatNode × BitVec 96)) (q : List Flight) : List Flight :=
  l.foldl (fun q x => sent src x.1 x.2 .none q) q

/-! ### Cores: registers, arithmetic, control (chapter 02) -/

/-- The rows of R54 for scalar arithmetic: the instruction, whether its second operand is IMM sign-extended, and its
value. -/
def Sys2Proof.Claims.aluRows : List ((CoreId → ScalarF → Instr) × Bool × (BitVec 64 → BitVec 64 → BitVec 64)) :=
  [(.add, false, fun a b => a + b), (.addi, true, fun a b => a + b), (.sub, false, fun a b => a - b),
   (.subi, true, fun a b => a - b), (.and, false, fun a b => a &&& b), (.andi, true, fun a b => a &&& b),
   (.or, false, fun a b => a ||| b), (.ori, true, fun a b => a ||| b), (.xor, false, fun a b => a ^^^ b),
   (.xori, true, fun a b => a ^^^ b), (.shl, false, fun a b => a <<< (b.toNat % 64)),
   (.shli, true, fun a b => a <<< (b.toNat % 64)), (.shr, false, fun a b => a >>> (b.toNat % 64)),
   (.shri, true, fun a b => a >>> (b.toNat % 64)), (.sar, false, fun a b => a.sshiftRight (b.toNat % 64)),
   (.sari, true, fun a b => a.sshiftRight (b.toNat % 64)), (.mul, false, fun a b => a * b),
   (.muli, true, fun a b => a * b), (.min, false, fun a b => if a.toInt < b.toInt then a else b),
   (.mini, true, fun a b => if a.toInt < b.toInt then a else b),
   (.max, false, fun a b => if a.toInt < b.toInt then b else a),
   (.maxi, true, fun a b => if a.toInt < b.toInt then b else a),
   (.slt, false, fun a b => if a.toInt < b.toInt then 1 else 0),
   (.slti, true, fun a b => if a.toInt < b.toInt then 1 else 0),
   (.sltu, false, fun a b => if a.toNat < b.toNat then 1 else 0),
   (.sltui, true, fun a b => if a.toNat < b.toNat then 1 else 0),
   (.lih, true, fun a b => (a &&& 0xFFFFFFFF) ||| (b <<< 32))]

open Sys2Proof.Claims

/-- S0 reads zero and ignores writes, and a write of another S register changes that one alone (R47). Every scalar
arithmetic instruction, when the core can issue it, writes SD with its row's value, goes on at PC + 1 and changes
nothing else (R54, R47); NOP writes nothing. Model choices: log entries 2, 8. -/
def Obligations.ScalarArithmetic : Prop :=
  (∀ k : Core, k.sreg 0 = 0) ∧ (∀ (k : Core) v, k.setS 0 v = k) ∧
  (∀ (k : Core) (r q : Reg) v, r ≠ 0 → (k.setS r v).sreg q = if q = r then v else k.sreg q) ∧
  (∀ r ∈ aluRows, ∀ c f s, CanGoOn s c (if r.2.1 then [f.sa, f.sd] else [f.sa, f.sb, f.sd]) [] →
    ∃ t, exec (r.1 c f) s = .next t ∧
      Issued s c ((s.core c).setS f.sd
        (r.2.2 ((s.core c).sreg f.sa) (if r.2.1 then f.imm.signExtend 64 else (s.core c).sreg f.sb)))
        ((s.core c).regs.pc.toNat + 1) t) ∧
  (∀ c s, CanGoOn s c [] [] →
    ∃ t, exec (.nop c) s = .next t ∧ Issued s c (s.core c) ((s.core c).regs.pc.toNat + 1) t)

/-- The conditions of the branches of R54. -/
def Sys2Proof.Claims.branchRows : List ((CoreId → BranchF → Instr) × (BitVec 64 → BitVec 64 → Bool)) :=
  [(.beq, fun a b => decide (a = b)), (.bne, fun a b => decide (a ≠ b)),
   (.blt, fun a b => decide (a.toInt < b.toInt)), (.bge, fun a b => decide (b.toInt ≤ a.toInt)),
   (.bltu, fun a b => decide (a.toNat < b.toNat)), (.bgeu, fun a b => decide (b.toNat ≤ a.toNat))]

/-- A branch whose condition holds goes to PC + IMM, one whose condition fails to PC + 1; JAL also writes S[SA] with
PC + 1; JR goes to S[SA][10:0]. Nothing else changes (R54). The targets are PCs of the program. Model choices: log
entries 2, 8. -/
def Obligations.BranchTargets : Prop :=
  (∀ r ∈ branchRows, ∀ c f s (pc : Nat), CanIssue s c [f.sa, f.sb] [] → pc < (s.core c).text.length →
    (pc : Int) = (s.core c).regs.pc.toNat +
      (if r.2 ((s.core c).sreg f.sa) ((s.core c).sreg f.sb) then f.imm.toInt else 1) →
    ∃ t, exec (r.1 c f) s = .next t ∧ Issued s c (s.core c) pc t) ∧
  (∀ c f s (pc : Nat), CanIssue s c [f.sa] [] → pc < (s.core c).text.length →
    (pc : Int) = (s.core c).regs.pc.toNat + f.imm.toInt →
    ∃ t, exec (.jal c f) s = .next t ∧
      Issued s c ((s.core c).setS f.sa (BitVec.ofNat 64 ((s.core c).regs.pc.toNat + 1))) pc t) ∧
  (∀ c f s, CanIssue s c [f.sa] [] → ((s.core c).sreg f.sa).toNat % 2048 < (s.core c).text.length →
    ∃ t, exec (.jr c f) s = .next t ∧ Issued s c (s.core c) (((s.core c).sreg f.sa).toNat % 2048) t)

/-- `n` bytes at `a` can be accessed by the core: the address is a multiple of `al` and the bytes lie in segments of
its SEG_MASK (R123). -/
abbrev Sys2Proof.Claims.Reaches (k : Core) (a n al : Nat) : Prop := a % al = 0 ∧ spadIn k.task.seg a n = true

/-- The bytes at `a` are `bs`, each written since its segment entered ON. -/
abbrev Sys2Proof.Claims.Holds (k : Core) (a : Nat) (bs : List Byte) : Prop :=
  ∀ i (h : i < bs.length), cellGet k.spad.cells (a + i) = some bs[i]

/-- The core `k'` is `k` with `bs` stored at `a` in its scratchpad: those bytes read so, and every other byte, every
register and every other part of the core is as before. -/
def Sys2Proof.Claims.Stored (k k' : Core) (a : Nat) (bs : List Byte) : Prop :=
  k' = { k with spad := k'.spad } ∧ k'.spad.segs = k.spad.segs ∧ Holds k' a bs ∧
    ∀ b, b < a ∨ a + bs.length ≤ b → cellGet k'.spad.cells b = cellGet k.spad.cells b

/-- LD, LDW and VLD bring the 8, 4 or 128 bytes at the effective address to their register, the lowest byte first and
zero-extended, and change nothing else (R54, R8). ST, STW and VST store the low 8 or 4 bytes of an S register, or the
128 bytes of a V register, at the effective address, and change no other byte (R54, R8). Model choices: log entries 2,
8. -/
def Obligations.ScratchpadAccess : Prop :=
  (∀ r ∈ [((.ld : CoreId → LoadF → Instr), 8), (.ldw, 4)], ∀ c f s bs, CanGoOn s c [f.sa, f.d] [] →
    (s.core c).spad.upset = [] → bs.length = r.2 → Reaches (s.core c) (effAddr (s.core c) f) r.2 r.2 →
    Holds (s.core c) (effAddr (s.core c) f) bs →
    ∃ t, exec (r.1 c f) s = .next t ∧
      Issued s c ((s.core c).setS f.d (BitVec.ofNat 64 (leNat bs))) ((s.core c).regs.pc.toNat + 1) t) ∧
  (∀ c f s bs, CanGoOn s c [f.sa] [f.d] → (s.core c).spad.upset = [] → bs.length = 128 →
    Reaches (s.core c) (effAddr (s.core c) f) 128 32 → Holds (s.core c) (effAddr (s.core c) f) bs →
    ∃ t, exec (.vld c f) s = .next t ∧
      Issued s c ((s.core c).setV f.d (BitVec.ofNat 1024 (leNat bs))) ((s.core c).regs.pc.toNat + 1) t) ∧
  (∀ r ∈ [((.st : CoreId → LoadF → Instr), 8), (.stw, 4)], ∀ c f s, CanGoOn s c [f.sa, f.d] [] →
    Reaches (s.core c) (effAddr (s.core c) f) r.2 r.2 →
    ∃ t k, exec (r.1 c f) s = .next t ∧ Issued s c k ((s.core c).regs.pc.toNat + 1) t ∧
      Stored (s.core c) k (effAddr (s.core c) f) (leBytes r.2 ((s.core c).sreg f.d).toNat)) ∧
  (∀ c f s, CanGoOn s c [f.sa] [f.d] → Reaches (s.core c) (effAddr (s.core c) f) 128 32 →
    ∃ t k, exec (.vst c f) s = .next t ∧ Issued s c k ((s.core c).regs.pc.toNat + 1) t ∧
      Stored (s.core c) k (effAddr (s.core c) f) (leBytes 128 ((s.core c).vreg f.d).toNat))

/-- The state after a program fault of core `c` in `s`: the core has stopped with its fault registers written (R76),
it has discarded what it had queued, and an ABORT with the code is on its way to the root (R80, R81). -/
def Sys2Proof.Claims.Faulted (s : State) (c : CoreId) (unit : Nat) (code : BitVec 16) (addr : Nat) (t : State) : Prop :=
  (t.core c).run = .stopped ∧
  (t.core c).recs.fault = BitVec.ofNat 32 (2 ^ 31 + unit * 2 ^ 16 + code.toNat) ∧
  (t.core c).recs.faultAddr = BitVec.ofNat 32 addr ∧
  (t.core c).regs = (s.core c).regs ∧ (t.core c).spad = (s.core c).spad ∧
  (t.core c).units.mxQ = [] ∧ (t.core c).units.sendQ = [] ∧ (t.core c).units.dmaQ = [] ∧
  t.tat.flight = sent (.core c) .root
    (packet 10 0 0 (gxOf c) (gyOf c) 0 0 (s.core c).task.lpass.toNat code.toNat) .none s.tat.flight

/-- CSRR brings a core-local register to SD (R71), and CSRW writes SP_TAU_P, SP_TAU and SP_EMIN and no other register
(R298, R12). The registers stated are those with no 64-bit pair and no counter of stalls. Model choices: log entries
2, 8, 72. -/
def Obligations.CsrAccess : Prop :=
  (∀ r ∈ [((0x004 : BitVec 12), fun k : Core => k.task.lpass.toNat), (0x01B, fun k => k.cnt.stale.toNat),
      (0x020, fun k => k.recs.fault.toNat), (0x021, fun k => k.recs.faultPc.toNat),
      (0x022, fun k => k.recs.faultAddr.toNat), (0x040, fun k => k.recs.numStatus.toNat),
      (0x052, fun k => k.recs.meshErr.toNat), (0x203, fun k => k.task.tauP.toNat), (0x204, fun k => k.task.tau.toNat)],
    ∀ c f s, CanGoOn s c [f.sd] [] → f.csr = r.1 → tabFind (s.core c).latch r.1.toNat = none →
      ∃ t, exec (.csrr c f) s = .next t ∧
        Issued s c (({ s.core c with latch := tabErase (s.core c).latch r.1.toNat } : Core).setS f.sd
          (BitVec.ofNat 64 (r.2 (s.core c)))) ((s.core c).regs.pc.toNat + 1) t) ∧
  (∀ c f s, CanGoOn s c [f.sa] [] → csrAssigned f.csr.toNat = true →
    ∃ t k, exec (.csrw c f) s = .next t ∧ Issued s c k ((s.core c).regs.pc.toNat + 1) t ∧
      k = { s.core c with task := k.task } ∧
      k.task = { (s.core c).task with
        tauP := if f.csr = 0x203 then ((s.core c).sreg f.sa).setWidth 32 else (s.core c).task.tauP,
        tau := if f.csr = 0x204 then ((s.core c).sreg f.sa).setWidth 32 else (s.core c).task.tau,
        emin := if f.csr = 0x205 then ((s.core c).sreg f.sa).setWidth 8 else (s.core c).task.emin })

/-- Every unit of the core has finished: its queue is empty and nothing of it runs. -/
abbrev Sys2Proof.Claims.UnitsIdle (u : CoreUnits) : Prop :=
  u.mxQ = [] ∧ u.mac = none ∧ u.move = none ∧ u.sendQ = [] ∧ u.sending = [] ∧ u.dmaQ = [] ∧ u.dmaRun = [] ∧
    u.fcQ = [] ∧ u.fcRun = none ∧ u.spQ = [] ∧ u.spRun = none ∧ u.syncQ = []

/-- The units that a FENCE mask selects have finished: bit 0 the matrix unit, 1 sends, 2 DMA, 3 fill and copy, 4
sparse operations (R51). -/
abbrev Sys2Proof.Claims.FenceMet (u : CoreUnits) (imm : BitVec 32) : Prop :=
  (imm.getLsbD 0 = true → u.mxQ = [] ∧ u.mac = none ∧ u.move = none) ∧
  (imm.getLsbD 1 = true → u.sendQ = [] ∧ u.sending = []) ∧
  (imm.getLsbD 2 = true → u.dmaQ = [] ∧ u.dmaRun = []) ∧
  (imm.getLsbD 3 = true → u.fcQ = [] ∧ u.fcRun = none) ∧
  (imm.getLsbD 4 = true → u.spQ = [] ∧ u.spRun = none)

/-- FENCE issues when the units it selects have finished and otherwise holds (R51), and a RSVD bit of its mask is
CORE_ILLEGAL_OP (R52); HALT stops issue (R70); HALT_COMPLETE, with every queue drained, closes the windows and sends
the ARRIVE of the layer-end barrier (R70, R132, R192). Model choices: log entries 2, 8, 16. -/
def Obligations.FenceAndHalt : Prop :=
  (∀ c imm s, CanGoOn s c [] [] → imm.toNat < 32 → FenceMet (s.core c).units imm →
    ∃ t, exec (.fence c imm) s = .next t ∧ Issued s c (s.core c) ((s.core c).regs.pc.toNat + 1) t) ∧
  (∀ c (imm : BitVec 32) s, CanIssue s c [] [] → imm.toNat < 32 → ¬ FenceMet (s.core c).units imm →
    exec (.fence c imm) s = .next s) ∧
  (∀ c (imm : BitVec 32) s, CanIssue s c [] [] → (s.core c).recs.fault = 0 → 32 ≤ imm.toNat →
    ∃ t, exec (.fence c imm) s = .next t ∧ Faulted s c 0 0x0230 0 t) ∧
  (∀ c s, CanIssue s c [] [] →
    ∃ t, exec (.halt c) s = .next t ∧
      Issued s c { s.core c with run := .halting } ((s.core c).regs.pc.toNat + 1) t) ∧
  (∀ c s, (s.core c).run = .halting → UnitsIdle (s.core c).units →
    ∃ t, exec (.haltComplete c) s = .next t ∧ (t.core c).run = .halted ∧ (t.core c).regs = (s.core c).regs ∧
      (∀ n : Fin 8, (t.core c).wins[n.val].opened = false) ∧ (∀ c', c' ≠ c → t.core c' = s.core c') ∧
      t.tat.flight = sent (.core c) (.cluster (ciOf c))
        (packet 8 2 0xFFFF (gxOf c) (gyOf c) 0 0 (s.core c).task.lpass.toNat 0) .none s.tat.flight)

/-- Where a load or store traps: an address that is not a multiple of the access is SPAD_ALIGN (0x0232), bytes outside
the segments of SEG_MASK are SPAD_RANGE (0x0231), each as a program fault of the unit (R79, R80, R123).
CORE_ILLEGAL_OP at a word with a decoding fault (R52, R54), CORE_WATCHDOG where the layer has a watchdog (R79), and
SABORT with S[SB][31:0] as the address (R184, R185): each is a program fault with its code. Model choices: log entry
8. -/
def Obligations.ProgramFaults : Prop :=
  (∀ r ∈ [((.ld : CoreId → LoadF → Instr), 8, 8, 0), (.ldw, 4, 4, 0), (.st, 8, 8, 0), (.stw, 4, 4, 0),
      (.vld, 128, 32, 2), (.vst, 128, 32, 2)],
    ∀ c f s, CanIssue s c (if r.2.2.2 = 2 then [f.sa] else [f.sa, f.d]) (if r.2.2.2 = 2 then [f.d] else []) →
      (s.core c).recs.fault = 0 →
      ¬ Reaches (s.core c) (effAddr (s.core c) f) r.2.1 r.2.2.1 →
      ∃ t, exec (r.1 c f) s = .next t ∧
        Faulted s c r.2.2.2 (if effAddr (s.core c) f % r.2.2.1 ≠ 0 then 0x0232 else 0x0231) (effAddr (s.core c) f) t) ∧
  (∀ c w s, CanIssue s c [] [] → (s.core c).recs.fault = 0 → decodable w = false →
    ∃ t, exec (.coreIllegalOp c w) s = .next t ∧ Faulted s c (unitOfOp (w.toNat / 2 ^ 56 % 256)) 0x0230 0 t) ∧
  (∀ c s e, (s.core c).run = .running → (s.core c).recs.fault = 0 → runningEntry s = some e → e.wdog ≠ 0 →
    ∃ t, exec (.coreWatchdog c) s = .next t ∧ Faulted s c 0 0x0234 0 t ∧
      (t.core c).cnt.cycle = BitVec.ofNat 64 (e.wdog * 1024)) ∧
  (∀ c f s, CanIssue s c [f.sb] [] → (s.core c).recs.fault = 0 → f.scope = 0 →
    ∃ t, exec (.sabort c f) s = .next t ∧ Faulted s c 4 0x0240 (((s.core c).sreg f.sb).toNat % 2 ^ 32) t)

/-! ### Cores: vectors (chapters 02 and 03) -/

/-- Element `i` of `w` bits of a register. -/
def Sys2Proof.Claims.elemAt (w : Nat) (v : BitVec 1024) (i : Nat) : Nat := v.toNat / 2 ^ (w * i) % 2 ^ w

/-- The core after a vector operation that gives VD the value `v` and sets the flags `fl`; VX_BUSY counts it (R71,
R107). -/
def Sys2Proof.Claims.vecCore (k : Core) (vd : Reg) (v : BitVec 1024) (fl : Word) : Core := ((vxTick k).setV vd v).flag fl

/-- Every active lane of `v` is what `g` gives for the lane, every other lane is that of `old`; the flags are those of
the active lanes together (R61, R107). -/
def Sys2Proof.Claims.LanesAre (ty : BitVec 2) (p : BitVec 64) (old v : BitVec 1024) (fl : Word) (g : Nat → Nat × Word) : Prop :=
  (∀ i, i < laneCount ty → elemAt (laneBits ty) v i =
    if p.getLsbD i then (g i).1 % 2 ^ laneBits ty else elemAt (laneBits ty) old i) ∧
  (∀ b, fl.getLsbD b = true ↔ ∃ i, i < laneCount ty ∧ p.getLsbD i = true ∧ (g i).2.getLsbD b = true)

/-- The lane-wise operations with what they give for one lane of VA, VB and VC. -/
def Sys2Proof.Claims.laneRows : List ((CoreId → VecF → Instr) × (VecF → Nat → Nat → Nat → Nat × Word)) :=
  [(.vadd, fun f => vaddLane f.ty f.rm), (.vsub, fun f => vsubLane f.ty f.rm), (.vmul, fun f => vmulLane f.ty f.rm),
   (.vfma, fun f => vfmaLane f.ty f.rm), (.vmax, fun f => pickLane f.ty true), (.vmin, fun f => pickLane f.ty false),
   (.vand, fun _ a b _ => (a &&& b, 0)), (.vor, fun _ a b _ => (a ||| b, 0)), (.vxor, fun _ a b _ => (a ^^^ b, 0))]

/-- VADD to VMIN and the bitwise operations give each active lane its value and leave the others and the rest of the
core (R61, R103, R105). A floating-point lane of VADD, VSUB, VMUL and VFMA with a NaN operand gives the canonical NaN
and sets NAN_IN alone (R93, R103). Model choices: log entries 2, 8, 13. -/
def Obligations.VectorLanes : Prop :=
  (∀ r ∈ laneRows, ∀ c f s, f.ty ≠ 3 → CanGoOn s c [] [f.va, f.vb, f.vc, f.vd] →
    ∃ t v fl, exec (r.1 c f) s = .next t ∧
      Issued s c (vecCore (s.core c) f.vd v fl) ((s.core c).regs.pc.toNat + 1) t ∧
      LanesAre f.ty (predOf (s.core c) f.pm) ((s.core c).vreg f.vd) v fl fun i =>
        r.2 f (elemAt (laneBits f.ty) ((s.core c).vreg f.va) i) (elemAt (laneBits f.ty) ((s.core c).vreg f.vb) i)
          (elemAt (laneBits f.ty) ((s.core c).vreg f.vc) i)) ∧
  (∀ rm (ty : BitVec 2) a b c, ty ≠ 2 → ((laneFmt ty).decode a = .nan ∨ (laneFmt ty).decode b = .nan) →
    vaddLane ty rm a b c = ((laneFmt ty).nanCode, nsNanIn) ∧ vsubLane ty rm a b c = ((laneFmt ty).nanCode, nsNanIn) ∧
    vmulLane ty rm a b c = ((laneFmt ty).nanCode, nsNanIn)) ∧
  (∀ rm (ty : BitVec 2) a b c, ty ≠ 2 →
    ((laneFmt ty).decode a = .nan ∨ (laneFmt ty).decode b = .nan ∨ (laneFmt ty).decode c = .nan) →
    vfmaLane ty rm a b c = ((laneFmt ty).nanCode, nsNanIn))

/-- INT32 elements of 32 bits as signed integers. -/
def Sys2Proof.Claims.int32 (a : Nat) : Int := (BitVec.ofNat 32 a).toInt

/-- What the vector operations give for one INT32 lane (R106); a lane keeps the low 32 bits. -/
def Sys2Proof.Claims.int32Rows : List ((CoreId → VecF → Instr) × (Nat → Nat → Nat → Nat)) :=
  [(.vadd, fun a b _ => a + b), (.vsub, fun a b _ => a + (2 ^ 32 - b)), (.vmul, fun a b _ => a * b),
   (.vfma, fun a b c => a * b + c), (.vmax, fun a b _ => if int32 a < int32 b then b else a),
   (.vmin, fun a b _ => if int32 a < int32 b then a else b)]

/-- The comparisons of VCMP on INT32 lanes by their code (R54, R106). -/
def Sys2Proof.Claims.int32Compare (code : Nat) (a b : Int) : Bool :=
  match code with
  | 0 => decide (a = b)
  | 1 => decide (a ≠ b)
  | 2 => decide (a < b)
  | 3 => decide (a ≤ b)
  | 4 => decide (b < a)
  | 5 => decide (b ≤ a)
  | _ => false

/-- INT32 lanes (R106): VADD, VSUB, VMUL and VRED wrap modulo 2^32, VFMA gives the low 32 bits of VA × VB + VC, VMAX,
VMIN and VCMP compare as signed integers, code 6 of VCMP gives 0, and no operation sets a flag. VX_BUSY counts the
issue (R71), and the other lanes of VRED are 0 (R63). Model choices: log entries 2, 8. -/
def Obligations.IntegerLanesWrap : Prop :=
  (∀ r ∈ int32Rows, ∀ c f s, f.ty = 2 → CanGoOn s c [] [f.va, f.vb, f.vc, f.vd] →
    ∃ t v, exec (r.1 c f) s = .next t ∧
      Issued s c (vecCore (s.core c) f.vd v 0) ((s.core c).regs.pc.toNat + 1) t ∧
      LanesAre 2 (predOf (s.core c) f.pm) ((s.core c).vreg f.vd) v 0 fun i =>
        (r.2 (elemAt 32 ((s.core c).vreg f.va) i) (elemAt 32 ((s.core c).vreg f.vb) i)
          (elemAt 32 ((s.core c).vreg f.vc) i), 0)) ∧
  (∀ c f s, f.ty = 2 → f.ext.toNat % 8 ≠ 7 → 1 ≤ f.vd.val → (h : f.vd.val ≤ 7) → CanGoOn s c [] [f.va, f.vb] →
    ∃ t q, exec (.vcmp c f) s = .next t ∧
      Issued s c ((vxTick (s.core c)).setP ⟨f.vd.val, by omega⟩ q) ((s.core c).regs.pc.toNat + 1) t ∧
      ∀ i, i < 64 → q.getLsbD i =
        if i < 32 ∧ (predOf (s.core c) f.pm).getLsbD i then
          int32Compare (f.ext.toNat % 8) (int32 (elemAt 32 ((s.core c).vreg f.va) i))
            (int32 (elemAt 32 ((s.core c).vreg f.vb) i))
        else ((s.core c).regs.p[f.vd.val]).getLsbD i) ∧
  (∀ c f s, f.ty = 2 → CanGoOn s c [] [f.va, f.vd] →
    ∃ t, exec (.vred c f) s = .next t ∧
      Issued s c (vecCore (s.core c) f.vd (BitVec.ofNat 1024
        (((List.range 32).foldl (fun n i => n +
          if (predOf (s.core c) f.pm).getLsbD i then elemAt 32 ((s.core c).vreg f.va) i else 0) 0) % 2 ^ 32)) 0)
        ((s.core c).regs.pc.toNat + 1) t)

/-- The functions of one floating-point lane (R104). -/
def Sys2Proof.Claims.realRows : List ((CoreId → VecF → Instr) × (Fmt → Bool → Fp → Nat × Word)) :=
  [(.vrcp, rcpLane), (.vrsq, rsqLane), (.vexp2, exp2Lane), (.vlog2, log2Lane)]

/-- VRCP, VRSQ, VEXP2 and VLOG2 work on BF16 and FP32 lanes; with INT32 lanes they fault with CORE_OPERAND (R61,
R104). VBCAST, VMOVS, VSEL and VCMP (R54, R61, R105): a scalar to the active lanes; one lane to an S register; a
selection by a predicate; and a comparison of the active lanes to a predicate register, whose other bits stay. Model
choices: log entries 2, 8, 13, 17. -/
def Obligations.VectorMoves : Prop :=
  (∀ r ∈ realRows, ∀ c f s, f.ty ≠ 3 → f.ty ≠ 2 → CanGoOn s c [] [f.va, f.vd] →
    ∃ t v fl, exec (r.1 c f) s = .next t ∧
      Issued s c (vecCore (s.core c) f.vd v fl) ((s.core c).regs.pc.toNat + 1) t ∧
      LanesAre f.ty (predOf (s.core c) f.pm) ((s.core c).vreg f.vd) v fl fun i =>
        r.2 (laneFmt f.ty) f.rm ((laneFmt f.ty).decode (elemAt (laneBits f.ty) ((s.core c).vreg f.va) i))) ∧
  (∀ r ∈ realRows, ∀ c f s, f.ty = 2 → CanIssue s c [] [f.va, f.vd] → (s.core c).recs.fault = 0 →
    ∃ t, exec (r.1 c f) s = .next t ∧ Faulted s c 2 0x0233 0 t) ∧
  (∀ c f s, f.ty ≠ 3 → CanGoOn s c [f.va] [f.vd] →
    ∃ t v, exec (.vbcast c f) s = .next t ∧
      Issued s c ((vxTick (s.core c)).setV f.vd v) ((s.core c).regs.pc.toNat + 1) t ∧
      LanesAre f.ty (predOf (s.core c) f.pm) ((s.core c).vreg f.vd) v 0 fun _ => (((s.core c).sreg f.va).toNat, 0)) ∧
  (∀ c f s, f.ty ≠ 3 → f.ext.toNat < laneCount f.ty → CanGoOn s c [f.vd] [f.va] →
    ∃ t, exec (.vmovs c f) s = .next t ∧
      Issued s c ((vxTick (s.core c)).setS f.vd
        (BitVec.ofNat 64 (elemAt (laneBits f.ty) ((s.core c).vreg f.va) f.ext.toNat))) ((s.core c).regs.pc.toNat + 1) t) ∧
  (∀ c f s, f.ty ≠ 3 → (h : f.vc.val < 8) → CanGoOn s c [] [f.va, f.vb, f.vd] →
    ∃ t v, exec (.vsel c f) s = .next t ∧
      Issued s c ((vxTick (s.core c)).setV f.vd v) ((s.core c).regs.pc.toNat + 1) t ∧
      LanesAre f.ty (predOf (s.core c) f.pm) ((s.core c).vreg f.vd) v 0 fun i =>
        (if ((s.core c).regs.p[f.vc.val]).getLsbD i then elemAt (laneBits f.ty) ((s.core c).vreg f.va) i
          else elemAt (laneBits f.ty) ((s.core c).vreg f.vb) i, 0)) ∧
  (∀ c f s, f.ty ≠ 3 → f.ext.toNat % 8 ≠ 7 → 1 ≤ f.vd.val → (h : f.vd.val ≤ 7) → CanGoOn s c [] [f.va, f.vb] →
    ∃ t q fl, exec (.vcmp c f) s = .next t ∧
      Issued s c (((vxTick (s.core c)).setP ⟨f.vd.val, by omega⟩ q).flag fl) ((s.core c).regs.pc.toNat + 1) t ∧
      ∀ i, i < 64 → q.getLsbD i =
        if i < laneCount f.ty ∧ (predOf (s.core c) f.pm).getLsbD i then
          (cmpLane f.ty (f.ext.toNat % 8) (elemAt (laneBits f.ty) ((s.core c).vreg f.va) i)
            (elemAt (laneBits f.ty) ((s.core c).vreg f.vb) i)).1
        else ((s.core c).regs.p[f.vd.val]).getLsbD i)

/-- VCVT converts the 32 elements of one span and leaves the rest of VD (R62); VRED writes the sum of the active
lanes, by the tree of R63, to lane 0 and zero to the others (R63). Model choices: log entries 2, 8, 13. -/
def Obligations.ConvertAndReduce : Prop :=
  (∀ c f s (a b sz rz sp rp : Nat), f.ty = 0 → f.ext.toNat = a * 2 ^ 26 + b * 2 ^ 22 + (if rz < sz then rp else sp) * 2 ^ 20 →
    a < 12 → b < 12 → cvtSize a = some sz → cvtSize b = some rz → (sz = 1 ∨ sz = 2 ∨ sz = 4) →
    (if rz < sz then sp = 0 ∧ rp < 4 / rz else if sz < rz then rp = 0 ∧ sp < 4 / sz else sp = rp ∧ sp < 4 / sz) →
    CanGoOn s c [] [f.va, f.vd] →
    ∃ t v fl, exec (.vcvt c f) s = .next t ∧
      Issued s c (vecCore (s.core c) f.vd v fl) ((s.core c).regs.pc.toNat + 1) t ∧
      ∀ j, j < 128 / rz → elemAt (8 * rz) v j =
        if 32 * rp ≤ j ∧ j < 32 * rp + 32 ∧ (predOf (s.core c) f.pm).getLsbD (j - 32 * rp) then
          (cvtTo b f.rm (cvtVal a (elemAt (8 * sz) ((s.core c).vreg f.va) (32 * sp + (j - 32 * rp))))).1 % 2 ^ (8 * rz)
        else elemAt (8 * rz) ((s.core c).vreg f.vd) j) ∧
  (∀ c f s, f.ty ≠ 3 → CanGoOn s c [] [f.va, f.vd] →
    ∃ t fl, exec (.vred c f) s = .next t ∧
      Issued s c (vecCore (s.core c) f.vd (BitVec.ofNat 1024
        (((redTree f.ty f.rm (if f.ty = 1 then 6 else 5) ((List.range (laneCount f.ty)).map fun i =>
          ⟨if (predOf (s.core c) f.pm).getLsbD i then elemAt (laneBits f.ty) ((s.core c).vreg f.va) i else 0, false⟩)
          0).1.head?.map RedNode.v).getD 0)) fl) ((s.core c).regs.pc.toNat + 1) t)

/-! ### Cores: the asynchronous units (chapters 02, 04, 06, 07, 09) -/

/-- The core with its units changed. -/
def Sys2Proof.Claims.withUnits (k : Core) (u : CoreUnits) : Core := { k with units := u }

/-- Only core `c` has changed. -/
def Sys2Proof.Claims.OnlyCore (s : State) (c : CoreId) (t : State) : Prop :=
  t = { s with cores := t.cores, free := t.free } ∧ ∀ c', c' ≠ c → t.core c' = s.core c'

/-- MMA, SMMA, ACCST, ACCRD, ACCWR and ACCZ enter the matrix queue of four with the register values of their issue
(R48, R56 to R58, R60, R272); with the queue full an MMA holds. MATRIX_OP_START takes the operation at the head of the
queue when its path is free and nothing that runs uses its accumulator; an MMA reads A, B and the scales (R48, R59,
R60). MATRIX_OP_COMPLETE adds the result of an MMA or SMMA to its accumulator, or makes the move (R59, R60). Model
choices: log entries 2, 8, 10, 16, 74. -/
def Obligations.MatrixUnit : Prop :=
  (∀ c f s, CanGoOn s c [f.sa, f.sb, f.ss] [] → (s.core c).units.mxQ.length < 4 →
    f.fmtA.toNat < 12 → f.fmtB.toNat < 12 → f.kg ≠ 0 → (pairCycles f.fmtA f.fmtB).isSome = true →
    Reaches (s.core c) ((s.core c).sreg f.sa).toNat (16 * f.kg.toNat * rowBytes f.fmtA) 32 →
    Reaches (s.core c) ((s.core c).sreg f.sb).toNat (32 * f.kg.toNat * rowBytes f.fmtB) 32 →
    (hasScale f.fmtA = true → Reaches (s.core c) (((s.core c).sreg f.ss).toNat % 2 ^ 20) (16 * f.kg.toNat) 16) →
    (hasScale f.fmtB = true →
      Reaches (s.core c) (((s.core c).sreg f.ss).toNat / 2 ^ 32 % 2 ^ 20) (32 * f.kg.toNat) 16) →
    ∃ t, exec (.mma c f) s = .next t ∧
      Issued s c (withUnits (s.core c) { (s.core c).units with mxQ := (s.core c).units.mxQ ++
        [.mma f ((s.core c).sreg f.sa).toNat ((s.core c).sreg f.sb).toNat (((s.core c).sreg f.ss).toNat % 2 ^ 20)
          (((s.core c).sreg f.ss).toNat / 2 ^ 32 % 2 ^ 20) (s.core c).regs.pc] }) ((s.core c).regs.pc.toNat + 1) t) ∧
  (∀ c f s, CanGoOn s c [f.sa, f.sb, f.ss] [] → (s.core c).units.mxQ.length < 4 →
    f.sd = 0 → f.fmtA.toNat < 12 → f.fmtB.toNat < 12 → f.kg ≠ 0 → smmaPair f.fmtA.toNat f.fmtB.toNat = true →
    spadIn (s.core c).task.seg ((s.core c).sreg f.sa).toNat 64 = true →
    Reaches (s.core c) ((s.core c).sreg f.sb).toNat
      (if f.bsp then 32 else 32 * f.kg.toNat * rowBytes f.fmtB) 32 →
    (f.bsp = false → hasScale f.fmtB = true →
      Reaches (s.core c) (((s.core c).sreg f.ss).toNat / 2 ^ 32 % 2 ^ 20) (32 * f.kg.toNat) 16) →
    ∃ t, exec (.smma c f) s = .next t ∧
      Issued s c (withUnits (s.core c) { (s.core c).units with mxQ := (s.core c).units.mxQ ++
        [.smma f ((s.core c).sreg f.sa).toNat ((s.core c).sreg f.sb).toNat
          (((s.core c).sreg f.ss).toNat / 2 ^ 32 % 2 ^ 20) (s.core c).regs.pc (s.core c).cnt.instret] })
        ((s.core c).regs.pc.toNat + 1) t) ∧
  (∀ c f s, CanGoOn s c [f.sa] [] → (s.core c).units.mxQ.length < 4 →
    (f.fmt.toNat ≤ 5 ∨ f.fmt = 10 ∨ f.fmt = 11) →
    Reaches (s.core c) ((s.core c).sreg f.sa).toNat (accstBytes f.fmt) 32 →
    ∃ t, exec (.accst c f) s = .next t ∧
      Issued s c (withUnits (s.core c) { (s.core c).units with mxQ := (s.core c).units.mxQ ++
        [.accst f ((s.core c).sreg f.sa).toNat (s.core c).regs.pc] }) ((s.core c).regs.pc.toNat + 1) t) ∧
  (∀ r ∈ [((.accrd : CoreId → AccF → Instr), true, fun (_ : Core) f => MxOp.accrd f),
      (.accwr, true, fun k f => .accwr f (k.vreg f.vx)), (.accz, false, fun _ f => .accz f)],
    ∀ c f s, CanGoOn s c [] (if r.2.1 then [f.vx] else []) → f.fmt.toNat < 12 → (s.core c).units.mxQ.length < 4 →
    ∃ t, exec (r.1 c f) s = .next t ∧
      Issued s c (withUnits (s.core c) { (s.core c).units with mxQ := (s.core c).units.mxQ ++ [r.2.2 (s.core c) f] })
        ((s.core c).regs.pc.toNat + 1) t) ∧
  (∀ c f s, CanIssue s c [f.sa, f.sb, f.ss] [] → (s.core c).units.mxQ.length = 4 → exec (.mma c f) s = .next s) ∧
  (∀ c s f a b sa sb pc rest bsA bsB bsSA bsSB, (s.core c).units.mxQ = MxOp.mma f a b sa sb pc :: rest →
    (s.core c).units.mac = none → (∀ o, (s.core c).units.move = some o → accOf o ≠ f.acc) →
    (s.core c).spad.upset = [] →
    bsA.length = 16 * f.kg.toNat * rowBytes f.fmtA → Holds (s.core c) a bsA →
    bsB.length = 32 * f.kg.toNat * rowBytes f.fmtB → Holds (s.core c) b bsB →
    bsSA.length = (if hasScale f.fmtA then 16 * f.kg.toNat else 0) → Holds (s.core c) sa bsSA →
    bsSB.length = (if hasScale f.fmtB then 32 * f.kg.toNat else 0) → Holds (s.core c) sb bsSB →
    ∃ t, exec (.matrixOpStart c .mac) s = .next t ∧ OnlyCore s c t ∧
      t.core c = withUnits (s.core c) { (s.core c).units with
        mxQ := rest, mac := some ⟨.mma f a b sa sb pc, [bsA], bsB, bsSA, bsSB⟩ }) ∧
  (∀ c s o rest, (s.core c).units.mxQ = o :: rest → onMac o = false → (s.core c).units.move = none →
    (∀ m, (s.core c).units.mac = some m → accOf m.op ≠ accOf o) →
    ∃ t, exec (.matrixOpStart c .writeOut) s = .next t ∧ OnlyCore s c t ∧
      t.core c = withUnits (s.core c) { (s.core c).units with mxQ := rest, move := some o }) ∧
  (∀ c s m f a b sa sb pc, (s.core c).units.mac = some m → m.op = .mma f a b sa sb pc →
    ∃ t, exec (.matrixOpComplete c .mac) s = .next t ∧ OnlyCore s c t ∧ (t.core c).units.mac = none ∧
      (t.core c).regs = { (s.core c).regs with
        acc := (s.core c).regs.acc.set f.acc.val (mmaResult f m (s.core c).regs.acc[f.acc.val]).1 } ∧
      (t.core c).recs.numStatus =
        (s.core c).recs.numStatus ||| (mmaResult f m (s.core c).regs.acc[f.acc.val]).2) ∧
  (∀ c s m f a b sb pc ord, (s.core c).units.mac = some m → m.op = .smma f a b sb pc ord →
    ∃ t, exec (.matrixOpComplete c .mac) s = .next t ∧ OnlyCore s c t ∧ (t.core c).units.mac = none ∧
      (t.core c).regs = { (s.core c).regs with
        acc := (s.core c).regs.acc.set f.acc.val (smmaResult f m (s.core c).regs.acc[f.acc.val]).1 }) ∧
  (∀ c s o (row : BitVec 1024) (vx : Reg), (s.core c).units.move = some o →
    (∃ f, o = .accrd f ∧ vx = f.vx ∧ row = ((s.core c).regs.acc[f.acc.val])[f.row.val]) →
    ∃ t, exec (.matrixOpComplete c .writeOut) s = .next t ∧ OnlyCore s c t ∧
      t.core c = (withUnits (s.core c) { (s.core c).units with move := none }).setV vx row) ∧
  (∀ c s f v, (s.core c).units.move = some (.accwr f v) →
    ∃ t, exec (.matrixOpComplete c .writeOut) s = .next t ∧ OnlyCore s c t ∧
      (t.core c).regs = { (s.core c).regs with
        acc := (s.core c).regs.acc.set f.acc.val (((s.core c).regs.acc[f.acc.val]).set f.row.val v) }) ∧
  (∀ c s f, (s.core c).units.move = some (.accz f) →
    ∃ t, exec (.matrixOpComplete c .writeOut) s = .next t ∧ OnlyCore s c t ∧
      (t.core c).regs = { (s.core c).regs with
        acc := (s.core c).regs.acc.set f.acc.val (Vector.replicate 16 0) }) ∧
  (∀ c s f a pc, (s.core c).units.move = some (.accst f a pc) →
    ∃ t, exec (.matrixOpComplete c .writeOut) s = .next t ∧ OnlyCore s c t ∧ (t.core c).regs = (s.core c).regs ∧
      Holds (t.core c) a (accstData f.fmt ((s.core c).regs.acc[f.acc.val])).1 ∧
      ∀ x, x < a ∨ a + (accstData f.fmt ((s.core c).regs.acc[f.acc.val])).1.length ≤ x →
        cellGet (t.core c).spad.cells x = cellGet (s.core c).spad.cells x)

/-- The packet of a sync instruction (R184, R188). -/
def Sys2Proof.Claims.syncPkt (c : CoreId) (k : Core) (f : SyncF) (ty value : Nat) : BitVec 96 :=
  packet ty 0 (((k.sreg f.sa).toNat + f.imm.toNat) % 2 ^ 16) (gxOf c) (gyOf c) 0 0 k.task.lpass.toNat value

/-- SEND queues its message when the stream, the length, the alignment and the range pass their checks (R64); SENDWAIT
issues when every send has ended and holds otherwise (R54); WAITRX issues when WIN_RXBYTES has reached S[SL] in the
wrapping test of R68 and holds otherwise. The sync instructions put one packet each in the queue of eight (R183,
R184): SADD, SSET and STGT go on; SREAD, SWAIT, SWAITV and BAR hold issue until the answer (R184, R191). The k-th BAR
of a scope arrives at its barrier k. SYNC_UNIT_SEND sends the packet at the head of the queue to the home of its
object, or an ARRIVE to the core's cluster, and lets the READ of an SWAITV that waits for room enter the queue. Model
choices: log entries 2, 8, 17, 19. -/
def Obligations.MessageAndSyncIssue : Prop :=
  (∀ c f s, CanGoOn s c [f.sa, f.sl, f.so, f.sy] [] → (s.core c).units.sendQ.length < 8 →
    f.stream.toNat < (s.core c).task.streams.length → ((s.core c).sreg f.sl).toNat ≠ 0 →
    ((s.core c).sreg f.sl).toNat ≤ 0x100000 → ((s.core c).sreg f.sl).toNat % 32 = 0 →
    Reaches (s.core c) ((s.core c).sreg f.sa).toNat ((s.core c).sreg f.sl).toNat 32 →
    ∃ t, exec (.send c f) s = .next t ∧
      Issued s c (withUnits (s.core c) { (s.core c).units with sendQ := (s.core c).units.sendQ ++
        [⟨f.stream, ((s.core c).sreg f.sa).toNat, ((s.core c).sreg f.sl).toNat, ((s.core c).sreg f.so).setWidth 32,
          ((s.core c).sreg f.sy).setWidth 16, ((s.core c).sreg f.sy >>> 16).setWidth 16, f.sig⟩] })
        ((s.core c).regs.pc.toNat + 1) t) ∧
  (∀ c f s, CanGoOn s c [] [] → (s.core c).units.sendQ = [] → (s.core c).units.sending = [] →
    ∃ t, exec (.sendwait c f) s = .next t ∧ Issued s c (s.core c) ((s.core c).regs.pc.toNat + 1) t) ∧
  (∀ c f s, CanIssue s c [] [] → (s.core c).units.sending ≠ [] → exec (.sendwait c f) s = .next s) ∧
  (∀ c f s, CanGoOn s c [f.sl] [] → (h : f.stream.toNat < 8) →
    0 ≤ ((s.core c).wins[f.stream.toNat].rx - ((s.core c).sreg f.sl).setWidth 32).toInt →
    ∃ t, exec (.waitrx c f) s = .next t ∧ Issued s c (s.core c) ((s.core c).regs.pc.toNat + 1) t) ∧
  (∀ c f s, CanIssue s c [f.sl] [] → (h : f.stream.toNat < 8) →
    ((s.core c).wins[f.stream.toNat].rx - ((s.core c).sreg f.sl).setWidth 32).toInt < 0 →
    exec (.waitrx c f) s = .next s) ∧
  (∀ r ∈ [((.sadd : CoreId → SyncF → Instr), 1), (.sset, 2), (.stgt, 3)],
    ∀ c f s, CanGoOn s c [f.sa, f.sb] [] → f.scope = 0 → (s.core c).units.syncQ.length < 8 →
    (r.2 = 1 ∨ ((s.core c).sreg f.sa + f.imm.setWidth 64).toNat % 2 ^ 16 < 0xC000) →
    ∃ t, exec (r.1 c f) s = .next t ∧
      Issued s c (withUnits (s.core c) { (s.core c).units with syncQ := (s.core c).units.syncQ ++
        [.pkt (syncPkt c (s.core c) f r.2 (((s.core c).sreg f.sb).toNat % 2 ^ 32))] })
        ((s.core c).regs.pc.toNat + 1) t) ∧
  (∀ r ∈ [((.sread : CoreId → SyncF → Instr), 4, fun (_ : Core) (f : SyncF) id => SyncWait.sread id f.sd),
      (.swait, 6, fun _ _ id => .swait id),
      (.swaitv, 4, fun k f id => .swaitv id ((k.sreg f.sb).setWidth 32))],
    ∀ c f s, CanGoOn s c [f.sa, f.sb, f.sd] [] → f.scope = 0 → (s.core c).units.syncQ.length < 8 →
    ∃ t, exec (r.1 c f) s = .next t ∧
      Issued s c (withUnits (s.core c) { (s.core c).units with
        syncQ := (s.core c).units.syncQ ++ [.pkt (syncPkt c (s.core c) f r.2.1 0)],
        wait := some (r.2.2 (s.core c) f (((s.core c).sreg f.sa).setWidth 16 + f.imm)) })
        ((s.core c).regs.pc.toNat + 1) t) ∧
  (∀ c f s, CanGoOn s c [] [] → (h : f.scope.toNat < 3) → (s.core c).units.syncQ.length < 8 →
    ∃ t k, exec (.bar c f) s = .next t ∧ Issued s c k ((s.core c).regs.pc.toNat + 1) t ∧
      k.units = { (s.core c).units with
        syncQ := (s.core c).units.syncQ ++ [.pkt (packet 8 f.scope.toNat
          ((s.core c).cnt.barNext[f.scope.toNat]).toNat (gxOf c) (gyOf c) 0 0 (s.core c).task.lpass.toNat 0)],
        wait := some (.bar f.scope (s.core c).cnt.barNext[f.scope.toNat]) } ∧
      k.cnt.barNext[f.scope.toNat] = (s.core c).cnt.barNext[f.scope.toNat] + 1 ∧ k.regs = (s.core c).regs) ∧
  (∀ c s p rest, (s.core c).units.syncQ = .pkt p :: rest → (s.core c).units.readDue = false →
    ∃ t, exec (.syncUnitSend c) s = .next t ∧
      t.core c = withUnits (s.core c) { (s.core c).units with syncQ := rest } ∧
      t.tat.flight = sent (.core c) (if pktType p = 8 then .cluster (ciOf c) else homeOf (pktId p)) p .none s.tat.flight) ∧
  (∀ c s p rest id w, (s.core c).units.syncQ = .pkt p :: rest → (s.core c).units.readDue = true →
    (s.core c).units.wait = some (.swaitv id w) →
    ∃ t, exec (.syncUnitSend c) s = .next t ∧
      t.core c = withUnits (s.core c) { (s.core c).units with
        syncQ := rest ++ [.pkt (packet 4 0 id.toNat (gxOf c) (gyOf c) 0 0 (s.core c).task.lpass.toNat 0)],
        readDue := false } ∧
      t.tat.flight = sent (.core c) (if pktType p = 8 then .cluster (ciOf c) else homeOf (pktId p)) p .none s.tat.flight)

/-- The DMA operation that an instruction names: S[SP], the region and offset of S[SM], the length of S[SL], and the
rows and stride of S[SR] in the two-dimensional forms (R214, R215). -/
def Sys2Proof.Claims.dmaOpOf (k : Core) (f : DmaF) (write two : Bool) : DmaOp :=
  { write := write, sp := (k.sreg f.sp).toNat, region := (k.sreg f.sm).toNat / 2 ^ 32 % 16,
    off := (k.sreg f.sm).toNat % 2 ^ 32, len := (k.sreg f.sl).toNat,
    rows := if two then (k.sreg f.sr).toNat % 2 ^ 16 else 1,
    stride := if two then (k.sreg f.sr).toNat / 2 ^ 16 % 2 ^ 32 else 0, next := 0 }

/-- A core has recorded the first memory error of its task, and the abort with its code and the site, the slice of the
unit, is on its way to the root: kind 0 is the stored check, kind 1 link parity (R222, R226, R476). -/
def Sys2Proof.Claims.MemErr (s : State) (c : CoreId) (kind region a : Nat) (t : State) : Prop :=
  (t.core c).recs.memErr = BitVec.ofNat 32
    (2 ^ 31 + kind * 2 ^ 28 + region * 2 ^ 24 + a / 256 % 4 * 2 ^ 22 + a / 1024 % 2 * 2 ^ 21 + 1) ∧
  (t.core c).recs.memErrAddr = BitVec.ofNat 32 (a / 64 * 64) ∧
  t.tat.flight = sent (.core c) .root
    (packet 10 0 0 (gxOf c) (gyOf c) 0 0 (s.core c).task.lpass.toNat (0x0402 + kind))
    (.slice (ciOf c) (a / 256 % 4) (a / 1024 % 2)) s.tat.flight

/-- The four DMA instructions queue their operation when the checks of R215 pass (R214, R215); an operation whose
region may not be accessed or whose end lies past the region faults (MEM_ACCESS 0x0405, MEM_RANGE 0x0404). One unit of
64 bytes of a running operation crosses the bond interface (R216, R222): a read puts the bytes of the region in the
scratchpad, a write puts the bytes of the scratchpad in the region, and no other byte of either memory changes;
MEM_BYTES counts it. A unit that fails its stored check is delivered as read, one that fails link parity as received
(R221, R222): MEM_CHECK (0x0402) or MEM_LINK (0x0403) is recorded with the unit, and the abort goes to the root; a
write that fails link parity leaves the unit with a valid check. DMA_COMPLETE ends an operation whose units have all
moved. Model choices: log entries 2, 8, 16, 71. -/
def Obligations.DmaOperations : Prop :=
  (∀ r ∈ [((.dmard : CoreId → DmaF → Instr), false, false), (.dmawr, true, false), (.dmard2, false, true),
      (.dmawr2, true, true)],
    ∀ c f s, CanGoOn s c [f.sp, f.sm, f.sl, f.sr] [] → (s.core c).units.dmaQ.length < 8 → (r.2.2 = false → f.sr = 0) →
    dmaFault s c (s.core c) r.2.1 r.2.2 ((s.core c).sreg f.sp).toNat ((s.core c).sreg f.sm).toNat
      ((s.core c).sreg f.sl).toNat ((s.core c).sreg f.sr).toNat = none →
    ∃ t, exec (r.1 c f) s = .next t ∧
      Issued s c (withUnits (s.core c) { (s.core c).units with dmaQ := (s.core c).units.dmaQ ++
        [dmaOpOf (s.core c) f r.2.1 r.2.2] }) ((s.core c).regs.pc.toNat + 1) t) ∧
  (∀ s c k (w : Bool) (sp len off : Nat) (region : Nat), sp % 64 = 0 → off % 64 = 0 → len % 64 = 0 → len ≠ 0 →
    len ≤ 0x100000 → off < 2 ^ 32 → region < 16 → spadIn k.task.seg sp len = true →
    dmaFault s c k w false sp (region * 2 ^ 32 + off) len 0 =
      if region = 0 ∨ 8 ≤ region ∨ (w = true ∧ (region = 2 ∨ region = 6 ∨ region = 7)) then some (0x0405, off)
      else if regionBytes s (ciOf c) region < off + len then some (0x0404, off) else none) ∧
  (∀ c s o rest bs, (s.core c).units.dmaRun = o :: rest → o.write = false → o.region ≠ 7 → o.next < dmaUnits o →
    unitBad s (ciOf c) o.region (unitOff o o.next) = false → bs.length = 64 →
    (∀ i (h : i < bs.length), memLook (s.cluster (ciOf c)).mem
      (regionBase s (ciOf c) o.region + unitOff o o.next + i) = some bs[i]) →
    ∃ t k, exec (.dmaUnitTransfer c 0 true) s = .next t ∧ OnlyCore s c t ∧
      Stored k (t.core c) (o.sp + 64 * o.next) bs ∧ k.spad = (s.core c).spad ∧ k.regs = (s.core c).regs ∧
      k.units.dmaRun = { o with next := o.next + 1 } :: rest ∧ k.cnt.memBytes = (s.core c).cnt.memBytes + 64) ∧
  (∀ c s o rest bs, (s.core c).units.dmaRun = o :: rest → o.write = true → o.next < dmaUnits o →
    (s.core c).spad.upset = [] → bs.length = 64 → Holds (s.core c) (o.sp + 64 * o.next) bs →
    ∃ t, exec (.dmaUnitTransfer c 0 true) s = .next t ∧ (t.core c).spad = (s.core c).spad ∧
      (∀ i (h : i < bs.length), memLook (t.cluster (ciOf c)).mem
        (regionBase s (ciOf c) o.region + unitOff o o.next + i) = some bs[i]) ∧
      (∀ a, a < regionBase s (ciOf c) o.region + unitOff o o.next ∨
          regionBase s (ciOf c) o.region + unitOff o o.next + 64 ≤ a →
        memLook (t.cluster (ciOf c)).mem a = memLook (s.cluster (ciOf c)).mem a) ∧
      ∀ ci, ci ≠ ciOf c → t.cluster ci = s.cluster ci) ∧
  (∀ c s o rest bs, (s.core c).units.dmaRun = o :: rest → o.write = false → o.region ≠ 7 → o.next < dmaUnits o →
    unitBad s (ciOf c) o.region (unitOff o o.next) = true → bs.length = 64 → (s.core c).recs.memErr = 0 →
    (∀ i (h : i < bs.length), memLook (s.cluster (ciOf c)).mem
      (regionBase s (ciOf c) o.region + unitOff o o.next + i) = some bs[i]) →
    ∃ t k, exec (.dmaUnitTransfer c 0 true) s = .next t ∧ Stored k (t.core c) (o.sp + 64 * o.next) bs ∧
      k.spad = (s.core c).spad ∧ k.regs = (s.core c).regs ∧ k.units.dmaRun = { o with next := o.next + 1 } :: rest ∧
      MemErr s c 0 o.region (regionBase s (ciOf c) o.region + unitOff o o.next) t ∧
      (∀ c', c' ≠ c → t.core c' = s.core c') ∧ unitBad t (ciOf c) o.region (unitOff o o.next) = true) ∧
  (∀ c s o rest, (s.core c).units.dmaRun = o :: rest → o.write = false → o.next < dmaUnits o →
    (s.core c).recs.memErr = 0 →
    ∃ t k bs, exec (.dmaUnitTransfer c 0 false) s = .next t ∧ bs.length = 64 ∧
      Stored k (t.core c) (o.sp + 64 * o.next) bs ∧ k.spad = (s.core c).spad ∧ k.regs = (s.core c).regs ∧
      k.units.dmaRun = { o with next := o.next + 1 } :: rest ∧
      MemErr s c 1 o.region (regionBase s (ciOf c) o.region + unitOff o o.next) t ∧
      (∀ c', c' ≠ c → t.core c' = s.core c') ∧ t.clusters = s.clusters) ∧
  (∀ c s o rest bs, (s.core c).units.dmaRun = o :: rest → o.write = true → o.next < dmaUnits o →
    (s.core c).spad.upset = [] → bs.length = 64 → Holds (s.core c) (o.sp + 64 * o.next) bs →
    (s.core c).recs.memErr = 0 →
    ∃ t, exec (.dmaUnitTransfer c 0 false) s = .next t ∧ (t.core c).spad = (s.core c).spad ∧
      MemErr s c 1 o.region (regionBase s (ciOf c) o.region + unitOff o o.next) t ∧
      unitBad t (ciOf c) o.region (unitOff o o.next) = false ∧
      (∀ a, a < regionBase s (ciOf c) o.region + unitOff o o.next ∨
          regionBase s (ciOf c) o.region + unitOff o o.next + 64 ≤ a →
        memLook (t.cluster (ciOf c)).mem a = memLook (s.cluster (ciOf c)).mem a) ∧
      ∀ ci, ci ≠ ciOf c → t.cluster ci = s.cluster ci) ∧
  (∀ c s o rest, (s.core c).units.dmaRun = o :: rest → dmaUnits o ≤ o.next →
    ∃ t, exec (.dmaComplete c 0) s = .next t ∧ OnlyCore s c t ∧
      t.core c = withUnits (s.core c) { (s.core c).units with dmaRun := rest })

/-- FILL and COPY start at once in an idle unit and wait in its queue of four otherwise (R135); their end writes the
pattern or the bytes of the source to the destination, no other byte, and starts the next operation (R136, R137).
Model choices: log entries 2, 8, 16, 73. -/
def Obligations.FillAndCopy : Prop :=
  (∀ c f s, CanGoOn s c [f.sa, f.sl, f.sv] [] →
    fcFault (s.core c).task.seg [((s.core c).sreg f.sa).toNat] ((s.core c).sreg f.sl).toNat = none →
    (s.core c).units.fcRun = none →
    ∃ t, exec (.fill c f) s = .next t ∧
      Issued s c (withUnits (s.core c) { (s.core c).units with
        fcRun := some (.fill ((s.core c).sreg f.sa).toNat ((s.core c).sreg f.sl).toNat (((s.core c).sreg f.sv).setWidth 32)) })
        ((s.core c).regs.pc.toNat + 1) t) ∧
  (∀ c f s, CanGoOn s c [f.sd, f.sa, f.sl] [] →
    fcFault (s.core c).task.seg [((s.core c).sreg f.sd).toNat, ((s.core c).sreg f.sa).toNat]
      ((s.core c).sreg f.sl).toNat = none →
    (s.core c).units.fcRun ≠ none → (s.core c).units.fcQ.length < 4 →
    ∃ t, exec (.copy c f) s = .next t ∧
      Issued s c (withUnits (s.core c) { (s.core c).units with fcQ := (s.core c).units.fcQ ++
        [.copy ((s.core c).sreg f.sd).toNat ((s.core c).sreg f.sa).toNat ((s.core c).sreg f.sl).toNat] })
        ((s.core c).regs.pc.toNat + 1) t) ∧
  (∀ c s a l pat, (s.core c).units.fcRun = some (.fill a l pat) →
    ∃ t, exec (.fillCopyComplete c) s = .next t ∧ OnlyCore s c t ∧
      Stored (withUnits (s.core c) { (s.core c).units with
        fcRun := (s.core c).units.fcQ.head?, fcQ := (s.core c).units.fcQ.tail }) (t.core c) a (patBytes pat (l / 4))) ∧
  (∀ c s d a bs, (s.core c).units.fcRun = some (.copy d a bs.length) → (s.core c).spad.upset = [] →
    Holds (s.core c) a bs →
    ∃ t, exec (.fillCopyComplete c) s = .next t ∧ OnlyCore s c t ∧
      Stored (withUnits (s.core c) { (s.core c).units with
        fcRun := (s.core c).units.fcQ.head?, fcQ := (s.core c).units.fcQ.tail }) (t.core c) d bs)

/-- The settings of WOPEN keep R128: BASE and LIMIT are multiples of 32, the window lies in the task's segments, the
RSVD bits are zero, BASE is below LIMIT and the ranges of senders are in order. -/
abbrev Sys2Proof.Claims.WindowOk (seg : BitVec 8) (a b : Nat) : Prop := winFaultCode seg (wopenSet a b) = none

/-- The sparse unit after an operation: the next of its queue runs (R270). -/
abbrev Sys2Proof.Claims.NextSparse (u u' : CoreUnits) : Prop := u'.spRun = u.spQ.head? ∧ u'.spQ = u.spQ.tail

/-- Entry `i` of the accumulator's table holds a key and the bits of a value (R276). -/
abbrev Sys2Proof.Claims.Entry (k : Core) (table i key value : Nat) : Prop :=
  Holds k (table + 8 * i) (leBytes 4 key ++ leBytes 4 value)

/-- The first `n` entries of a key's probe sequence hold other keys (R277). -/
abbrev Sys2Proof.Claims.Passed (k : Core) (table key n : Nat) : Prop :=
  ∀ j < n, ∃ key' v, key' < 0xFFFFFFFF ∧ v < 2 ^ 32 ∧ key' ≠ key ∧
    Entry k table ((key * 0x9E3779B1 % 2 ^ 32 / 2 ^ 19 + j) % 8192) key' v

/-- No byte of the scratchpad of `k` differs from `k'`, but for those from `lo` to `hi` − 1. -/
abbrev Sys2Proof.Claims.SameBut (k k' : Core) (lo hi : Nat) : Prop :=
  ∀ a, a < lo ∨ hi ≤ a → cellGet k'.spad.cells a = cellGet k.spad.cells a

/-- Records of keys and values from their bytes (R276, R278). -/
def Sys2Proof.Claims.recordsOf (bs : List Byte) : List (Nat × Nat) :=
  (splitBits 64 (bs.length / 8) (leNat bs)).map fun w => (w % 2 ^ 32, w / 2 ^ 32)

/-- SPACK, HINIT, HADD, HMERGE and FMASK start at once in an idle sparse unit with the register values of their issue
(R268 to R271, R276 to R279, R287); FCOUNT queues its counts in the sync unit (R295). SPARSE_OP_COMPLETE starts the
next operation of the queue. HINIT leaves the spill area of S[SB] and no spilled record (R276); SPACK writes its strip
at S[SD] (R271); FMASK writes the predicted bits to S[SD][31:0] and the possible ones to S[SD][63:32] (R287). No other
byte of the scratchpad changes. HADD adds the elements of a valid strip in rising index (R277, R278): an element whose
key an entry of its probe sequence holds is added to the entry's value, one that reaches a free entry is stored there,
and one that reaches neither is appended to the spill area, eight records to a unit, or faults with SPARSE_SPILL_FULL
past OFFSET + CAP. HMERGE writes the records of the table and of the spilled keys to stacked memory in rising key,
puts their number in SD and ends the accumulator (R279). Model choices: log entries 2, 8, 16, 74. -/
def Obligations.SparseUnit : Prop :=
  (∀ c f s, CanGoOn s c [f.sd, f.sa, f.sb, f.ss] [] → (s.core c).units.spRun = none →
    sparseUnused f true true true false true false = true → (f.fmtA = 0 ∨ f.fmtA = 2 ∨ f.fmtA = 3 ∨ f.fmtA = 10) →
    1 ≤ ((s.core c).sreg f.sb).toNat % 2 ^ 32 → ((s.core c).sreg f.sb).toNat % 2 ^ 32 ≤ 2048 →
    Reaches (s.core c) ((s.core c).sreg f.sa).toNat
      (32 * (((s.core c).sreg f.sb).toNat % 2 ^ 32) * stripElem f.fmtA.toNat) 32 →
    Reaches (s.core c) ((s.core c).sreg f.sd).toNat 32 32 →
    ∃ t, exec (.spack c f) s = .next t ∧
      Issued s c (withUnits (s.core c) { (s.core c).units with spRun := some (spOp (s.core c) .spack f) })
        ((s.core c).regs.pc.toNat + 1) t) ∧
  (∀ c f s, CanGoOn s c [f.sa, f.sb] [] → (s.core c).units.spRun = none →
    sparseUnused f false true true false false false = true →
    ((s.core c).sreg f.sb).toNat % 2 ^ 32 % 64 = 0 → ((s.core c).sreg f.sb).toNat / 2 ^ 32 % 64 = 0 →
    ((s.core c).sreg f.sb).toNat / 2 ^ 32 ≤ 0x1000000 →
    Reaches (s.core c) ((s.core c).sreg f.sa).toNat 65536 32 →
    ∃ t, exec (.hinit c f) s = .next t ∧
      Issued s c (withUnits (s.core c) { (s.core c).units with spRun := some (spOp (s.core c) .hinit f) })
        ((s.core c).regs.pc.toNat + 1) t) ∧
  (∀ c f s, CanGoOn s c [f.sa] [] → (s.core c).units.spRun = none →
    sparseUnused f false true false false false false = true →
    Reaches (s.core c) ((s.core c).sreg f.sa).toNat 32 32 →
    ∃ t, exec (.hadd c f) s = .next t ∧
      Issued s c (withUnits (s.core c) { (s.core c).units with spRun := some (spOp (s.core c) .hadd f) })
        ((s.core c).regs.pc.toNat + 1) t) ∧
  (∀ c f s, CanGoOn s c [f.sd, f.sa, f.sb] [] → (s.core c).units.spRun = none →
    sparseUnused f true true true false false false = true → ((s.core c).sreg f.sa).toNat % 64 = 0 →
    (((s.core c).sreg f.sa).toNat / 2 ^ 32 = 1 ∨ ((s.core c).sreg f.sa).toNat / 2 ^ 32 = 3 ∨
      ((s.core c).sreg f.sa).toNat / 2 ^ 32 = 4 ∨ ((s.core c).sreg f.sa).toNat / 2 ^ 32 = 5) →
    ∃ t, exec (.hmerge c f) s = .next t ∧
      Issued s c (withUnits (s.core c) { (s.core c).units with spRun := some (spOp (s.core c) .hmerge f) })
        ((s.core c).regs.pc.toNat + 1) t) ∧
  (∀ c f s, CanGoOn s c [f.sd, f.sa, f.sb, f.ss] [] → (s.core c).units.spRun = none →
    sparseUnused f true true true true false false = true →
    Reaches (s.core c) ((s.core c).sreg f.sa).toNat 128 32 → Reaches (s.core c) ((s.core c).sreg f.sb).toNat 16 16 →
    ∃ t, exec (.fmask c f) s = .next t ∧
      Issued s c (withUnits (s.core c) { (s.core c).units with spRun := some (spOp (s.core c) .fmask f) })
        ((s.core c).regs.pc.toNat + 1) t) ∧
  (∀ c f s, CanGoOn s c [f.sa, f.sb] [] → sparseUnused f false true true false false false = true →
    (s.core c).units.syncQ.length < 8 →
    ∃ t, exec (.fcount c f) s = .next t ∧
      Issued s c (withUnits (s.core c) { (s.core c).units with syncQ := (s.core c).units.syncQ ++
        [.fcount (((s.core c).sreg f.sa).setWidth 32) (((s.core c).sreg f.sb).setWidth 32)] })
        ((s.core c).regs.pc.toNat + 1) t) ∧
  (∀ c s o, (s.core c).units.spRun = some o → o.kind = .hinit →
    ∃ t, exec (.sparseOpComplete ⟨c, []⟩) s = .next t ∧ OnlyCore s c t ∧ (t.core c).regs = (s.core c).regs ∧
      NextSparse (s.core c).units (t.core c).units ∧
      (t.core c).units.hash = some
        { table := o.a.toNat, spillOff := o.b.toNat % 2 ^ 32, cap := o.b.toNat / 2 ^ 32, spilled := 0, pend := [], live := 0 } ∧
      (t.core c).cnt.hspill = 0 ∧
      ∀ a, a < o.a.toNat ∨ o.a.toNat + 65536 ≤ a →
        cellGet (t.core c).spad.cells a = cellGet (s.core c).spad.cells a) ∧
  (∀ c s o bs, (s.core c).units.spRun = some o → o.kind = .spack → (s.core c).spad.upset = [] →
    bs.length = 32 * (o.b.toNat % 4096) * stripElem o.f.fmtA.toNat → Holds (s.core c) o.a.toNat bs →
    spadIn (s.core c).task.seg o.d.toNat (packStrip o.f.fmtA.toNat (o.b.toNat % 4096) (o.b.toNat / 2 ^ 32)
      (splitBits (8 * stripElem o.f.fmtA.toNat) (32 * (o.b.toNat % 4096)) (leNat bs))).length = true →
    ∃ t k, exec (.sparseOpComplete ⟨c, []⟩) s = .next t ∧ OnlyCore s c t ∧ NextSparse (s.core c).units (t.core c).units ∧
      k.spad = (s.core c).spad ∧ k.regs = (s.core c).regs ∧
      Stored k (t.core c) o.d.toNat (packStrip o.f.fmtA.toNat (o.b.toNat % 4096) (o.b.toNat / 2 ^ 32)
        (splitBits (8 * stripElem o.f.fmtA.toNat) (32 * (o.b.toNat % 4096)) (leNat bs)))) ∧
  (∀ c s o zs cs, (s.core c).units.spRun = some o → o.kind = .fmask → (s.core c).spad.upset = [] → o.f.sd ≠ 0 →
    zs.length = 128 → Holds (s.core c) o.a.toNat zs → cs.length = 16 → Holds (s.core c) o.b.toNat cs →
    ∃ t, exec (.sparseOpComplete ⟨c, []⟩) s = .next t ∧ OnlyCore s c t ∧ NextSparse (s.core c).units (t.core c).units ∧
      (t.core c).spad = (s.core c).spad ∧ (∀ r, r ≠ o.f.sd → (t.core c).sreg r = (s.core c).sreg r) ∧
      ∀ i, i < 32 →
        let b := fmaskBit (Fmt.fp32.decode (s.core c).task.tauP.toNat) (Fmt.fp32.decode (s.core c).task.tau.toNat)
          (Fmt.fp32.decode (o.ss.toNat % 2 ^ 32)) (betaOf (s.core c).task.emin (leNat cs / 2 ^ (4 * i) % 16))
          (Fmt.fp32.decode (leNat zs / 2 ^ (32 * i) % 2 ^ 32))
        ((t.core c).sreg o.f.sd).getLsbD i = b.1 ∧ ((t.core c).sreg o.f.sd).getLsbD (32 + i) = b.2) ∧
  (∀ (x : SpDone) (h : HashAcc) (key v w n : Nat), x.k.spad.upset = [] → n < 8 → key < 0xFFFFFFFF → v < 2 ^ 32 →
    w < 2 ^ 32 → Passed x.k h.table key n →
    let i := (key * 0x9E3779B1 % 2 ^ 32 / 2 ^ 19 + n) % 8192
    Entry x.k h.table i key w →
    let r := haddElem x h key v
    Entry r.1.k h.table i key (Fmt.fp32.ofFp false (fpAdd (Fmt.fp32.decode w) (Fmt.fp32.decode v)).1).1 ∧
      SameBut x.k r.1.k (h.table + 8 * i + 4) (h.table + 8 * i + 8) ∧ r.2 = h ∧ r.1.writes = x.writes ∧
      r.1.fault = x.fault ∧ r.1.cycles = x.cycles + 1 + n) ∧
  (∀ (x : SpDone) (h : HashAcc) (key v w n : Nat), x.k.spad.upset = [] → n < 8 → key < 0xFFFFFFFF → v < 2 ^ 32 →
    w < 2 ^ 32 → Passed x.k h.table key n →
    let i := (key * 0x9E3779B1 % 2 ^ 32 / 2 ^ 19 + n) % 8192
    Entry x.k h.table i 0xFFFFFFFF w →
    let r := haddElem x h key v
    Entry r.1.k h.table i key v ∧ SameBut x.k r.1.k (h.table + 8 * i) (h.table + 8 * i + 8) ∧
      r.2 = { h with live := h.live + 1 } ∧ r.1.writes = x.writes ∧ r.1.fault = x.fault ∧
      r.1.cycles = x.cycles + 1 + n) ∧
  (∀ (x : SpDone) (h : HashAcc) (key v : Nat), x.k.spad.upset = [] → key < 0xFFFFFFFF → v < 2 ^ 32 →
    Passed x.k h.table key 8 →
    let r := haddElem x h key v
    let rec8 := h.pend ++ [BitVec.ofNat 64 (key + v * 2 ^ 32)]
    r.1.k.spad = x.k.spad ∧
    (h.cap < 8 * (h.spilled + 1) → r.1.fault = some (0x0602, h.spillOff) ∧ r.2 = h) ∧
    (8 * (h.spilled + 1) ≤ h.cap → r.1.fault = x.fault ∧ r.1.k.cnt.hspill = x.k.cnt.hspill + 1 ∧
      (h.pend.length ≠ 7 → r.1.writes = x.writes ∧ r.2 = { h with spilled := h.spilled + 1, pend := rec8 }) ∧
      (h.pend.length = 7 →
        r.1.writes = x.writes ++ [(5, h.spillOff + 64 * (h.spilled / 8), rec8.flatMap fun w => leBytes 8 w.toNat)] ∧
        r.2 = { h with spilled := h.spilled + 1, pend := [] }))) ∧
  (∀ c s o h bs, (s.core c).units.spRun = some o → o.kind = .hadd → (s.core c).units.hash = some h →
    (s.core c).spad.upset = [] → Reaches (s.core c) o.a.toNat bs.length 32 → Holds (s.core c) o.a.toNat bs →
    bs.length = stripLen bs → stripOk bs none none = true → fieldAt bs 8 4 + 32 * fieldAt bs 4 2 ≤ 0xFFFFFFFF →
    (fieldAt bs 6 1 = 0 ∨ fieldAt bs 6 1 = 10) →
    let r := haddAll (fieldAt bs 8 4) (if fieldAt bs 6 1 = 0 then .bf16 else .fp32) (stripElems bs)
      { k := withUnits (s.core c) { (s.core c).units with spRun := none }, free := s.free } h
    r.1.fault = none →
    ∃ t, exec (.sparseOpComplete ⟨c, []⟩) s = .next t ∧ NextSparse (s.core c).units (t.core c).units ∧
      (t.core c).units.hash = some r.2 ∧ (t.core c).spad = r.1.k.spad ∧ (t.core c).regs = (s.core c).regs ∧
      (t.core c).cnt.hspill = r.1.k.cnt.hspill ∧ (∀ c', c' ≠ c → t.core c' = s.core c') ∧
      (r.1.writes = [] → t.clusters = s.clusters)) ∧
  (∀ c s o h tb sp, (s.core c).units.spRun = some o → o.kind = .hmerge → (s.core c).units.hash = some h →
    (s.core c).spad.upset = [] → o.f.sd ≠ 0 → tb.length = 65536 → Holds (s.core c) h.table tb →
    sp.length = 64 * (h.spilled / 8) → (∀ i < h.spilled / 8, unitBad s (ciOf c) 5 (h.spillOff + 64 * i) = false) →
    (∀ i (hi : i < sp.length),
      memLook (s.cluster (ciOf c)).mem (regionBase s (ciOf c) 5 + h.spillOff + i) = some sp[i]) →
    let sums := ((recordsOf sp ++ recordsOf (h.pend.flatMap fun w => leBytes 8 w.toNat)).foldl addRecord ([], 0)).1
    let region := o.a.toNat / 2 ^ 32 % 16
    let off := o.a.toNat % 2 ^ 32
    let n := 8 * ((recordsOf tb).filter (·.1 ≠ 0xFFFFFFFF) ++ sums).length
    let flush := regionBase s (ciOf c) 5 + h.spillOff + sp.length
    (1 ≤ region ∧ region < 6) → n ≤ o.b.toNat → off + n ≤ regionBytes s (ciOf c) region →
    (h.pend = [] ∨ regionBase s (ciOf c) region + off + n ≤ flush ∨ flush + 64 ≤ regionBase s (ciOf c) region + off) →
    ∃ t, ∃ recs : List (Nat × Nat), exec (.sparseOpComplete ⟨c, []⟩) s = .next t ∧ NextSparse (s.core c).units (t.core c).units ∧
      recs.Perm ((recordsOf tb).filter (·.1 ≠ 0xFFFFFFFF) ++ sums) ∧ recs.Pairwise (fun x y => x.1 ≤ y.1) ∧
      (t.core c).sreg o.f.sd = BitVec.ofNat 64 recs.length ∧ (∀ r, r ≠ o.f.sd → (t.core c).sreg r = (s.core c).sreg r) ∧
      (t.core c).units.hash = none ∧ SameBut (s.core c) (t.core c) h.table (h.table + 65536) ∧
      (∀ i (hi : i < (recs.flatMap fun x => leBytes 4 x.1 ++ leBytes 4 x.2).length),
        memLook (t.cluster (ciOf c)).mem (regionBase s (ciOf c) region + off + i) =
          some (recs.flatMap fun x => leBytes 4 x.1 ++ leBytes 4 x.2)[i]) ∧
      (∀ a, (a < regionBase s (ciOf c) region + off ∨ regionBase s (ciOf c) region + off + n ≤ a) →
        (h.pend = [] ∨ a < flush ∨ flush + 64 ≤ a) →
        memLook (t.cluster (ciOf c)).mem a = memLook (s.cluster (ciOf c)).mem a) ∧
      ∀ ci, ci ≠ ciOf c → t.cluster ci = s.cluster ci)

/-- WOPEN opens its window with the settings of S[SA] and S[SB] and WIN_RXBYTES zero; WCLOSE closes it and keeps its
settings; no other window changes (R128, R132). A waking segment enters ON (R124). MESSAGE_RECEIVE (R66, R133): a
whole message of this layer pass that its window allows is written at BASE + OFFSET, no other byte changes, and
WIN_RXBYTES rises by its payload; a message of another LPASS is dropped and counted. A header is judged as it arrives,
with the payload that is there, and until the rest is written WOPEN and WCLOSE of its window stall (R132). A message
with SIG sends its increment to its object once its payload is written, or waits for room in the sync unit's queue
(R67). A header that its window refuses is WIN_FAULT (0x0310): CORE_WIN_FAULT holds the first of the task and counts
the later ones, and the payload is dropped (R133, R134). Model choices: log entries 2, 8, 15, 73. -/
def Obligations.WindowsAndMessages : Prop :=
  (∀ c (f : WinF) s, CanGoOn s c [f.sa, f.sb] [] →
    WindowOk (s.core c).task.seg ((s.core c).sreg f.sa).toNat ((s.core c).sreg f.sb).toNat →
    windowBusy (s.core c) f.w.val = false →
    ∃ t w, exec (.wopen c f) s = .next t ∧
      Issued s c { s.core c with wins := (s.core c).wins.set f.w.val w } ((s.core c).regs.pc.toNat + 1) t ∧
      w.opened = true ∧ w.rx = 0 ∧ w.base.toNat = ((s.core c).sreg f.sa).toNat % 2 ^ 20 ∧
      w.limit.toNat = ((s.core c).sreg f.sa).toNat / 2 ^ 32 % 2 ^ 21 ∧
      w.gxLo.toNat = ((s.core c).sreg f.sb).toNat % 2 ^ 8 ∧
      w.srcAny = ((s.core c).sreg f.sb).getLsbD 32 ∧ w.edge = ((s.core c).sreg f.sb).getLsbD 33) ∧
  (∀ c (f : WinF) s, CanGoOn s c [] [] → windowBusy (s.core c) f.w.val = false →
    ∃ t, exec (.wclose c f) s = .next t ∧
      Issued s c { s.core c with
        wins := (s.core c).wins.set f.w.val { (s.core c).wins[f.w.val] with opened := false } }
        ((s.core c).regs.pc.toNat + 1) t) ∧
  (∀ c (f : WinF) s, CanIssue s c [f.sa, f.sb] [] →
    WindowOk (s.core c).task.seg ((s.core c).sreg f.sa).toNat ((s.core c).sreg f.sb).toNat →
    windowBusy (s.core c) f.w.val = true → exec (.wopen c f) s = .next s) ∧
  (∀ c (f : WinF) s, CanIssue s c [] [] → windowBusy (s.core c) f.w.val = true → exec (.wclose c f) s = .next s) ∧
  (∀ c (seg : Fin 8) s, (s.core c).spad.segs[seg.val] = .waking →
    ∃ t, exec (.segmentWakeComplete c seg) s = .next t ∧ OnlyCore s c t ∧
      (t.core c).spad.segs = (s.core c).spad.segs.set seg.val .on ∧ (t.core c).regs = (s.core c).regs ∧
      (∀ a, seg.val * 0x20000 ≤ a → a < (seg.val + 1) * 0x20000 → cellGet (t.core c).spad.cells a = none) ∧
      ∀ a, a < seg.val * 0x20000 ∨ (seg.val + 1) * 0x20000 ≤ a →
        cellGet (t.core c).spad.cells a = cellGet (s.core c).spad.cells a) ∧
  (∀ c flow s h pay rest (w : Fin 8), tabFind (s.core c).accepts flow.toNat = none →
    takeMessage flow (s.core c).rx = some (h, pay, rest) →
    hdrLpass h = (s.core c).task.lpass.toNat → hdrWin h = w.val → windowReason (s.core c).wins[w.val] h = none →
    hdrSig h = false →
    ∃ t, exec (.messageReceive c flow) s = .next t ∧ OnlyCore s c t ∧ (t.core c).rx = rest ∧
      (t.core c).regs = (s.core c).regs ∧
      Holds (t.core c) ((s.core c).wins[w.val].base.toNat + hdrOffset h) (pay.flatMap flitBytes) ∧
      (∀ a, a < (s.core c).wins[w.val].base.toNat + hdrOffset h ∨
          (s.core c).wins[w.val].base.toNat + hdrOffset h + (pay.flatMap flitBytes).length ≤ a →
        cellGet (t.core c).spad.cells a = cellGet (s.core c).spad.cells a) ∧
      (t.core c).wins[w.val].rx = (s.core c).wins[w.val].rx + BitVec.ofNat 32 (32 * pay.length) ∧
      ∀ v : Fin 8, v ≠ w → (t.core c).wins[v.val] = (s.core c).wins[v.val]) ∧
  (∀ c flow s h pay rest, tabFind (s.core c).accepts flow.toNat = none →
    takeMessage flow (s.core c).rx = some (h, pay, rest) → hdrLpass h ≠ (s.core c).task.lpass.toNat →
    ∃ t, exec (.messageReceive c flow) s = .next t ∧ OnlyCore s c t ∧ (t.core c).rx = rest ∧
      (t.core c).accepts = tabErase (s.core c).accepts flow.toNat ∧
      (t.core c).cnt = { (s.core c).cnt with stale := (s.core c).cnt.stale + 1 } ∧
      (t.core c).regs = (s.core c).regs ∧ (t.core c).spad = (s.core c).spad ∧ (t.core c).wins = (s.core c).wins ∧
      (t.core c).units = (s.core c).units) ∧
  (∀ c flow s h pay rest (w : Fin 8), tabFind (s.core c).accepts flow.toNat = none →
    takeMessage flow (s.core c).rx = some (h, pay, rest) → 1 ≤ hdrLength h →
    hdrLpass h = (s.core c).task.lpass.toNat → hdrWin h = w.val → windowReason (s.core c).wins[w.val] h = none →
    hdrSig h = true →
    ∃ t, exec (.messageReceive c flow) s = .next t ∧ OnlyCore s c t ∧ (t.core c).rx = rest ∧
      (t.core c).regs = (s.core c).regs ∧
      Holds (t.core c) ((s.core c).wins[w.val].base.toNat + hdrOffset h) (pay.flatMap flitBytes) ∧
      (t.core c).wins[w.val].rx = (s.core c).wins[w.val].rx + BitVec.ofNat 32 (32 * pay.length) ∧
      ((s.core c).units.syncQ.length < 8 → tabFind (t.core c).accepts flow.toNat = none ∧
        (t.core c).units = { (s.core c).units with syncQ := (s.core c).units.syncQ ++ [.pkt (packet 1 0 (hdrSyncId h)
          (gxOf c) (gyOf c) 0 0 (s.core c).task.lpass.toNat (hdrSyncInc h))] }) ∧
      (8 ≤ (s.core c).units.syncQ.length → (t.core c).units = (s.core c).units ∧
        tabFind (t.core c).accepts flow.toNat = some
          ⟨h, true, (s.core c).wins[w.val].base.toNat, pay.length, (hdrLength h + 31) / 32⟩)) ∧
  (∀ c flow s h pay (w : Fin 8) reason, tabFind (s.core c).accepts flow.toNat = none →
    ((s.core c).rx.filter fun x => x.1 == flow).map Prod.snd = h :: pay →
    hdrLpass h = (s.core c).task.lpass.toNat → hdrWin h = w.val →
    windowReason (s.core c).wins[w.val] h = some reason → (s.core c).recs.winFault = 0 → (s.core c).recs.fault = 0 →
    ∃ t, exec (.messageReceive c flow) s = .next t ∧ Faulted s c 3 0x0310 0 t ∧
      (t.core c).recs.winFault = BitVec.ofNat 32
        (2 ^ 31 + reason * 2 ^ 28 + w.val * 2 ^ 24 + hdrSrcGy h * 2 ^ 16 + hdrSrcGx h * 2 ^ 8 + 1) ∧
      (t.core c).wins = (s.core c).wins ∧ ∀ c', c' ≠ c → t.core c' = s.core c') ∧
  (∀ c flow s h pay (w : Fin 8) reason, tabFind (s.core c).accepts flow.toNat = none →
    ((s.core c).rx.filter fun x => x.1 == flow).map Prod.snd = h :: pay →
    hdrLpass h = (s.core c).task.lpass.toNat → hdrWin h = w.val →
    windowReason (s.core c).wins[w.val] h = some reason → (s.core c).recs.winFault.getLsbD 31 = true →
    ∃ t, exec (.messageReceive c flow) s = .next t ∧ OnlyCore s c t ∧ (t.core c).run = (s.core c).run ∧
      (t.core c).recs = { (s.core c).recs with winFault := if (s.core c).recs.winFault.toNat % 256 = 255
        then (s.core c).recs.winFault else (s.core c).recs.winFault + 1 } ∧
      (t.core c).spad = (s.core c).spad ∧ (t.core c).wins = (s.core c).wins ∧
      (t.core c).units = (s.core c).units) ∧
  (∀ c flow s h (pay : List (BitVec 256)) (w : Fin 8), tabFind (s.core c).accepts flow.toNat = none →
    ((s.core c).rx.filter fun x => x.1 == flow).map Prod.snd = h :: pay → pay.length < (hdrLength h + 31) / 32 →
    hdrLpass h = (s.core c).task.lpass.toNat → hdrWin h = w.val → windowReason (s.core c).wins[w.val] h = none →
    ∃ t, exec (.messageReceive c flow) s = .next t ∧ OnlyCore s c t ∧ (t.core c).regs = (s.core c).regs ∧
      tabFind (t.core c).accepts flow.toNat = some
        ⟨h, true, (s.core c).wins[w.val].base.toNat, pay.length, (hdrLength h + 31) / 32⟩ ∧
      (t.core c).rx = (s.core c).rx.filter (fun x => x.1 != flow) ∧ windowBusy (t.core c) w.val = true ∧
      Holds (t.core c) ((s.core c).wins[w.val].base.toNat + hdrOffset h) (pay.flatMap flitBytes) ∧
      (t.core c).wins[w.val].rx = (s.core c).wins[w.val].rx + BitVec.ofNat 32 (32 * pay.length))

/-! ### The stitch mesh (chapter 05) -/

/-- Nothing of the state but its cores and the flits on the links has changed, and of the cores only `c`. -/
def Sys2Proof.Claims.CoreAndWires (s : State) (c : CoreId) (t : State) : Prop :=
  t = { s with cores := t.cores, wires := t.wires } ∧ ∀ c', c' ≠ c → t.core c' = s.core c'

/-- The state after a mesh error of a kind at a router: CORE_MESH_ERR holds the first of the task, and ABORT with
0x0301 + kind is on its way to the root, with the input's link, the bridge or the core as its site (R168, R169, R476).
-/
def Sys2Proof.Claims.RouterErr (s : State) (c : CoreId) (kind inp tag : Nat) (t : State) : Prop :=
  (t.core c).recs.meshErr = BitVec.ofNat 32 (2 ^ 31 + kind * 2 ^ 28 + inp * 2 ^ 25 +
    (s.core c).router.slot % periodOf s * 2 ^ 12 + tag * 2 ^ 6 + (s.core c).router.slot % 64) ∧
  t.tat.flight = sent (.router c) .root
    (packet 10 0 0 (gxOf c) (gyOf c) 0 0 (s.core c).task.lpass.toNat (0x0301 + kind))
    (if kind = 3 then .bridge c inp else if inp = 4 then .core c else .link c inp) s.tat.flight ∧
  (t.core c).regs = (s.core c).regs ∧ ∀ c', c' ≠ c → t.core c' = s.core c'

/-- STITCH_FIRE (R145, R151): a slot of a running router in which no stitch fires and nothing is held only advances
the slot count. In a slot with one stitch, a flit that is due leaves its hold queue and goes out on the stitch's link
with its TAG and sideband, and CORE_FLITS counts it, or goes to the core with its flow. A head that is late, or due
with no stitch that releases it, is a slip of its input and its TAG, and a late one is forwarded as read by a stitch
that fires on its input (R151, R169). MESH_HOLD_MAX takes the occupancy at the end of the slot (R171). A router that
has stopped fires nothing. A port die drives an inbound edge link with the next flit of the flow. STITCH_BANK_LOADED
gives a node the coming layer's table (R148). Model choices: log entries 5, 21, 75. -/
def Obligations.MeshSlots : Prop :=
  (∀ c s, (s.core c).router.running = false → exec (.stitchFire (.router c)) s = .next s) ∧
  (∀ c s, (s.core c).router.running = true → (∀ i : Fin 5, (s.core c).router.hold[i.val] = []) →
    (s.core c).router.table.filter (fun w => firesAt w ((s.core c).router.slot % periodOf s)) = [] →
    ∃ t, exec (.stitchFire (.router c)) s = .next t ∧ OnlyCore s c t ∧
      t.core c = { s.core c with router := { (s.core c).router with slot := (s.core c).router.slot + 1 } }) ∧
  (∀ c s w (inp o : Fin 4) (h : Held) rest dst inp' allow, (s.core c).router.running = true →
    (s.core c).router.table.filter (fun w => firesAt w ((s.core c).router.slot % periodOf s)) = [w] →
    stIn w = inp.val → (∀ o' : Fin 5, stOut w o'.val = decide (o'.val = o.val)) →
    (∀ i : Fin 5, i.val ≠ inp.val → (s.core c).router.hold[i.val] = []) → (s.core c).router.hold[inp.val] = h :: rest →
    h.tag.toNat = (s.core c).router.slot % 64 → neighbour c o.val = some (dst, inp', allow) →
    ∃ t, exec (.stitchFire (.router c)) s = .next t ∧ CoreAndWires s c t ∧
      t.wires = s.wires ++ [⟨dst, inp', sideband true ((s.core c).router.slot + allow) h.flit, h.flit⟩] ∧
      (t.core c).router = { (s.core c).router with
        hold := (s.core c).router.hold.set inp.val rest, slot := (s.core c).router.slot + 1,
        holdMax := (s.core c).router.holdMax.set inp.val (max (s.core c).router.holdMax[inp.val] (min 24 rest.length)) } ∧
      (t.core c).cnt.flits[o.val] = (s.core c).cnt.flits[o.val] + 1 ∧ (t.core c).regs = (s.core c).regs ∧
      (t.core c).rx = (s.core c).rx ∧ (t.core c).spad = (s.core c).spad) ∧
  (∀ c s w (inp : Fin 4) (h : Held) rest, (s.core c).router.running = true →
    (s.core c).router.table.filter (fun w => firesAt w ((s.core c).router.slot % periodOf s)) = [w] →
    stIn w = inp.val → (∀ o' : Fin 5, stOut w o'.val = decide (o'.val = 4)) →
    (∀ i : Fin 5, i.val ≠ inp.val → (s.core c).router.hold[i.val] = []) → (s.core c).router.hold[inp.val] = h :: rest →
    h.tag.toNat = (s.core c).router.slot % 64 →
    ∃ t, exec (.stitchFire (.router c)) s = .next t ∧ OnlyCore s c t ∧
      t.core c = { s.core c with
        rx := (s.core c).rx ++ [(stFlow w, h.flit)],
        router := { (s.core c).router with
          hold := (s.core c).router.hold.set inp.val rest, slot := (s.core c).router.slot + 1,
          holdMax := (s.core c).router.holdMax.set inp.val
            (max (s.core c).router.holdMax[inp.val] (min 24 rest.length)) } }) ∧
  (∀ c s (inp : Fin 5) (h : Held) rest, (s.core c).router.running = true → (s.core c).recs.meshErr = 0 →
    (s.core c).router.table.filter (fun w => firesAt w ((s.core c).router.slot % periodOf s)) = [] →
    (∀ i : Fin 5, i ≠ inp → (s.core c).router.hold[i.val] = []) → (s.core c).router.hold[inp.val] = h :: rest →
    (h.tag.toNat = (s.core c).router.slot % 64 ∨
      32 < (h.tag.toNat + 64 - (s.core c).router.slot % 64) % 64) →
    ∃ t, exec (.stitchFire (.router c)) s = .next t ∧ RouterErr s c 1 inp.val h.tag.toNat t) ∧
  (∀ c s w (inp o : Fin 4) (h : Held) rest dst inp' allow, (s.core c).router.running = true →
    (s.core c).recs.meshErr = 0 →
    (s.core c).router.table.filter (fun w => firesAt w ((s.core c).router.slot % periodOf s)) = [w] →
    stIn w = inp.val → (∀ o' : Fin 5, stOut w o'.val = decide (o'.val = o.val)) →
    (∀ i : Fin 5, i.val ≠ inp.val → (s.core c).router.hold[i.val] = []) → (s.core c).router.hold[inp.val] = h :: rest →
    32 < (h.tag.toNat + 64 - (s.core c).router.slot % 64) % 64 → neighbour c o.val = some (dst, inp', allow) →
    ∃ t, exec (.stitchFire (.router c)) s = .next t ∧ RouterErr s c 1 inp.val h.tag.toNat t ∧
      t.wires = s.wires ++ [⟨dst, inp', sideband true ((s.core c).router.slot + allow) h.flit, h.flit⟩] ∧
      (t.core c).router.hold = (s.core c).router.hold.set inp.val rest ∧
      (t.core c).router.slot = (s.core c).router.slot + 1) ∧
  (∀ d s w c inp f rest, (s.dies[d.val]).running = true → (s.dies[d.val]).hold = [] →
    (s.dies[d.val]).table.filter (fun w => firesAt w ((s.dies[d.val]).slot % periodOf s)) = [w] →
    edgeOutbound w = false → edgeRouter d (edgeLinkOf w) = some (c, inp) →
    injectFlit (stFlow w) (s.dies[d.val]).inject = some (f, rest) →
    ∃ t, exec (.stitchFire (.die d)) s = .next t ∧ t = { s with dies := t.dies, wires := t.wires } ∧
      t.wires = s.wires ++ [⟨.router c, inp, sideband true ((s.dies[d.val]).slot + 21) f, f⟩] ∧
      (t.dies[d.val]).inject = rest ∧ (t.dies[d.val]).slot = (s.dies[d.val]).slot + 1 ∧
      ∀ e : DieId, e ≠ d → t.dies[e.val] = s.dies[e.val]) ∧
  (∀ c s p, (comingEntry s).bind (planOf s) = some p →
    ∃ t, exec (.stitchBankLoaded (.router c)) s = .next t ∧ OnlyCore s c t ∧
      t.core c = { s.core c with router := { (s.core c).router with
        next := some (tabGet [] p.routers c.val), loaded := true } })

/-- FLIT_ARRIVE (R144, R151): a flit enters its hold queue with its TAG; one that fails parity is a parity error, and
one that finds 24 flits there an overflow, and both go on as read (R169); an idle slot that passes parity changes
nothing, and one that fails it is a parity error. The oldest flit of the link leaves it, whatever the receiver does
with the slot. A stopped router discards what arrives (R163). MESH_BRIDGE records a bridge error and raises the abort
(R168); at a port die the record is PD_MESH_ERR (R546). Model choices: log entries 5, 21, 75. -/
def Obligations.MeshArrivals : Prop :=
  (∀ c (inp : Fin 5) sb flit s, (s.core c).router.running = true → sbOk sb flit = true → sbValid sb = true →
    (s.core c).router.hold[inp.val].length < 24 →
    ∃ t, exec (.flitArrive (.router c) inp.val sb flit) s = .next t ∧ CoreAndWires s c t ∧
      t.wires = linkLess (.router c) inp.val sb flit s.wires ∧ t.core c = { s.core c with router := { (s.core c).router with
        hold := (s.core c).router.hold.set inp.val
          ((s.core c).router.hold[inp.val] ++ [⟨BitVec.ofNat 6 (sbTag sb), flit⟩]) } }) ∧
  (∀ c (inp : Fin 5) sb flit s, (s.core c).router.running = true → sbOk sb flit = true → sbValid sb = true →
    24 ≤ (s.core c).router.hold[inp.val].length → (s.core c).recs.meshErr = 0 →
    ∃ t, exec (.flitArrive (.router c) inp.val sb flit) s = .next t ∧ RouterErr s c 2 inp.val (sbTag sb) t ∧
      (t.core c).router = { (s.core c).router with
        hold := (s.core c).router.hold.set inp.val
          ((s.core c).router.hold[inp.val] ++ [⟨BitVec.ofNat 6 (sbTag sb), flit⟩]) }) ∧
  (∀ c (inp : Fin 5) sb flit s, (s.core c).router.running = true → sbOk sb flit = false → sbValid sb = true →
    (s.core c).router.hold[inp.val].length < 24 → (s.core c).recs.meshErr = 0 →
    ∃ t, exec (.flitArrive (.router c) inp.val sb flit) s = .next t ∧ RouterErr s c 0 inp.val (sbTag sb) t ∧
      (t.core c).router = { (s.core c).router with
        hold := (s.core c).router.hold.set inp.val
          ((s.core c).router.hold[inp.val] ++ [⟨BitVec.ofNat 6 (sbTag sb), flit⟩]) }) ∧
  (∀ c (inp : Fin 5) sb flit s, (s.core c).router.running = true → sbOk sb flit = true → sbValid sb = false →
    exec (.flitArrive (.router c) inp.val sb flit) s = .next s) ∧
  (∀ c (inp : Fin 5) sb flit s, (s.core c).router.running = true → sbOk sb flit = false → sbValid sb = false →
    (s.core c).recs.meshErr = 0 →
    ∃ t, exec (.flitArrive (.router c) inp.val sb flit) s = .next t ∧ RouterErr s c 0 inp.val (sbTag sb) t) ∧
  (∀ c inp sb flit s, (s.core c).router.running = false →
    exec (.flitArrive (.router c) inp sb flit) s =
      .next { s with wires := linkLess (.router c) inp sb flit s.wires }) ∧
  (∀ n inp sb flit before w after, (sbOk sb flit = true → sbValid sb = true) → w.dst = n → w.inp = inp →
    (∀ x ∈ before, x.dst = n → x.inp ≠ inp) →
    linkLess n inp sb flit (before ++ w :: after) = before ++ after) ∧
  (∀ d link sb flit s, (s.dies[d.val]).running = true → sbOk sb flit = true → sbValid sb = true →
    (tabGet [] (s.dies[d.val]).hold link).length < 24 →
    ∃ t, exec (.flitArrive (.die d) link sb flit) s = .next t ∧ t = { s with dies := t.dies, wires := t.wires } ∧
      t.wires = linkLess (.die d) link sb flit s.wires ∧
      t.dies[d.val] = { s.dies[d.val] with
        hold := tabSet (s.dies[d.val]).hold link
          (tabGet [] (s.dies[d.val]).hold link ++ [⟨BitVec.ofNat 6 (sbTag sb), flit⟩]) } ∧
      ∀ e : DieId, e ≠ d → t.dies[e.val] = s.dies[e.val]) ∧
  (∀ c (inp : Fin 5) s, (s.core c).router.running = true → (s.core c).recs.meshErr = 0 →
    ∃ t, exec (.meshBridge (.router c) inp.val) s = .next t ∧ RouterErr s c 3 inp.val 0 t) ∧
  (∀ d link s, (s.dies[d.val]).running = true → link < 128 → (s.dies[d.val]).meshErr = 0 →
    ∃ t, exec (.meshBridge (.die d) link) s = .next t ∧
      (t.dies[d.val]).meshErr = BitVec.ofNat 32 (2 ^ 31 + 3 * 2 ^ 28 + link * 2 ^ 21 + 1) ∧
      t.tat.flight = sent (.die d) .root (packet 10 0 0 0 (0xC0 + d.val) 0 0 s.lpass 0x0304) (.edge d link) s.tat.flight)

/-- A layer pass that has started, is OPEN and settles (R192). -/
abbrev Sys2Proof.Claims.Settles (s : State) : Prop :=
  ∃ lp, s.eng.lp = some lp ∧ lp.started = true ∧ lp.settling = true ∧ lp.decision = .opened

/-- START_MARK (R161, R202): with every segment ON, every bank loaded and no lock report awaited the layer pass
starts; CORE_LPASS goes up by one, and a core with a program starts it at PC 0 with its registers cleared (R47, R76).
A first tatting error, of the start mark or since the last layer pass, leaves the layer pass to be marked again.
SETTLE_REQUEST: a router whose hold queues are empty reports ARRIVE of barrier 0xFFFF to its cluster, once (R162,
R192). Model choices: log entries 5, 21, 75, 84. -/
def Obligations.StartAndSettle : Prop :=
  (∀ s lp m, s.eng.lp = some lp → lp.started = false → s.eng.pass.bind (·.ended) = none → lp.markFails = 0 →
    (m.tatError ≠ none ∨ s.tat.markErr ≠ none) →
    exec (.startMark m) s = .next
      (({ s with tat := { s.tat with markErr := none } } : State).setLp (some { lp with markFails := 1 }))) ∧
  (∀ s lp m, s.eng.lp = some lp → lp.started = false → s.eng.pass.bind (·.ended) = none → s.tat.markErr = none →
    m.tatError = none → s.tat.relock = false → segsReady s lp = true → banksReady s lp = true →
    ∃ t, exec (.startMark m) s = .next t ∧ t.eng.passNo = s.eng.passNo + 1 ∧
      (∃ lp', t.eng.lp = some lp' ∧ lp'.started = true ∧ lp'.number = s.eng.passNo + 1) ∧
      ∀ c g, coreUnserved s c = false → progIn (lpProgs s lp) c = some g → g.text ≠ [] → g.wins = [] →
        (t.core c).run = .running ∧ (t.core c).regs = {} ∧ (t.core c).task.lpass = s.eng.passNo + 1 ∧
          (t.core c).text = g.text ∧ (t.core c).router.running = true) ∧
  (∀ c s, Settles s → inOrder s (.router c) (RxPacket.of (releasePkt s 2 0xFFFF 1)) = true →
    (s.core c).router.settled = false → (∀ i : Fin 5, (s.core c).router.hold[i.val] = []) →
    ∃ t, exec (.settleRequest (.router c)) s = .next t ∧
      t.core c = { s.core c with router := { (s.core c).router with settled := true } } ∧
      t.tat.flight = sent (.router c) (.cluster (ciOf c)) (packet 8 2 0xFFFF (gxOf c) (gyOf c) 0 0 s.lpass 0) .none
        (takeFlight (.router c) (RxPacket.of (releasePkt s 2 0xFFFF 1)) s).2.tat.flight) ∧
  (∀ c s, (s.core c).router.settled = true → exec (.settleRequest (.router c)) s = .next s)

/-! ### The tatting mesh (chapter 06) -/

/-- The commands that receive a packet, with the type each takes (R188). -/
def Sys2Proof.Claims.tatRows : List ((TatNode → RxPacket → Instr) × Nat) :=
  [(.tatAdd, 1), (.tatSet, 2), (.tatTarget, 3), (.tatRead, 4), (.tatReadReply, 5), (.tatWait, 6), (.tatWake, 7),
   (.tatArrive, 8), (.tatRelease, 9), (.tatAbort, 10), (.tatAbortAck, 11), (.tatLock, 12)]

/-- The packets in flight once this one has arrived. -/
def Sys2Proof.Claims.flightLess (n : TatNode) (p : RxPacket) (s : State) : List Flight := (takeFlight n p s).2.tat.flight

/-- The state after a tatting error at core `c`: the packet is gone, CORE_SYNC_ERR holds its type and the code, and
ABORT is on its way to the root, with the link that the packet came by as its site (R201, R202, R476). -/
def Sys2Proof.Claims.TatErr (s : State) (c : CoreId) (p : RxPacket) (code : Nat) (t : State) : Prop :=
  (t.core c).recs.syncErr = BitVec.ofNat 32 (2 ^ 31 + pktType p.bits * 2 ^ 16 + code) ∧
  (t.core c).units = (s.core c).units ∧
  t.tat.flight = sent (.core c) .root
    (packet 10 0 0 (gxOf c) (gyOf c) 0 0 (s.core c).task.lpass.toNat code)
    (linkInto (.core c) (takeFlight (.core c) p s).1) (flightLess (.core c) p s)

/-- At a core, for every packet command: a packet that fails parity is discarded with TAT_PARITY (0x0306), one of an
undefined type or with a reserved bit set with TAT_UNEXPECTED (0x0307), and one of another layer pass is dropped and
counted in TAT_STALE (R189, R201). Between layer passes there is none to abort, and the error fails the next start
mark (R202). Model choices: log entries 18, 76. -/
def Obligations.PacketChecks : Prop :=
  ∀ r ∈ tatRows, ∀ c p s, inOrder s (.core c) p = true →
    (p.parityOk = false → passOn s = true → (s.core c).recs.syncErr = 0 →
      ∃ t, exec (r.1 (.core c) p) s = .next t ∧ TatErr s c p 0x0306 t) ∧
    (p.parityOk = true → p.valid = true → (pktType p.bits = 0 ∨ 13 ≤ pktType p.bits ∨ pktRsvd p.bits ≠ 0) → passOn s = true →
      (s.core c).recs.syncErr = 0 → ∃ t, exec (r.1 (.core c) p) s = .next t ∧ TatErr s c p 0x0307 t) ∧
    (p.parityOk = false → passOn s = false → s.tat.markErr = none →
      ∃ t, exec (r.1 (.core c) p) s = .next t ∧ t.tat.markErr = some (linkInto (.core c) (takeFlight (.core c) p s).1, 0x0306) ∧
        t.tat.flight = flightLess (.core c) p s) ∧
    (p.parityOk = true → p.valid = true → pktType p.bits = r.2 → pktRsvd p.bits = 0 → pktLpass p.bits ≠ s.lpass % 256 →
      ∃ t, exec (r.1 (.core c) p) s = .next t ∧ t.tat.flight = flightLess (.core c) p s ∧
        t.core c = { s.core c with cnt := { (s.core c).cnt with tatStale := (s.core c).cnt.tatStale + 1 } } ∧
        ∀ c', c' ≠ c → t.core c' = s.core c')

/-- A packet of a type that arrives at a node in its order (R178, R187) and passes the checks of R189 and R201. -/
abbrev Sys2Proof.Claims.Passes (s : State) (n : TatNode) (ty : Nat) (p : RxPacket) : Prop :=
  inOrder s n p = true ∧ p.parityOk = true ∧ p.valid = true ∧ pktType p.bits = ty ∧ pktRsvd p.bits = 0 ∧
    pktLpass p.bits = s.lpass % 256

/-- No WAIT_SYNC runs on any queue, so that a change of an object completes no descriptor. -/
abbrev Sys2Proof.Claims.NoWaitSync (s : State) : Prop := ∀ q : QueueId, ∀ f ∈ (s.host.queues[q.val]).running, dType f.d ≠ 5

/-- WAKE for a wait entry, with the node that it is for (R189). -/
def Sys2Proof.Claims.wakePkt (s : State) (id : Nat) (w : Waiter) : TatNode × BitVec 96 :=
  (nodeOf w.gx.toNat w.gy.toNat, packet 7 0 id 0 0 w.gx.toNat w.gy.toNat
    (if 0xD0 ≤ w.gy.toNat then s.lpass else w.lpass.toNat) 0)

/-- The object `id` has become `o` in `t`, but that a satisfied object has woken every waiter and its list is empty
(R174, R179); `fl` was in flight. Every other object is as in `s`. -/
def Sys2Proof.Claims.ObjChanged (s : State) (id : Nat) (o : SyncObj) (fl : List Flight) (t : State) : Prop :=
  (satisfied o = true → objGet t id = { o with waiters := [] } ∧ 
    t.tat.flight = sentAll (homeOf id) (o.waiters.map (wakePkt s id)) fl) ∧
  (satisfied o = false → objGet t id = o ∧ t.tat.flight = fl) ∧
  ∀ id', id' ≠ id → objGet t id' = objGet s id'

/-- The operations that change an object (R177, R184). -/
def Sys2Proof.Claims.objRows : List ((TatNode → RxPacket → Instr) × Nat × (SyncObj → Word → SyncObj)) :=
  [(.tatAdd, 1, fun o v => { o with count := o.count + v }), (.tatSet, 2, fun o v => { o with count := v }),
   (.tatTarget, 3, fun o v => { o with target := v })]

/-- ADD, SET and TARGET at the home cluster change COUNT or TARGET and wake the waiters of an object that is then
satisfied (R174, R177, R179). READ is answered with COUNT, a satisfied WAIT with WAKE, and another WAIT is entered
(R177, R179). At the root the ADD of a core is held until its layer pass commits (R181), and SET and TARGET of a core
have no effect; nor has any change by a shuttle of a cluster-homed object (R177). A cluster hub forwards an operation
for an object of another home on its way (R177, R187). Model choices: log entries 18, 70, 76. -/
def Obligations.ObjectOperations : Prop :=
  (∀ r ∈ objRows, ∀ ci p s, Passes s (.cluster ci) r.2.1 p → homeOf (pktId p.bits) = .cluster ci → tileUnserved s (tileOfCi ci) = false →
    pktGy p.bits < 0xD0 → NoWaitSync s →
    ∃ t, exec (r.1 (.cluster ci) p) s = .next t ∧
      ObjChanged s (pktId p.bits) (r.2.2 (objGet s (pktId p.bits)) (BitVec.ofNat 32 (pktValue p.bits)))
        (flightLess (.cluster ci) p s) t ∧ t.cores = s.cores ∧ t.host = s.host) ∧
  (∀ r ∈ objRows, ∀ ci p s, Passes s (.cluster ci) r.2.1 p → homeOf (pktId p.bits) = .cluster ci → 0xD0 ≤ pktGy p.bits →
    exec (r.1 (.cluster ci) p) s = .next (takeFlight (.cluster ci) p s).2) ∧
  (∀ r ∈ tatRows, r.2 ∈ [1, 2, 3, 4, 6] → ∀ ci p s f, Passes s (.cluster ci) r.2 p → flightAt s (.cluster ci) p = some f →
    homeOf (pktId p.bits) ≠ .cluster ci →
    exec (r.1 (.cluster ci) p) s = .next { s with tat := { s.tat with
      flight := enqueue { f with src := .cluster ci, dst := nextHop (.cluster ci) (homeOf (pktId p.bits)) }
        (flightLess (.cluster ci) p s) } }) ∧
  (∀ r ∈ objRows, ∀ p s, Passes s .root r.2.1 p → homeOf (pktId p.bits) = .root → 0xD0 ≤ pktGy p.bits → NoWaitSync s →
    ∃ t, exec (r.1 .root p) s = .next t ∧
      ObjChanged s (pktId p.bits) (r.2.2 (objGet s (pktId p.bits)) (BitVec.ofNat 32 (pktValue p.bits)))
        (flightLess .root p s) t) ∧
  (∀ p s lp, Passes s .root 1 p → homeOf (pktId p.bits) = .root → pktGy p.bits < 0xD0 → s.eng.lp = some lp → lp.started = true →
    lp.decision = .opened →
    ∃ t, exec (.tatAdd .root p) s = .next t ∧ (∀ id, objGet t id = objGet s id) ∧
      t.eng = { s.eng with lp := some { lp with
        held := lp.held ++ [(BitVec.ofNat 16 (pktId p.bits), BitVec.ofNat 32 (pktValue p.bits))] } }) ∧
  (∀ r ∈ [((.tatSet : TatNode → RxPacket → Instr), 2), (.tatTarget, 3)], ∀ p s, Passes s .root r.2 p →
    homeOf (pktId p.bits) = .root → pktGy p.bits < 0xD0 → exec (r.1 .root p) s = .next (takeFlight .root p s).2) ∧
  (∀ ci p s, Passes s (.cluster ci) 4 p → homeOf (pktId p.bits) = .cluster ci → tileUnserved s (tileOfCi ci) = false →
    ∃ t, exec (.tatRead (.cluster ci) p) s = .next t ∧ (∀ id, objGet t id = objGet s id) ∧
      t.tat.flight = sent (.cluster ci) (nodeOf (pktGx p.bits) (pktGy p.bits))
        (packet 5 0 (pktId p.bits) 0 0 (pktGx p.bits) (pktGy p.bits) (pktLpass p.bits)
          (objGet s (pktId p.bits)).count.toNat) .none (flightLess (.cluster ci) p s)) ∧
  (∀ ci p s, Passes s (.cluster ci) 6 p → homeOf (pktId p.bits) = .cluster ci → tileUnserved s (tileOfCi ci) = false →
    let w : Waiter := ⟨BitVec.ofNat 8 (pktGx p.bits), BitVec.ofNat 8 (pktGy p.bits), BitVec.ofNat 8 (pktLpass p.bits),
      poolFull s (pktId p.bits)⟩
    ∃ t, exec (.tatWait (.cluster ci) p) s = .next t ∧
      if satisfied (objGet s (pktId p.bits)) = true then
        (∀ id, objGet t id = objGet s id) ∧
        t.tat.flight = sentAll (.cluster ci) [wakePkt s (pktId p.bits) w] (flightLess (.cluster ci) p s)
      else
        objGet t (pktId p.bits) = { objGet s (pktId p.bits) with waiters := (objGet s (pktId p.bits)).waiters ++ [w] } ∧
        (∀ id', id' ≠ pktId p.bits → objGet t id' = objGet s id') ∧ t.tat.flight = flightLess (.cluster ci) p s)

/-- The core after its wait has ended: SYNC_WAIT_CYCLES may have advanced (R200), and `k` holds all else. -/
def Sys2Proof.Claims.WaitEnded (k k' : Core) : Prop :=
  k' = { k with units := { k.units with wait := none }, cnt := { k.cnt with waitCycles := k'.cnt.waitCycles } }

/-- WAKE ends the SWAIT on its object; READ_REPLY gives SREAD the COUNT, zero-extended, and ends SWAITV once COUNT has
reached the value in the wrapping test, or has it read again, once the queue of eight has room; RELEASE ends the BAR
of its scope and number and counts the barrier (R184, R191). An answer that no wait calls for is TAT_UNEXPECTED
(R201). Model choices: log entries 18, 19. -/
def Obligations.SyncAnswers : Prop :=
  (∀ c p s id, Passes s (.core c) 7 p → (s.core c).units.wait = some (.swait id) → id.toNat = pktId p.bits →
    ∃ t, exec (.tatWake (.core c) p) s = .next t ∧ WaitEnded (s.core c) (t.core c) ∧
      t.tat.flight = flightLess (.core c) p s ∧ ∀ c', c' ≠ c → t.core c' = s.core c') ∧
  (∀ c p s, Passes s (.core c) 7 p → (s.core c).units.wait = none → passOn s = true → (s.core c).recs.syncErr = 0 →
    ∃ t, exec (.tatWake (.core c) p) s = .next t ∧ TatErr s c p 0x0307 t) ∧
  (∀ c p s id sd, Passes s (.core c) 5 p → (s.core c).units.wait = some (.sread id sd) → id.toNat = pktId p.bits →
    ∃ t, exec (.tatReadReply (.core c) p) s = .next t ∧
      t.core c = withUnits ((s.core c).setS sd (BitVec.ofNat 64 (pktValue p.bits))) { (s.core c).units with wait := none }) ∧
  (∀ c p s id w, Passes s (.core c) 5 p → (s.core c).units.wait = some (.swaitv id w) → id.toNat = pktId p.bits →
    0 ≤ (BitVec.ofNat 32 (pktValue p.bits) - w).toInt →
    ∃ t, exec (.tatReadReply (.core c) p) s = .next t ∧ WaitEnded (s.core c) (t.core c)) ∧
  (∀ c p s id w, Passes s (.core c) 5 p → (s.core c).units.wait = some (.swaitv id w) → id.toNat = pktId p.bits →
    (BitVec.ofNat 32 (pktValue p.bits) - w).toInt < 0 →
    ∃ t, exec (.tatReadReply (.core c) p) s = .next t ∧
      t.core c = withUnits (s.core c) (if (s.core c).units.syncQ.length < 8 then
        { (s.core c).units with syncQ := (s.core c).units.syncQ ++
          [.pkt (packet 4 0 id.toNat (gxOf c) (gyOf c) 0 0 (s.core c).task.lpass.toNat 0)] }
        else { (s.core c).units with readDue := true })) ∧
  (∀ c p s scope n, Passes s (.core c) 9 p → (s.core c).units.wait = some (.bar scope n) → (h : scope.toNat < 3) →
    scope.toNat = pktScope p.bits → n.toNat = pktId p.bits →
    ∃ t, exec (.tatRelease (.core c) p) s = .next t ∧
      WaitEnded { s.core c with cnt := { (s.core c).cnt with
        bars := (s.core c).cnt.bars.set scope.toNat ((s.core c).cnt.bars[scope.toNat] + 1) } } (t.core c))

/-- The packet comes from core `c`: by the core's link, or from outside the model with the core's position as SRC. -/
abbrev Sys2Proof.Claims.FromCore (s : State) (c : CoreId) (p : RxPacket) : Prop :=
  (takeFlight (.cluster (ciOf c)) p s).1 = some (.core c) ∨
    ((takeFlight (.cluster (ciOf c)) p s).1 = none ∧ pktGx p.bits = gxOf c ∧ pktGy p.bits = gyOf c)

/-- A hub after an ARRIVE of its child `i` at the barrier of a scope. -/
def Sys2Proof.Claims.childArrived (h : Hub) (sc : Fin 3) (i : Nat) : Hub :=
  { h with arr := h.arr.set sc.val (setBit h.arr[sc.val] i) }

/-- The hub of a cluster after an ARRIVE of core `c` at the barrier of a scope. -/
def Sys2Proof.Claims.hubArrived (h : Hub) (sc : Fin 3) (c : CoreId) : Hub := childArrived h sc (inCluster c)

/-- The packet comes up from a cluster of the tile. -/
abbrev Sys2Proof.Claims.FromCluster (s : State) (pt : TileId) (ci : ClusterId) (p : RxPacket) : Prop :=
  (takeFlight (.tile pt) p s).1 = some (.cluster ci) ∧ tileOfCi ci = pt

/-- What the root sends to every tile hub in service, and to every port die. -/
def Sys2Proof.Claims.toAll (s : State) (p : BitVec 96) : List (TatNode × BitVec 96) :=
  (servedTiles s).map (fun pt => (.tile pt, p)) ++ (List.finRange 8).map fun d => (.die d, p)

/-- The last ARRIVE of the second round of the layer-end barrier reaches the root (R192): every other tile hub and
port die has settled, and the layer pass, which is bound to no collective, is OPEN. -/
abbrev Sys2Proof.Claims.LastSettles (s : State) (lp : LayerPass) (pt : TileId) (p : RxPacket) : Prop :=
  Passes s .root 8 p ∧ (takeFlight .root p s).1 = some (.tile pt) ∧ pktScope p.bits = 2 ∧ pktId p.bits = 0xFFFF ∧
    s.eng.lp = some lp ∧ lp.settling = true ∧ lp.decision = .opened ∧ lp.kind = .work ∧ lp.inst = none ∧
    setBit s.tat.hub.settled pt.val = fullMask 48 ∧ s.tat.dieSettled = 0xFF

/-- ARRIVE at a cluster hub (R191): an arrival that leaves the barrier incomplete is kept; the last one of scope 0
goes on to the next barrier and releases the cores that arrived, and that of scope 1 or 2 sends ARRIVE to the tile
hub; an arrival at another barrier than the next is TAT_UNEXPECTED. A tile hub does the same for scopes 1 and 2, and
the root for scope 2 (R191); RELEASE of scope 2 goes down to those that have arrived (R191). The first round of
barrier 0xFFFF ends with the settle request to every tile hub and port die (R192). The second ends with the decision
(R192, R196): a layer pass that no collective is bound to commits, with the final RELEASE, its held ADDs applied
together (R28, R181), and its pass goes on or ends; a slip aborts it with MESH_SLIP (0x0302, R162). ABORT goes down
the same tree, to the clusters of a tile, and a port die that it reaches stops and answers ABORT_ACK; a cluster hub
gathers the answers (R163, R197). LOCK: a cluster hub passes its island's report up (R194); with the last report at
the root the new slot rate is in force (R165), and the islands whose rung asks for a clock no higher go down to it
(R434, R436). Model choices: log entries 18, 76. -/
def Obligations.BarriersAndLocks : Prop :=
  (∀ c p s (sc : Fin 3), Passes s (.cluster (ciOf c)) 8 p → FromCore s c p → pktScope p.bits = sc.val → pktId p.bits ≠ 0xFFFF →
    pktId p.bits = ((s.cluster (ciOf c)).hub.num[sc.val]).toNat →
    hubDone 64 (hubArrived (s.cluster (ciOf c)).hub sc c) sc = false →
    ∃ t, exec (.tatArrive (.cluster (ciOf c)) p) s = .next t ∧
      t.cluster (ciOf c) = { s.cluster (ciOf c) with hub := hubArrived (s.cluster (ciOf c)).hub sc c } ∧
      (∀ ci, ci ≠ ciOf c → t.cluster ci = s.cluster ci) ∧ t.cores = s.cores ∧
      t.tat.flight = flightLess (.cluster (ciOf c)) p s) ∧
  (∀ c p s, Passes s (.cluster (ciOf c)) 8 p → FromCore s c p → pktScope p.bits = 0 → pktId p.bits ≠ 0xFFFF →
    pktId p.bits = ((s.cluster (ciOf c)).hub.num[0]).toNat →
    hubDone 64 (s.cluster (ciOf c)).hub 0 = false → hubDone 64 (hubArrived (s.cluster (ciOf c)).hub 0 c) 0 = true →
    ∃ t, exec (.tatArrive (.cluster (ciOf c)) p) s = .next t ∧
      t.cluster (ciOf c) = { s.cluster (ciOf c) with
        hub := hubNext (hubArrived (s.cluster (ciOf c)).hub 0 c) 0 } ∧
      t.tat.flight = sentAll (.cluster (ciOf c))
        (((onesOf 64 (hubArrived (s.cluster (ciOf c)).hub 0 c).arr[0]).filterMap (coreOf (ciOf c))).map fun k =>
          (.core k, packet 9 0 (pktId p.bits) 0 0 0 0 s.lpass 0)) (flightLess (.cluster (ciOf c)) p s)) ∧
  (∀ c p s (sc : Fin 3), Passes s (.cluster (ciOf c)) 8 p → FromCore s c p → pktScope p.bits = sc.val → sc ≠ 0 → pktId p.bits ≠ 0xFFFF →
    pktId p.bits = ((s.cluster (ciOf c)).hub.num[sc.val]).toNat →
    hubDone 64 (s.cluster (ciOf c)).hub sc = false → hubDone 64 (hubArrived (s.cluster (ciOf c)).hub sc c) sc = true →
    ∃ t, exec (.tatArrive (.cluster (ciOf c)) p) s = .next t ∧
      t.tat.flight = sent (.cluster (ciOf c)) (.tile (tileOfCi (ciOf c)))
        (packet 8 sc.val (pktId p.bits) 0 0 0 0 s.lpass 0) .none (flightLess (.cluster (ciOf c)) p s)) ∧
  (∀ c p s (sc : Fin 3), Passes s (.cluster (ciOf c)) 8 p → FromCore s c p → pktScope p.bits = sc.val → pktId p.bits ≠ 0xFFFF →
    pktId p.bits ≠ ((s.cluster (ciOf c)).hub.num[sc.val]).toNat → passOn s = true →
    ∃ t, exec (.tatArrive (.cluster (ciOf c)) p) s = .next t ∧ t.clusters = s.clusters ∧
      t.tat.flight = sent (.cluster (ciOf c)) .root (packet 10 0 0 0 0 0 0 s.lpass 0x0307)
        (linkInto (.cluster (ciOf c)) (takeFlight (.cluster (ciOf c)) p s).1) (flightLess (.cluster (ciOf c)) p s)) ∧
  (∀ pt ci p s (sc : Fin 3), Passes s (.tile pt) 8 p → FromCluster s pt ci p → pktScope p.bits = sc.val → sc ≠ 0 →
    pktId p.bits ≠ 0xFFFF → pktId p.bits = ((s.tileHub pt).num[sc.val]).toNat →
    hubDone 16 (childArrived (s.tileHub pt) sc (ci.val % 16)) sc = false →
    ∃ t, exec (.tatArrive (.tile pt) p) s = .next t ∧
      t.tileHub pt = childArrived (s.tileHub pt) sc (ci.val % 16) ∧ t.cores = s.cores ∧ t.clusters = s.clusters ∧
      t.tat.flight = flightLess (.tile pt) p s) ∧
  (∀ pt ci p s, Passes s (.tile pt) 8 p → FromCluster s pt ci p → pktScope p.bits = 1 →
    pktId p.bits ≠ 0xFFFF → pktId p.bits = ((s.tileHub pt).num[1]).toNat → hubDone 16 (s.tileHub pt) 1 = false →
    hubDone 16 (childArrived (s.tileHub pt) 1 (ci.val % 16)) 1 = true →
    ∃ t, exec (.tatArrive (.tile pt) p) s = .next t ∧
      t.tileHub pt = hubNext (childArrived (s.tileHub pt) 1 (ci.val % 16)) 1 ∧
      t.tat.flight = sentAll (.tile pt) ((onesOf 16 (childArrived (s.tileHub pt) 1 (ci.val % 16)).arr[1]).map fun i =>
        (.cluster (clusterAt pt i), packet 9 1 (pktId p.bits) 0 0 0 0 s.lpass 0)) (flightLess (.tile pt) p s)) ∧
  (∀ pt ci p s, Passes s (.tile pt) 8 p → FromCluster s pt ci p → pktScope p.bits = 2 →
    pktId p.bits ≠ 0xFFFF → pktId p.bits = ((s.tileHub pt).num[2]).toNat → hubDone 16 (s.tileHub pt) 2 = false →
    hubDone 16 (childArrived (s.tileHub pt) 2 (ci.val % 16)) 2 = true →
    ∃ t, exec (.tatArrive (.tile pt) p) s = .next t ∧
      t.tileHub pt = childArrived (s.tileHub pt) 2 (ci.val % 16) ∧
      t.tat.flight = sent (.tile pt) .root (packet 8 2 (pktId p.bits) 0 0 0 0 s.lpass 0) .none (flightLess (.tile pt) p s)) ∧
  (∀ pt ci p s (sc : Fin 3), Passes s (.tile pt) 8 p → FromCluster s pt ci p → pktScope p.bits = sc.val →
    pktId p.bits ≠ 0xFFFF → (sc = 0 ∨ pktId p.bits ≠ ((s.tileHub pt).num[sc.val]).toNat) → passOn s = true →
    ∃ t, exec (.tatArrive (.tile pt) p) s = .next t ∧ t.tat.tiles = s.tat.tiles ∧
      t.tat.flight = sent (.tile pt) .root (packet 10 0 0 0 0 0 0 s.lpass 0x0307) (.tatLink (.cluster ci))
        (flightLess (.tile pt) p s)) ∧
  (∀ pt p s, Passes s .root 8 p → (takeFlight .root p s).1 = some (.tile pt) → pktScope p.bits = 2 →
    pktId p.bits ≠ 0xFFFF → pktId p.bits = (s.tat.hub.num[2]).toNat → hubDone 48 s.tat.hub 2 = false →
    ∃ t, exec (.tatArrive .root p) s = .next t ∧ t.cores = s.cores ∧ t.eng = s.eng ∧
      if hubDone 48 (childArrived s.tat.hub 2 pt.val) 2 = true then
        t.tat.hub = hubNext (childArrived s.tat.hub 2 pt.val) 2 ∧
        t.tat.flight = sentAll .root ((servedTiles s).map fun q => (.tile q, packet 9 2 (pktId p.bits) 0 0 0 0 s.lpass 0))
          (flightLess .root p s)
      else t.tat.hub = childArrived s.tat.hub 2 pt.val ∧ t.tat.flight = flightLess .root p s) ∧
  (∀ pt p s, Passes s (.tile pt) 9 p → pktId p.bits ≠ 0xFFFF →
    ∃ t, exec (.tatRelease (.tile pt) p) s = .next t ∧ t.tileHub pt = hubNext (s.tileHub pt) 2 ∧ t.cores = s.cores ∧
      t.tat.flight = sentAll (.tile pt) ((onesOf 16 (s.tileHub pt).arr[2]).map fun i => (.cluster (clusterAt pt i), p.bits))
        (flightLess (.tile pt) p s)) ∧
  (∀ ci p s (sc : Fin 3), Passes s (.cluster ci) 9 p → pktId p.bits ≠ 0xFFFF → pktScope p.bits = sc.val →
    ∃ t, exec (.tatRelease (.cluster ci) p) s = .next t ∧ t.cores = s.cores ∧
      t.cluster ci = { s.cluster ci with hub := hubNext (s.cluster ci).hub sc } ∧
      t.tat.flight = sentAll (.cluster ci) (((onesOf 64 (s.cluster ci).hub.arr[sc.val]).filterMap (coreOf ci)).map fun k =>
        (.core k, packet 9 sc.val (pktId p.bits) 0 0 0 0 s.lpass 0)) (flightLess (.cluster ci) p s)) ∧
  (∀ pt p s lp, Passes s .root 8 p → (takeFlight .root p s).1 = some (.tile pt) → pktScope p.bits = 2 →
    pktId p.bits = 0xFFFF → s.eng.lp = some lp → lp.started = true → lp.decision = .opened → lp.settling = false →
    s.tat.hub.arr[2] = 0 → setBit s.tat.hub.halted pt.val = fullMask 48 →
    ∃ t, exec (.tatArrive .root p) s = .next t ∧ t.eng.lp = some { lp with settling := true } ∧ t.cores = s.cores ∧
      t.tat.flight = sentAll .root (toAll s (packet 9 2 0xFFFF 0 0 0 0 s.lpass 1)) (flightLess .root p s)) ∧
  (∀ pt p s lp x, LastSettles s lp pt p → lp.slip = false → pktValue p.bits ≠ 1 → s.eng.pass = some x →
    s.coll.insts = [] → s.red.sketches = [] → NoWaitSync s →
    ∃ t, exec (.tatArrive .root p) s = .next t ∧ t.eng.lp = none ∧ t.eng.lastCommitted = true ∧
      (x.spanLost = false → x.todo ≠ [] → x.ended = none → (∃ x', t.eng.pass = some x' ∧ x'.todo = x.todo) ∧
        (∀ id, 0xC000 ≤ id → (objGet t id).count = (objGet s id).count +
          ((lp.held.filter fun a => a.1.toNat = id).map Prod.snd).sum) ∧
        (lp.held = [] →
          t.tat.flight = sentAll .root (toAll s (packet 9 2 0xFFFF 0 0 0 0 s.lpass 0)) (flightLess .root p s))) ∧
      ((x.spanLost = true ∨ x.todo = [] ∨ x.ended ≠ none) → t.eng.pass = none)) ∧
  (∀ pt p s lp, LastSettles s lp pt p → (lp.slip = true ∨ pktValue p.bits = 1) → lp.hw = none →
    ∃ t lp', exec (.tatArrive .root p) s = .next t ∧ t.eng.lp = some lp' ∧ lp'.decision = .aborted ∧
      lp'.hw = some 0x0302 ∧ lp'.held = [] ∧
      t.tat.flight = sentAll .root (toAll s (packet 10 0 0 0 0 0 0 s.lpass 0x0302)) (flightLess .root p s)) ∧
  (∀ pt p s, Passes s (.tile pt) 10 p → fromBelow (.tile pt) (takeFlight (.tile pt) p s).1 = false →
    ∃ t, exec (.tatAbort (.tile pt) p) s = .next t ∧ t.cores = s.cores ∧
      t.tat.flight = sentAll (.tile pt) ((List.range 16).map fun i => (.cluster (clusterAt pt i), p.bits))
        (flightLess (.tile pt) p s)) ∧
  (∀ d p s, Passes s (.die d) 10 p →
    ∃ t, exec (.tatAbort (.die d) p) s = .next t ∧
      t.dies[d.val] = { s.dies[d.val] with running := false, hold := [], inject := [] } ∧
      t.tat.flight = sent (.die d) .root (packet 11 0 0 0 (0xC0 + d.val) 0 0 s.lpass 0) .none (flightLess (.die d) p s)) ∧
  (∀ c p s, Passes s (.cluster (ciOf c)) 11 p → (takeFlight (.cluster (ciOf c)) p s).1 = some (.router c) →
    (s.cluster (ciOf c)).hub.acks = fullMask 64 → (s.cluster (ciOf c)).hub.acksR ≠ fullMask 64 →
    ∃ t, exec (.tatAbortAck (.cluster (ciOf c)) p) s = .next t ∧
      t.cluster (ciOf c) = { s.cluster (ciOf c) with hub := { (s.cluster (ciOf c)).hub with
        acksR := setBit (s.cluster (ciOf c)).hub.acksR (inCluster c) } } ∧
      t.tat.flight = if setBit (s.cluster (ciOf c)).hub.acksR (inCluster c) = fullMask 64 then
          sent (.cluster (ciOf c)) (.tile (tileOfCi (ciOf c))) (packet 11 0 0 0 0 0 0 s.lpass 0) .none
            (flightLess (.cluster (ciOf c)) p s)
        else flightLess (.cluster (ciOf c)) p s) ∧
  (∀ ci p s, Passes s (.cluster ci) 12 p →
    ∃ t, exec (.tatLock (.cluster ci) p) s = .next t ∧
      t.tat.flight = sent (.cluster ci) (.tile (tileOfCi ci)) (packet 12 0 0 0 0 0 0 s.lpass 0) .none
        (flightLess (.cluster ci) p s)) ∧
  (∀ pt p s, Passes s .root 12 p → (takeFlight .root p s).1 = some (.tile pt) → s.tat.relock = true →
    setBit s.tat.hub.locks pt.val = fullMask 48 → s.tat.dieLocks = 0xFF →
    ∃ t, exec (.tatLock .root p) s = .next t ∧ t.tat.relock = false ∧ t.eng = { s.eng with slotRate := s.eng.nextRate } ∧
      (s.pwr.lastResort = false → ∀ ci, (t.cluster ci).clock =
        if (rungClock (s.cluster ci).rung).toNat ≤ s.eng.nextRate.toNat then rungClock (s.cluster ci).rung
        else (s.cluster ci).clock))

/-- ABORT at the root of a layer pass that is OPEN decides it: ABORTED, the first cause kept, and ABORT sent to every
tile hub in service and every port die (R196, R195). A core that ABORT reaches stops, discards its queues, closes its
windows and answers ABORT_ACK; a router discards its hold queues and answers (R80, R163, R197). A cluster hub gathers
ABORT_ACK, and sends its own once it has them all (R197). LAYER_PASS_CLOSE of a layer pass with a hardware error and
less than four runs makes it run again (R28, R198, R477), once the DMA writes to region 1 are complete (R213). Model
choices: log entries 5, 18, 20, 84, 85. -/
def Obligations.AbortsOfLayerPasses : Prop :=
  (∀ p s lp, Passes s .root 10 p → s.eng.lp = some lp → lp.started = true → lp.decision = .opened → lp.inst = none →
    lp.hw = none → lp.ext = none → lp.prog = none →
    ∃ t lp', exec (.tatAbort .root p) s = .next t ∧ t.eng.lp = some lp' ∧ lp'.decision = .aborted ∧ lp'.acked = false ∧
      lp'.first = BitVec.ofNat 16 (pktValue p.bits) ∧ lp'.entry = lp.entry ∧ t.cores = s.cores ∧
      t.tat.flight = sentAll .root (toAll s (packet 10 0 0 0 0 0 0 s.lpass (pktValue p.bits % 2 ^ 16)))
        (flightLess .root p s)) ∧
  (∀ c p s, Passes s (.core c) 10 p →
    ∃ t, exec (.tatAbort (.core c) p) s = .next t ∧
      t.core c = { s.core c with
        run := if (s.core c).run = .idle then .idle else .stopped, units := dropQueues (s.core c).units,
        wins := (s.core c).wins.map fun w => { w with opened := false } } ∧
      t.tat.flight = sent (.core c) (.cluster (ciOf c)) (packet 11 0 0 (gxOf c) (gyOf c) 0 0 s.lpass 0) .none
        (flightLess (.core c) p s) ∧
      ∀ c', c' ≠ c → t.core c' = s.core c') ∧
  (∀ c p s, Passes s (.router c) 10 p →
    ∃ t, exec (.tatAbort (.router c) p) s = .next t ∧
      t.core c = { s.core c with router := { (s.core c).router with running := false, hold := Vector.replicate 5 [] } } ∧
      t.tat.flight = sent (.router c) (.cluster (ciOf c)) (packet 11 0 0 (gxOf c) (gyOf c) 0 0 s.lpass 0) .none
        (flightLess (.router c) p s)) ∧
  (∀ c p s, Passes s (.cluster (ciOf c)) 11 p → (takeFlight (.cluster (ciOf c)) p s).1 = some (.core c) →
    (s.cluster (ciOf c)).hub.acksR = fullMask 64 → (s.cluster (ciOf c)).hub.acks ≠ fullMask 64 →
    ∃ t, exec (.tatAbortAck (.cluster (ciOf c)) p) s = .next t ∧
      t.cluster (ciOf c) = { s.cluster (ciOf c) with hub := { (s.cluster (ciOf c)).hub with
        acks := setBit (s.cluster (ciOf c)).hub.acks (inCluster c) } } ∧
      t.tat.flight = if setBit (s.cluster (ciOf c)).hub.acks (inCluster c) = fullMask 64 then
          sent (.cluster (ciOf c)) (.tile (tileOfCi (ciOf c))) (packet 11 0 0 0 0 0 0 s.lpass 0) .none
            (flightLess (.cluster (ciOf c)) p s)
        else flightLess (.cluster (ciOf c)) p s) ∧
  (∀ s lp, s.eng.lp = some lp → (lp.decision ≠ .aborted ∨ lp.acked = false ∨ stagingWritten s = false) →
    exec .layerPassClose s = .next s) ∧
  (∀ s lp code, s.eng.lp = some lp → lp.decision = .aborted → lp.acked = true → stagingWritten s = true →
    lp.kind = .work → lp.inst = none →
    lp.ext = none → lp.hw = some code → lp.runs < 4 → againUnits lp = [] →
    ∃ t lp', exec .layerPassClose s = .next t ∧ t.eng.lp = some lp' ∧ lp'.runs = lp.runs + 1 ∧ lp'.started = false ∧
      lp'.decision = .opened ∧ lp'.entry = lp.entry ∧ lp'.held = [] ∧ t.flt.reruns = s.flt.reruns + 1 ∧
      t.flt.hw = s.flt.hw + 1 ∧ t.eng.passNo = s.eng.passNo)

/-! ### Boundaries, host access to objects and memory (chapters 01, 06, 07) -/

/-- What the application of a repair needs besides its boundary: Loupe can write its record first (R494, R542). -/
abbrev Sys2Proof.Claims.RecordReady (s : State) : Prop :=
  s.boot.cart.isSome = true ∧ s.boot.recordDue = false ∧ s.boot.loupeDown = false ∧ s.host.loupeOff = false

/-- LAYER_BOUNDARY prepares the layer pass of the next layer entry (R29); PASS_BOUNDARY makes a COMPLETE epoch CURRENT
and the old one DRAINING (R255) and leaves no BIND or UNBIND held (R339); STEP_BOUNDARY does both when no training
step is open (R30), and applies a tested shift, whose cores from its column on move (R482), or a tested relocation,
whose tile enters service on the darning tile, every unit of its memory zero (R484, R486). DRAIN_BOUNDARY installs the
image that waits (R88), and takes the live fields of a pending bank, all or none, unless its mode is STAGE (R468).
Each does nothing where its boundary is not. MESH_RELOCK ends the wait for lock reports and the pass, and the tile of
a cluster's island leaves service (R167). LAYER_PASS_CLOSE of a layer pass that an external or a program cause aborted
ends its pass (R198). Model choices: log entries 5, 36, 44, 45, 77. -/
def Obligations.BoundaryChanges : Prop :=
  (∀ s p entry rest im e, s.eng.lp = none → s.eng.parked = none → s.eng.pass = some p → p.ended = none →
    p.todo = entry :: rest → s.eng.image = some im →
    im.layers[entry]? = some e → lfSketch e = false →
    ∃ t lp, exec .layerBoundary s = .next t ∧ t.eng.lp = some lp ∧ lp.kind = .work ∧ lp.entry = entry ∧
      lp.started = false ∧ t.eng.pass = some { p with todo := rest } ∧ t.eng.passNo = s.eng.passNo) ∧
  (∀ s lp, s.eng.lp = some lp → exec .layerBoundary s = .next s) ∧
  (∀ s l m, atBoundary s = true → s.flt.repairs = [] → s.boot.entering = 0 → s.wts.refetch = [] →
    s.wts.load = some l → l.st = .complete → l.adapter = false → l.man = some m → s.wts.draining = none →
    ∃ t, exec .passBoundary s = .next t ∧ t.wts.current = some ⟨l.number, l.slot, m⟩ ∧
      t.wts.draining = s.wts.current ∧ t.wts.load = none ∧ t.coll.binds = []) ∧
  (∀ s, atBoundary s = false → exec .passBoundary s = .next s ∧ exec .stepBoundary s = .next s ∧
    exec .drainBoundary s = .next s) ∧
  (∀ s, atBoundary s = true → s.eng.training = false →
    ∃ t, exec .stepBoundary s = .next t ∧ t.coll.binds = []) ∧
  (∀ s, s.eng.training = true → exec .stepBoundary s = .next s) ∧
  (∀ s l m, atBoundary s = true → s.eng.training = false → s.flt.repairs = [] → s.boot.entering = 0 →
    s.wts.load = some l → l.st = .complete → l.adapter = false → l.man = some m → s.wts.draining = none →
    ∃ t, exec .stepBoundary s = .next t ∧ t.wts.current = some ⟨l.number, l.slot, m⟩ ∧
      t.wts.draining = s.wts.current ∧ t.wts.load = none ∧ t.coll.binds = []) ∧
  (∀ s ci (row : Fin 8) pcol, atBoundary s = true → s.eng.training = false → s.boot.entering = 0 → RecordReady s →
    s.flt.repairs = [.shift ci row.val pcol true] → pcol < 9 →
    ∃ t, exec .stepBoundary s = .next t ∧ t.flt.repairs = [] ∧ t.flt.shifts = s.flt.shifts + 1 ∧
      rowOf t ci row.val = pcol ∧ (∀ r : Fin 8, r ≠ row → rowOf t ci r.val = rowOf s ci r.val) ∧
      t.flt.recSeq = s.flt.recSeq + 1 ∧
      ∀ k : Fin 8, pcol ≤ k.val → ∀ c, coreOf ci (8 * row.val + k.val) = some c →
        (t.core c).spad = {} ∧ (t.core c).task.prevCommitted = false) ∧
  (∀ s pt (d : Fin 2), atBoundary s = true → s.eng.training = false → s.boot.entering = 0 → RecordReady s →
    s.flt.repairs = [.relocate pt d true] → (physOf s pt).val ≠ 48 + d.val →
    ∃ t, exec .stepBoundary s = .next t ∧ t.flt.repairs = [] ∧ t.flt.relocs = s.flt.relocs + 1 ∧
      (physOf t pt).val = 48 + d.val ∧ t.boot.inService.getLsbD pt.val = true ∧
      (t.tiles[(physOf s pt).val]).st = .retired ∧ (t.tiles[(physOf t pt).val]).st = .service ∧
      (s.eng.cfg.adapterMib = 0 → ∀ ci, tileOfCi ci = pt → ∀ a, memLook (t.cluster ci).mem a = some 0)) ∧
  (∀ s l im, drainReached s = true → s.flt.repairs = [] → s.eng.imgLoad = some l → l.image = some im →
    ∃ t, exec .drainBoundary s = .next t ∧ t.eng.image = some im ∧ t.eng.installs = s.eng.installs + 1 ∧
      t.wts.current = none ∧ t.wts.draining = none ∧ t.coll.binds = []) ∧
  (∀ s bs, drainReached s = true → s.flt.repairs = [] → s.eng.imgLoad = none → s.boot.pendBank = some bs →
    s.boot.livePending = true → s.boot.pendMode ≠ .stage →
    ∃ t, exec .drainBoundary s = .next t ∧ t.boot.livePending = false ∧
      if liveFits s (coldOf s.eng.cfg (bankCfg bs)) = true then
        t.eng.cfg = coldOf s.eng.cfg (bankCfg bs) ∧ t.boot.bankBytes = bs ∧ t.boot.bank = some !(s.boot.bank.getD true)
      else t.eng.cfg = s.eng.cfg ∧ t.boot.bankBytes = s.boot.bankBytes ∧ t.boot.bank = s.boot.bank) ∧
  (∀ s, drainReached s = true → s.flt.repairs = [] → s.eng.imgLoad = none → s.boot.pendMode = .stage →
    ∃ t, exec .drainBoundary s = .next t ∧ t.eng.cfg = s.eng.cfg ∧ t.boot.pendBank = s.boot.pendBank ∧
      t.boot.livePending = s.boot.livePending ∧ t.boot.bankBytes = s.boot.bankBytes) ∧
  (∀ s ci, s.tat.relock = true →
    ∃ t, exec (.meshRelock (.cluster ci)) s = .next t ∧ t.tat.relock = false ∧ t.eng.nextRate = s.eng.slotRate ∧
      t.eng.pass = none ∧ t.boot.inService.getLsbD (tileOfCi ci).val = false) ∧
  (∀ s d, s.tat.relock = true →
    ∃ t, exec (.meshRelock (.die d)) s = .next t ∧ t.tat.relock = false ∧ t.eng.nextRate = s.eng.slotRate ∧
      t.eng.pass = none ∧ t.boot.inService = s.boot.inService) ∧
  (∀ s island, s.tat.relock = false → exec (.meshRelock island) s = .next s) ∧
  (∀ s lp, s.eng.lp = some lp → lp.decision = .aborted → lp.acked = true → stagingWritten s = true → lp.kind = .work →
    lp.inst = none → (lp.ext.isSome = true ∨ lp.hw = none) →
    ∃ t, exec .layerPassClose s = .next t ∧ t.eng.lp = none ∧ t.eng.pass = none ∧ t.eng.passNo = s.eng.passNo)

/-- The writes of the host to an object (R199), with what each does to it. -/
def Sys2Proof.Claims.hostObjRows : List ((BitVec 16 → BitVec 32 → Instr) × (SyncObj → Word → SyncObj)) :=
  [(.syncCntWrite, fun o v => { o with count := v }), (.syncTgtWrite, fun o v => { o with target := v }),
   (.syncAddWrite, fun o v => { o with count := o.count + v })]

/-- A host write to a shuttle-homed object takes effect at the root and wakes the waiters of an object that it
satisfies (R178, R182, R199); a write to another object is ignored. SYNC_UPDATE from another engine applies OPER 1, 2
or 3, ADD, SET or TARGET, to an object of the root (R353). CXL_MEM_READ returns the unit of 64 bytes as it stands, and
CXL_MEM_WRITE replaces it and no other byte of the window (R212). A poisoned write is dropped and recorded in
HOST_PATH_WDROP, a read whose transfer fails link parity in HOST_PATH_ERR (R224). While the window is disabled the
module claims no address of it (R212), and the access stops with unclaimedAddress (log entry 7). Model choices: log
entries 5, 7, 12, 37, 46. -/
def Obligations.HostObjectsAndMemory : Prop :=
  (∀ r ∈ hostObjRows, ∀ obj v s, hostUp s = true → 0xC000 ≤ obj.toNat → NoWaitSync s →
    ∃ t, exec (r.1 obj v) s = .next t ∧ ObjChanged s obj.toNat (r.2 (objGet s obj.toNat) v) s.tat.flight t ∧
      t.cores = s.cores ∧ t.clusters = s.clusters ∧ t.host = s.host ∧ t.eng = s.eng) ∧
  (∀ r ∈ hostObjRows, ∀ obj v s, obj.toNat < 0xC000 → exec (r.1 obj v) s = .next s) ∧
  (∀ r ∈ [(1, fun (o : SyncObj) (v : Word) => ({ o with count := o.count + v } : SyncObj)),
      (2, fun o v => { o with count := v }), (3, fun o v => { o with target := v })],
    ∀ d h s, collOk h 10 [] = true → 0xC000 ≤ hf h 0x30 2 → hf h 0x32 1 = r.1 → NoWaitSync s →
    ∃ t, exec (.syncUpdate d h) s = .next t ∧
      ObjChanged s (hf h 0x30 2) (r.2 (objGet s (hf h 0x30 2)) (BitVec.ofNat 32 (hf h 0x2C 4))) s.tat.flight t) ∧
  (∀ d h s, collOk h 10 [] = true → hf h 0x30 2 < 0xC000 →
    ∃ t, exec (.syncUpdate d h) s = .next t ∧ t.coll.stale = s.coll.stale + 1 ∧ ∀ id, objGet t id = objGet s id) ∧
  (∀ h s bs, hostUp s = true → s.eng.cfg.window = true → winBad s (unitBase h) 64 = false → bs.length = 64 →
    (∀ i (hi : i < bs.length), winLook s (unitBase h + i) = some bs[i]) →
    exec (.cxlMemRead h true) s = .next { s with out := .readData bs :: s.out }) ∧
  (∀ h s, hostUp s = true → s.eng.cfg.window = true → s.host.path.err = 0 →
    ∃ t, exec (.cxlMemRead h false) s = .next t ∧
      t.host.path.err = BitVec.ofNat 32 (2 ^ 31 + (winCluster h.toNat).val * 2 ^ 21 + 2 ^ 20 + 1) ∧
      t.host.path.off = BitVec.ofNat 32 (h.toNat / 64) ∧ t.host.advisoryNf = true ∧ t.clusters = s.clusters) ∧
  (∀ h data s, hostUp s = true → s.eng.cfg.window = true →
    ∃ t, exec (.cxlMemWrite h data false true) s = .next t ∧ t = { s with clusters := t.clusters } ∧
      (∀ i, i < 64 → winLook t (unitBase h + i) = some (BitVec.ofNat 8 (data.toNat / 256 ^ i))) ∧
      ∀ a, a < winBytes → a / 64 ≠ h.toNat / 64 → winLook t a = winLook s a) ∧
  (∀ h data linkOk s, hostUp s = true → s.eng.cfg.window = true → s.host.path.wdrop = 0 →
    ∃ t, exec (.cxlMemWrite h data true linkOk) s = .next t ∧ t.clusters = s.clusters ∧
      t.host.path.wdrop = BitVec.ofNat 32 (2 ^ 31 + 1) ∧ t.host.path.woff = BitVec.ofNat 32 (h.toNat / 64)) ∧
  (∀ h linkOk s, hostUp s = true → s.eng.cfg.window = false → exec (.cxlMemRead h linkOk) s = .fault .unclaimedAddress) ∧
  (∀ h data p linkOk s, hostUp s = true → s.eng.cfg.window = false →
    exec (.cxlMemWrite h data p linkOk) s = .fault .unclaimedAddress)

/-- A sensor reading within the range of R432, in 1/16 °C. -/
abbrev Sys2Proof.Claims.Reads (r : Option Int) (v : Int) : Prop := r = some v ∧ -320 ≤ v ∧ v ≤ 2400

/-- DRAM_TEMP_SAMPLE (R218, R219): the layer's temperature is that of its hottest sensor; at 85 °C refresh doubles, at
95 °C the layer is hot until it is below 92 °C; from 105 °C on the tile's eFuse opens (R220). REFRESH_RESTORE ends
doubled refresh below 82 °C. Model choices: log entry 5. -/
def Obligations.MemoryTemperature : Prop :=
  (∀ t (l : Fin 2) s q a b c d m, Reads q.q0 a → Reads q.q1 b → Reads q.q2 c → Reads q.q3 d →
    m = max a (max b (max c d)) → m < 1680 →
    ∃ u, exec (.dramTempSample t l q) s = .next u ∧ u = { s with tiles := u.tiles } ∧
      (∀ t' : PhysTile, t' ≠ t → u.tiles[t'.val] = s.tiles[t'.val]) ∧
      u.tiles[t.val] = withLayer s.tiles[t.val] l { dramLayer s.tiles[t.val] l with
        temp := q, doubled := (dramLayer s.tiles[t.val] l).doubled || decide (1360 ≤ m),
        hot := if 1520 ≤ m then true else if m < 1472 then false else (dramLayer s.tiles[t.val] l).hot }) ∧
  (∀ t (l : Fin 2) s q a b c d, Reads q.q0 a → Reads q.q1 b → Reads q.q2 c → Reads q.q3 d →
    1680 ≤ max a (max b (max c d)) → (s.tiles[t.val]).powered = true → (s.tiles[t.val]).opens = [] →
    ∃ u, exec (.dramTempSample t l q) s = .next u ∧ (u.tiles[t.val]).powered = false ∧
      (u.tiles[t.val]).fuse = .memTemp) ∧
  (∀ t (l : Fin 2) s q a b c d, (dramLayer s.tiles[t.val] l).temp = q → Reads q.q0 a → Reads q.q1 b → Reads q.q2 c →
    Reads q.q3 d → max a (max b (max c d)) < 1312 →
    ∃ u, exec (.refreshRestore t l) s = .next u ∧
      u.tiles[t.val] = withLayer s.tiles[t.val] l { dramLayer s.tiles[t.val] l with doubled := false } ∧
      ∀ t' : PhysTile, t' ≠ t → u.tiles[t'.val] = s.tiles[t'.val]) ∧
  (∀ t (l : Fin 2) s q a b c d, (dramLayer s.tiles[t.val] l).temp = q → Reads q.q0 a → Reads q.q1 b → Reads q.q2 c →
    Reads q.q3 d → 1312 ≤ max a (max b (max c d)) → exec (.refreshRestore t l) s = .next s)

/-! ### Weight ingress and focus (chapters 08, 09) -/

/-- The request of a tag among those outstanding on a port die, with the rest. -/
abbrev Sys2Proof.Claims.Asked (s : State) (d : DieId) (tag : BitVec 32) (r : ChunkReq) (rest : List ChunkReq) : Prop :=
  takeFirst (fun x : ChunkReq => x.tag == tag) (s.dies[d.val]).reqs = some (r, rest)

/-- A port die has a switch-facing port in service. -/
abbrev Sys2Proof.Claims.Reachable (s : State) (d : DieId) : Prop := switchPorts s d ≠ []

/-- CHUNK, MANIFEST_PART, NACK and END (R229, R238, R245, R250, R258): a chunk that was asked for enters the fetch
buffer with its mask; a part is kept with its manifest; a NACK has its request wait and counts a failure; END has a
MEMBER fetch for itself. A message of a number that is neither loading nor live is dropped and counted.
CHUNK_REQ_RETRY sends the request of a NACK again; WEIGHT_TIMEOUT counts a failure and sends it again, and after the
third a chunk that is streamed ends the pass with WCHUNK_TIMEOUT (0x0507), recorded in WI_ERR (R245, R263, R264); the
failures of a chunk of the load, or of a refetch of R249, are kept with it (R263); BCAST_WAIT_EXPIRE has a MEMBER
fetch for itself (R250); EPOCH_RELEASE lets the DRAINING epoch go once no work is pinned to it (R255). Model choices:
log entries 5, 29, 79, 86. -/
def Obligations.WeightIngress : Prop :=
  (∀ d port m s r rest, wcOk m.hdr 1 m.payload = true → knownNumber s (wcAdapter m.hdr) (wcNumber m.hdr) = true →
    bitOf (hf m.hdr 6 1) 2 = false → Asked s d (wcTag m.hdr) r rest → r.part = false → r.index = wcIndex m.hdr →
    r.number = wcNumber m.hdr → Reachable s d →
    ∃ t, exec (.chunk d port m) s = .next t ∧ (t.dies[d.val]).fetch = (s.dies[d.val]).fetch ++
      [⟨wcNumber m.hdr, wcAdapter m.hdr, wcIndex m.hdr, bitOf (hf m.hdr 6 1) 0, r.mask, m.payload, r.fails⟩]) ∧
  (∀ d port m s r rest l, wcOk m.hdr 3 m.payload = true → m.payload.length ≤ mib →
    knownNumber s (wcAdapter m.hdr) (wcNumber m.hdr) = true → bitOf (hf m.hdr 6 1) 2 = false →
    Asked s d (wcTag m.hdr) r rest → r.part = true → r.number = wcNumber m.hdr → s.wts.load = some l →
    l.st = .fetching → l.role = 0 → 1 ≤ (wcIndex m.hdr).toNat →
    manWhole { l with parts := tabSet l.parts (wcIndex m.hdr).toNat m.payload } = false → (∀ e, Reachable s e) →
    ∃ t, exec (.manifestPart d port m) s = .next t ∧
      t.wts.load = some { l with parts := tabSet l.parts (wcIndex m.hdr).toNat m.payload }) ∧
  (∀ d port h s r rest, wcOk h 4 [] = true → knownNumber s (wcAdapter h) (wcNumber h) = true →
    Asked s d (wcTag h) r rest → failsOf s r + 1 < 3 →
    ∃ t, exec (.nack d port h) s = .next t ∧
      (t.dies[d.val]).reqs = rest ++ [{ r with fails := failsOf s r + 1, waiting := true }] ∧
      (t.dies[d.val]).wiRetries = satByte (s.dies[d.val]).wiRetries ∧ t.wts = (noteFail r (failsOf s r + 1) s).wts) ∧
  (∀ d port h s l, wcOk h 5 [] = true → knownNumber s (wcAdapter h) (wcNumber h) = true → castLoad s h = some l →
    bitOf (hf h 6 1) 2 = true → l.role = 2 → l.ended = false → (∀ e, Reachable s e) →
    ∃ t l', exec (.endMsg d port h) s = .next t ∧ t.wts.load = some l' ∧ l'.ended = true ∧ l'.number = l.number ∧
      l'.parts = l.parts) ∧
  (∀ d port m s, (wcOk m.hdr 1 m.payload = true → knownNumber s (wcAdapter m.hdr) (wcNumber m.hdr) = false →
      ∃ t, exec (.chunk d port m) s = .next t ∧ (t.dies[d.val]).wiStale = satByte (s.dies[d.val]).wiStale ∧
        t.wts = s.wts) ∧
    (wcOk m.hdr 3 m.payload = true → m.payload.length ≤ mib → knownNumber s (wcAdapter m.hdr) (wcNumber m.hdr) = false →
      ∃ t, exec (.manifestPart d port m) s = .next t ∧ (t.dies[d.val]).wiStale = satByte (s.dies[d.val]).wiStale ∧
        t.wts = s.wts)) ∧
  (∀ d tag s r rest, Asked s d tag r rest → r.waiting = true → Reachable s d →
    ∃ t, exec (.chunkReqRetry d tag) s = .next t ∧ (t.dies[d.val]).reqs = rest ++ [{ r with waiting := false }] ∧
      t.wts = s.wts) ∧
  (∀ d tag s r rest, Asked s d tag r rest → r.waiting = false → failsOf s r + 1 < 3 → Reachable s d →
    ∃ t, exec (.weightTimeout d tag) s = .next t ∧
      (t.dies[d.val]).reqs = rest ++ [{ r with fails := failsOf s r + 1, waiting := false }] ∧
      (t.dies[d.val]).wiRetries = satByte (s.dies[d.val]).wiRetries ∧ t.wts = (noteFail r (failsOf s r + 1) s).wts) ∧
  (∀ s r, (∀ l, s.wts.load = some l → ofLoad r l = false) → (∀ x ∈ s.wts.refetch, ofAgain r x = false) →
    failsOf s r = r.fails ∧ ∀ n, (noteFail r n s).wts = s.wts) ∧
  (∀ s r l n, s.wts.load = some l → ofLoad r l = true → r.fails ≤ n → (∀ x ∈ s.wts.refetch, ofAgain r x = false) →
    failsOf (noteFail r n s) r = n) ∧
  (∀ s r x n, (∀ l, s.wts.load = some l → ofLoad r l = false) → s.wts.refetch.find? (ofAgain r) = some x → r.fails ≤ n →
    failsOf (noteFail r n s) r = n) ∧
  (∀ d tag s r rest, Asked s d tag r rest → r.waiting = false → r.fails = 2 → r.part = false →
    (chunkEntry s r.adapter r.number r.index).any isRegion = false → s.wts.err = 0 →
    ∃ t, exec (.weightTimeout d tag) s = .next t ∧ (t.dies[d.val]).reqs = rest ∧
      t.wts = { s.wts with err := BitVec.ofNat 32 (2 ^ 31 + d.val * 2 ^ 28 + 0x0507), errIndex := r.index } ∧
      t.eng.pass = s.eng.pass.map (fun p => { p with ended := p.ended.or (some 0x0507) }) ∧
      t.tat.flight = sentAll (.shuttle 0) [(.root, packet 10 0 0 0 0xD0 0 0 s.lpass 0x0507)] s.tat.flight) ∧
  (∀ s l, s.wts.load = some l → l.role = 2 → l.ended = false → (∀ e, Reachable s e) →
    ∃ t l', exec .bcastWaitExpire s = .next t ∧ t.wts.load = some l' ∧ l'.ended = true ∧ l'.number = l.number ∧
      l'.parts = l.parts) ∧
  (∀ s e, pinned s e.number = false → s.wts.draining = some e → s.wts.load = none →
    (∀ c, s.wts.current = some c → c.number ≠ e.number) →
    ∃ t, exec (.epochRelease e.number) s = .next t ∧ t.wts.draining = none ∧ t.wts.current = s.wts.current) ∧
  (∀ s n, pinned s n = true → exec (.epochRelease n) s = .next s)

/-- A mesh message of the layer pass that runs, on a window. -/
abbrev Sys2Proof.Claims.OfPass (lp : LayerPass) (m : MeshMsg) (win : Nat) : Prop :=
  lp.started = true ∧ hdrLpass m.hdr = lp.number.toNat ∧ hdrWin m.hdr = win

/-- CHUNK_STAGE_COMPLETE (R239, R245, R247): a chunk that may go through the lens leaves the fetch buffer. One of a
load slice is written to stacked memory, and its last piece then reads there as it was gathered; one whose format is
wrong and that is streamed is recorded in WI_ERR with WCHUNK_FORMAT (0x0502) and aborts the layer pass. Otherwise
nothing happens. MASK_MESSAGE on window 1 is put into the main mask by OR and counted, until the count is met (R289,
R290); beyond the buffer it aborts with FOCUS_MASK (0x0604, R291). INTAKE_MESSAGE on window 3 is written into the
intake at OFFSET, no other byte changes, and the range counts its bytes (R310); on another window than 1, 2 or 3 it is
RED_INTAKE (0x0701). A message of another layer pass is dropped (R66). Model choices: log entries 5, 25, 29, 86. -/
def Obligations.ChunksAndMasks : Prop :=
  (∀ d index s b rest m c parts q o bs, takeFirst (fun b : ChunkBuf => b.index == index && stageable s d b)
      (s.dies[d.val]).fetch = some (b, rest) →
    manOf s b.adapter b.number = some m → chunkEntry s b.adapter b.number index = some c → isRegion c = true →
    decodeChunk m index.toNat c b.lace b.mask b.wire = .ok parts → parts.getLast? = some (bs, o) →
    bs.getLast? = some q → (h : q.target < 768) → q.win ≠ 6 → (b.adapter = true → ownsArea s m q.dstOff = true) →
    ∃ t, exec (.chunkStageComplete d ⟨index, []⟩) s = .next t ∧ (t.dies[d.val]).fetch = rest ∧ t.cores = s.cores ∧
      t.wts = s.wts ∧ ∀ i (hi : i < (gather q (requant (storedOf c) (targetOf c) o)).length),
        memLook (t.cluster ⟨q.target, h⟩).mem
          (regionsBelow s.eng.cfg (layoutOf s q.target) q.target q.win * mib + q.dstOff + i) =
        some (gather q (requant (storedOf c) (targetOf c) o))[i]) ∧
  (∀ d index bad s b rest m c, takeFirst (fun b : ChunkBuf => b.index == index && stageable s d b)
      (s.dies[d.val]).fetch = some (b, rest) →
    manOf s b.adapter b.number = some m → chunkEntry s b.adapter b.number index = some c → isRegion c = false →
    decodeChunk m index.toNat c b.lace b.mask b.wire = .format → s.wts.err = 0 →
    ∃ t, exec (.chunkStageComplete d ⟨index, bad⟩) s = .next t ∧ (t.dies[d.val]).fetch = rest ∧
      t.wts.err = BitVec.ofNat 32 (2 ^ 31 + d.val * 2 ^ 28 + 0x0502) ∧ t.wts.errIndex = index ∧
      t.tat.flight = sentAll (.die d) [(.root, packet 10 0 0 0 (0xC0 + d.val) 0 0 s.lpass 0x0502)] s.tat.flight) ∧
  (∀ d index bad s, takeFirst (fun b : ChunkBuf => b.index == index && stageable s d b) (s.dies[d.val]).fetch = none →
    exec (.chunkStageComplete d ⟨index, bad⟩) s = .next s) ∧
  (∀ d m s lp ep h, s.eng.lp = some lp → (s.eng.pass.bind fun p => epochOf s p.epoch) = some ep → OfPass lp m 1 →
    lp.masked = true → focusHdr ep.man lp.entry = some h → hdrOffset m.hdr + (meshBytes m).length ≤ 8192 →
    (∀ b, b < 8 * (meshBytes m).length → maskBit (meshBytes m) b = true → 8 * hdrOffset m.hdr + b < h.groups.length) →
    (s.dies[d.val]).mainDone = false → (s.dies[d.val]).mainMsgs + 1 < h.maskMsgs.getD d.val 0 →
    ∃ t, exec (.maskMessage d m) s = .next t ∧ t = { s with dies := t.dies } ∧
      (t.dies[d.val]).maskMain =
        orInto (maskBuf (s.dies[d.val]).maskMain) (hdrOffset m.hdr) (meshBytes m) ∧
      (t.dies[d.val]).mainMsgs = (s.dies[d.val]).mainMsgs + 1 ∧ (t.dies[d.val]).maskCatch = (s.dies[d.val]).maskCatch) ∧
  (∀ d m s lp ep h, s.eng.lp = some lp → (s.eng.pass.bind fun p => epochOf s p.epoch) = some ep → OfPass lp m 1 →
    lp.masked = true → focusHdr ep.man lp.entry = some h → 8192 < hdrOffset m.hdr + (meshBytes m).length →
    ∃ t, exec (.maskMessage d m) s = .next t ∧ (t.dies[d.val]).maskMain = (s.dies[d.val]).maskMain ∧
      t.tat.flight = sentAll (.die d) [(.root, packet 10 0 0 0 (0xC0 + d.val) 0 0 s.lpass 0x0604)] s.tat.flight) ∧
  (∀ d m s lp ep, s.eng.lp = some lp → (s.eng.pass.bind fun p => epochOf s p.epoch) = some ep →
    hdrLpass m.hdr ≠ lp.number.toNat → lp.inst = none →
    ∃ t, exec (.maskMessage d m) s = .next t ∧ exec (.intakeMessage d m) s = .next t ∧ t = { s with dies := t.dies } ∧
      (t.dies[d.val]).maskMain = (s.dies[d.val]).maskMain ∧ (t.dies[d.val]).intake = (s.dies[d.val]).intake) ∧
  (∀ d m s lp r, s.eng.lp = some lp → OfPass lp m 3 → lp.inst = none → (s.dies[d.val]).ranges = [r] →
    r.lo ≤ hdrOffset m.hdr → hdrOffset m.hdr + (meshBytes m).length ≤ r.lo + r.len →
    ∃ t, exec (.intakeMessage d m) s = .next t ∧ t = { s with dies := t.dies } ∧
      (∀ i (h : i < (meshBytes m).length), cellGet (t.dies[d.val]).intake (hdrOffset m.hdr + i) = some (meshBytes m)[i]) ∧
      (∀ a, a < hdrOffset m.hdr ∨ hdrOffset m.hdr + (meshBytes m).length ≤ a →
        cellGet (t.dies[d.val]).intake a = cellGet (s.dies[d.val]).intake a) ∧
      (t.dies[d.val]).ranges = [{ r with got := r.got + (meshBytes m).length }]) ∧
  (∀ d m s lp, s.eng.lp = some lp → lp.started = true → hdrLpass m.hdr = lp.number.toNat → 3 < hdrWin m.hdr →
    lp.inst = none →
    ∃ t, exec (.intakeMessage d m) s = .next t ∧
      t.tat.flight = sentAll (.die d) [(.root, packet 10 0 0 0 (0xC0 + d.val) 0 0 s.lpass 0x0701)] s.tat.flight)

/-! ### Gradient reduction (chapter 10) -/

/-- A reduction message of a type that passes its checks names the sketch `k` of the step `st` on a port die. -/
abbrev Sys2Proof.Claims.F8Names (s : State) (d : DieId) (h : BitVec 512) (ty : Nat) (pay : List Byte) (st : RedStep) (k : Sketch) : Prop :=
  f8Ok h ty pay = true ∧ f8Sketch s d h = some (st, k)

/-- A step that has ended with a code: its outcome is there, and no sketch of it is other than DONE or ENDED. -/
def Sys2Proof.Claims.StepEnded (t : State) (step : BitVec 32) (code : BitVec 16) : Prop :=
  (∃ st, findStep t step.toNat = some st ∧ st.outcome = some code) ∧
  ∀ k ∈ t.red.sketches, k.step = step → k.st = .done ∨ k.st = .ended

/-- GRANT, REFUSE, RED_DATA and RESULT (R316, R317, R319, R321, R324): the last GRANT sends a claimed sketch on the
tree, once no earlier sketch of its die waits for one; an earlier GRANT is kept; REFUSE in a group of at most 64 moves
it to the ring; a sum that comes before the sketch runs on the ring is kept; RESULT OK ends it, RETRY encodes it at
its SCALE where that is a later scale index and else changes nothing, and a step-wide RESULT ends the step with its
code, or OK as decided. A message that no sketch matches is counted in RED_STALE (R315). RED_TIMEOUT asks
CONTROL_SHARD to end the step with RED_TIMEOUT (0x0717), once for a sketch; RED_SHARD_LOST, where no decision follows,
ends the step with 0x0718 on this member, and the shuttles abort the pass that still runs (R325, R326). Model choices:
log entries 5, 32. -/
def Obligations.Reductions : Prop :=
  (∀ d plane h s st k rest, F8Names s d h 3 [] st k → k.st = .claim → k.asked = false → st.outcome = none →
    (stepSketches s st.step).filter (fun x => sketchDie x == d && x.st == .claim && !x.asked) = k :: rest →
    (k.granted ||| (1#2 <<< plane.val)) &&& k.claimed = k.claimed → k.claimed ≠ 0 →
    ∃ t k', exec (.grant d plane h) s = .next t ∧ sketchAt t k.step k.index = some k' ∧ k'.st = .tree) ∧
  (∀ d (plane : Fin 2) h s st k, F8Names s d h 3 [] st k → k.st = .claim → k.asked = false → st.outcome = none →
    (k.granted ||| (1#2 <<< plane.val)) &&& k.claimed ≠ k.claimed →
    ∃ t, exec (.grant d plane h) s = .next t ∧
      sketchAt t k.step k.index = some { k with granted := k.granted ||| (1#2 <<< plane.val) }) ∧
  (∀ d (plane : Fin 2) h s st k k' rest, F8Names s d h 3 [] st k → k.st = .claim → k.asked = false → st.outcome = none →
    (stepSketches s st.step).filter (fun x => sketchDie x == d && x.st == .claim && !x.asked) = k' :: rest →
    k'.index ≠ k.index → sketchGranted k' = false →
    ∃ t, exec (.grant d plane h) s = .next t ∧
      sketchAt t k.step k.index = some { k with granted := k.granted ||| (1#2 <<< plane.val) }) ∧
  (∀ d h s st k, F8Names s d h 4 [] st k → k.st = .claim → st.outcome = none → st.table.members.length ≤ 64 →
    ∃ t k', exec (.refuse d h) s = .next t ∧ sketchAt t k.step k.index = some k' ∧ k'.st = .ring ∧ k'.refused = true ∧
      t.red.refused = s.red.refused + 1) ∧
  (∀ d m s st k, F8Names s d m.hdr 1 m.payload st k → hf m.hdr 0xA 2 = st.epoch.toNat → st.outcome = none →
    st.muted = false → k.st = .claim →
    ∃ t, exec (.redData d m) s = .next t ∧
      sketchAt t k.step k.index = some { k with early := k.early ++ [sumOf m.hdr m.payload] }) ∧
  (∀ d m s st k, F8Names s d m.hdr 1 m.payload st k → hf m.hdr 0xA 2 ≠ st.epoch.toNat → s.red.err = 0 →
    ∃ t, exec (.redData d m) s = .next t ∧ t.red.err = BitVec.ofNat 32 (2 ^ 31 + d.val * 2 ^ 28 + 0x0716) ∧
      t.red.errStep = st.step ∧ t.red.sketches = s.red.sketches) ∧
  (∀ d h s st k, F8Names s d h 5 [] st k → bitOf (hf h 4 1) 5 = false → st.outcome = none → st.done = none →
    (k.st = .tree ∨ k.st = .ring) → hf h 0x2A 1 = 0 →
    ∃ t k', exec (.result d h) s = .next t ∧ sketchAt t k.step k.index = some k' ∧ k'.st = .done ∧ k'.elems = []) ∧
  (∀ d h s st k, F8Names s d h 5 [] st k → bitOf (hf h 4 1) 5 = false → st.outcome = none →
    (k.st = .tree ∨ k.st = .ring) → hf h 0x2A 1 = 1 → k.k < bits (hf h 6 1) 1 0 →
    ∃ t k', exec (.result d h) s = .next t ∧ sketchAt t k.step k.index = some k' ∧ k'.k = bits (hf h 6 1) 1 0 ∧
      k'.retries = k.retries + 1 ∧ t.red.retries = s.red.retries + 1) ∧
  (∀ d h s st k, F8Names s d h 5 [] st k → bitOf (hf h 4 1) 5 = false → hf h 0x2A 1 = 1 → bits (hf h 6 1) 1 0 ≤ k.k →
    ∃ t, exec (.result d h) s = .next t ∧ t.red = s.red) ∧
  (∀ d h s st, f8Ok h 5 [] = true → bitOf (hf h 4 1) 5 = true → findStep s (hf h 0xC 4) = some st →
    st.table.group.toNat = hf h 0x18 2 → st.outcome = none → st.done = none → (hf h 0x2A 1 = 2 ∨ hf h 0x2A 1 = 3) →
    ∃ t, exec (.result d h) s = .next t ∧ StepEnded t st.step (BitVec.ofNat 16 (hf h 0x1E 2))) ∧
  (∀ d h s st, f8Ok h 5 [] = true → bitOf (hf h 4 1) 5 = true → findStep s (hf h 0xC 4) = some st →
    st.table.group.toNat = hf h 0x18 2 → st.outcome = none → st.done = none → hf h 0x2A 1 = 0 →
    ∃ t st', exec (.result d h) s = .next t ∧ findStep t st.step.toNat = some st' ∧ st'.outcome = some 0 ∧
      st'.decider = BitVec.ofNat 16 (hf h 0x1A 2 % 32768) ∧ ∀ k ∈ t.red.sketches, k.step = st.step → k.st = .done) ∧
  (∀ d m s, f8Ok m.hdr 1 m.payload = true → f8Sketch s d m.hdr = none →
    ∃ t, exec (.redData d m) s = .next t ∧ t.red = { s.red with stale := s.red.stale + 1 }) ∧
  (∀ sk s k st, (s.red.sketches.find? fun k => k.index == sk && (k.st == .tree || k.st == .ring) && !k.asked) = some k →
    findStep s k.step.toNat = some st → s.red.err = 0 →
    ∃ t k', exec (.redTimeout sk) s = .next t ∧ sketchAt t k.step k.index = some k' ∧ k'.asked = true ∧
      t.red.err = BitVec.ofNat 32 (2 ^ 31 + (sketchDie k).val * 2 ^ 28 + 0x0717)) ∧
  (∀ sk s, (s.red.sketches.find? fun k => k.index == sk && (k.st == .tree || k.st == .ring) && !k.asked) = none →
    exec (.redTimeout sk) s = .next s) ∧
  (∀ s k st, (s.red.sketches.find? fun k => k.asked && sketchHeld k) = some k → findStep s k.step.toNat = some st →
    st.outcome = none → st.done = none →
    ∃ t, exec .redShardLost s = .next t ∧ StepEnded t st.step 0x0718 ∧
      t.eng.pass = s.eng.pass.map (fun p => { p with ended := p.ended.or (some 0x0718) }) ∧
      t.tat.flight = sentAll (.shuttle 0) [(.root, packet 10 0 0 0 0xD0 0 0 s.lpass 0x0718)] s.tat.flight)

/-! ### Collectives (chapter 11) and descriptors (chapter 13) -/

/-- The descriptor `f` at the head of a queue may start, passes the checks of R403, and no drain holds it. -/
abbrev Sys2Proof.Claims.Starts (s : State) (q : QueueId) (ty : Nat) (f : Fetched) : Prop :=
  headReady s q = some f ∧ dType f.d = ty ∧ descCheck s f.d = none ∧ (heldType f.d = true → admits s = true)

/-- The dispatch of a collective, by its OP (R335). -/
def Sys2Proof.Claims.collRows : List ((QueueId → List (BitVec 16) → Instr) × Nat) :=
  [(.barrier, 0), (.broadcast, 1), (.allGather, 2), (.reduceScatter, 3)]

/-- BARRIER, BROADCAST, ALL_GATHER and REDUCE_SCATTER start the instance of their TAG with the member set that is
formed (R333, R336, R338); BIND and UNBIND are held until the next pass boundary (R339). A set that cannot be formed
completes with COLL_OPERAND (0x0806), and an instance waits while 16 are undecided or one has its TAG (R334, R337,
R338). Model choices: log entries 34, 35, 78. -/
def Obligations.CollectiveDescriptors : Prop :=
  (∀ r ∈ collRows, ∀ q list s f ms, Starts s q 3 f → dField f.d 0x20 1 = r.2 → collWaits s f.d = false →
    formSet s f.d list = some ms → setGone s (dField f.d 0x21 1) ms = false →
    ∃ t k, exec (r.1 q list) s = .next t ∧ instAt t (.queue (BitVec.ofNat 32 (dField f.d 0x24 4))) = some k ∧
      k.started = true ∧ k.members = ms ∧ k.me = myIndex s ms ∧ k.desc = f.d ∧ k.q = some (q, f.ticket)) ∧
  (∀ r ∈ collRows, ∀ q list s f, Starts s q 3 f → dField f.d 0x20 1 = r.2 → collWaits s f.d = false →
    formSet s f.d list = none → exec (r.1 q list) s = .next (complete q f 0x0806 (startDesc q f s))) ∧
  (∀ r ∈ collRows, ∀ q list s f, Starts s q 3 f → dField f.d 0x20 1 = r.2 → collWaits s f.d = true →
    exec (r.1 q list) s = .next s) ∧
  (∀ q list s f im ms, Starts s q 3 f → dField f.d 0x20 1 = 4 → s.eng.image = some im → formSet s f.d list = some ms →
    collOperandOk s f.d ms.length (myIndex s ms) = true → bindOk s im (allBindings s) f.d ms.length (myIndex s ms) = true →
    ∃ t, exec (.bind q list) s = .next t ∧ t.coll = { s.coll with binds := s.coll.binds ++
      [(true, ⟨dField f.d 0x50 2, BitVec.ofNat 32 (dField f.d 0x24 4), f.d⟩, q, f.ticket)] }) ∧
  (∀ q list s f im ms, Starts s q 3 f → dField f.d 0x20 1 = 5 → s.eng.image = some im → formSet s f.d list = some ms →
    collOperandOk s f.d ms.length (myIndex s ms) = true →
    ∃ t, exec (.unbind q list) s = .next t ∧ t.coll = { s.coll with binds := s.coll.binds ++
      [(false, ⟨dField f.d 0x50 2, BitVec.ofNat 32 (dField f.d 0x24 4), f.d⟩, q, f.ticket)] })

/-- A collective frame of a type passes its checks and names `k`, the instance of its identity, in its present
attempt. -/
abbrev Sys2Proof.Claims.CollNames (s : State) (h : BitVec 512) (ty : Nat) (pay : List Byte) (k : Inst) : Prop :=
  collOk h ty pay = true ∧ collFind s h = some k ∧ instAt s k.id = some k ∧ thisAttempt h k = true

/-- The chunk that a DATA frame brings for a queue instance of TAG `tag`. -/
def Sys2Proof.Claims.dataChunk (m : Msg) (tag : BitVec 32) : CollChunk :=
  ⟨tag, some (hf m.hdr 0x18 2), hf m.hdr 0x1A 2, hf m.hdr 0x1C 4, hf m.hdr 0x2A 2, bitOf (hf m.hdr 4 1) 0, m.payload⟩

/-- COLL_DATA, JOIN, READY and COMMIT (R342, R344, R346, R352, R354): DATA of a broadcast at a member with no
successor becomes a result that waits for a slice, and DATA before the start is kept; the leader keeps a JOIN that
agrees and aborts on one whose DIGEST differs, or whose EPOCH does, which comes first; the last READY commits, and
COMMIT commits a queue instance at a member. DATA that the reduction buffer has no room for stays in the receive
buffer (R343). A JOIN that comes before the leader's own start is kept (R357); another frame that names no instance is
counted in COLL_STALE (R351). Model choices: log entries 35, 78. -/
def Obligations.CollectiveFrames : Prop :=
  (∀ d m s k tag, CollNames s m.hdr 1 m.payload k → k.id = .queue tag → k.started = true → k.st = .opened →
    dField k.desc 0x20 1 = 1 → BitVec.ofNat 32 (dField k.desc 0x24 4) = tag → resultsDone k = false →
    (k.held.any fun x => x.tag == tag && x.src == some (hf m.hdr 0x18 2) && x.block == hf m.hdr 0x1A 2
      && x.off == hf m.hdr 0x1C 4 && x.wide == bitOf (hf m.hdr 4 1) 0) = false →
    (collOp false k.desc).freed k.held (dataChunk m tag) = [hf m.hdr 0x1C 4] → collRoom s d m.payload.length = true →
    castNext k.n (dField k.desc 0x23 1) ((k.me + k.n - dField k.desc 0x2C 2 % k.n) % k.n) = [] →
    ∃ t, exec (.collData d m) s = .next t ∧ instAt t k.id = some { k with
      held := k.held ++ [dataChunk m tag],
      results := k.results ++ [⟨tag, none, 0, hf m.hdr 0x1C 4, 0, false, m.payload⟩] }) ∧
  (∀ d m s k tag, CollNames s m.hdr 1 m.payload k → k.id = .queue tag → k.started = false →
    ∃ t, exec (.collData d m) s = .next t ∧ instAt t k.id = some { k with held := k.held ++ [dataChunk m tag] }) ∧
  (∀ d h s k, CollNames s h 2 [] k → k.started = true → k.undecided = true →
    BitVec.ofNat 32 (hf h 0x2C 4) = k.digest → BitVec.ofNat 16 (hf h 0x12 2) = k.epoch →
    ∃ t, exec (.join d h) s = .next t ∧ instAt t k.id = some { k with
      joins := k.joins ++ [(hf h 0x18 2, k.digest, k.epoch)] }) ∧
  (∀ d h s k, CollNames s h 2 [] k → k.started = true → k.undecided = true → k.me = 0 → k.lead = .opened → k.n ≠ 1 →
    (BitVec.ofNat 32 (hf h 0x2C 4) ≠ k.digest ∨ BitVec.ofNat 16 (hf h 0x12 2) ≠ k.epoch) →
    ∃ t k', exec (.join d h) s = .next t ∧ instAt t k.id = some k' ∧ k'.lead = .aborted ∧
      k'.first = (if BitVec.ofNat 16 (hf h 0x12 2) = k.epoch then 0x0805 else 0x0503) ∧
      (BitVec.ofNat 16 (hf h 0x12 2) ≠ k.epoch → k'.ext = k.ext.or (some 0x0503))) ∧
  (∀ d h s k, CollNames s h 3 [] k → k.bound = false → k.started = true → k.st = .opened → k.lead = .opened →
    k.ready.contains (hf h 0x18 2) = false → k.ready.length + 1 = k.n →
    ∃ t k', exec (.ready d h) s = .next t ∧ instAt t k.id = some k' ∧ k'.lead = .committed ∧ k'.st = .committed) ∧
  (∀ d h s k, CollNames s h 3 [] k → k.lead = .opened → k.ready.contains (hf h 0x18 2) = false →
    k.ready.length + 1 < k.n →
    ∃ t, exec (.ready d h) s = .next t ∧ instAt t k.id = some { k with ready := k.ready ++ [hf h 0x18 2] }) ∧
  (∀ d h s k, CollNames s h 4 [] k → k.bound = false → k.st = .opened →
    ∃ t, exec (.commit d h) s = .next t ∧
      instAt t k.id = some { k with st := .committed, held := [], results := [] }) ∧
  (∀ d m s k tag, CollNames s m.hdr 1 m.payload k → k.id = .queue tag → k.started = true → k.st = .opened →
    collRoom s d m.payload.length = false → exec (.collData d m) s = .next s) ∧
  (∀ d h s, collOk h 2 [] = true → collFind s h = none → bitOf (hf h 4 1) 1 = false →
    ∃ t, exec (.join d h) s = .next t ∧ instAt t (.queue (BitVec.ofNat 32 (hf h 8 4))) = some
      { id := .queue (BitVec.ofNat 32 (hf h 8 4)),
        joins := [(hf h 0x18 2, BitVec.ofNat 32 (hf h 0x2C 4), BitVec.ofNat 16 (hf h 0x12 2))] }) ∧
  (∀ d h s, collOk h 4 [] = true → collFind s h = none →
    ∃ t, exec (.commit d h) s = .next t ∧ t.coll.stale = s.coll.stale + 1 ∧ t.coll.insts = s.coll.insts)

/-- COLL_ABORT_FRAME, COLL_ABORT_ACK, DISPOSE, ALREADY and ESCALATE (R354 to R356, R358): an abort of the leader
aborts the member's queue instance and drops what it holds; the leader gathers ABORT_ACK; DISPOSE with a code closes
the instance, and without one begins the next attempt; ALREADY is counted and recorded; ESCALATE moves DATA to the
escalated class once, and it stays there in the next attempt. In a group of one member the leader's own
acknowledgement closes the instance. COLL_TIMEOUT and COLL_ABORT have the leader abort an instance that is undecided,
with 0x0801 and 0x0802 (R356, R357); COLL_HALF_TIMEOUT escalates it (R358); COLL_ABORTED_TIMEOUT closes one whose
ABORT_ACKs do not all come (R354); with LEADER_SILENCE_TIMEOUT the leader is lost and the instance closes (R360).
Model choices: log entries 35, 78. -/
def Obligations.CollectiveAborts : Prop :=
  (∀ d h s k, CollNames s h 5 [] k → k.me ≠ 0 → k.bound = false → k.started = true → k.st = .opened →
    ∃ t, exec (.collAbortFrame d h) s = .next t ∧
      instAt t k.id = some { k with st := .aborted, held := [], results := [] }) ∧
  (∀ d h s k, CollNames s h 6 [] k → k.lead = .aborted → k.acks.contains (hf h 0x18 2) = false →
    k.acks.length + 1 < k.n →
    ∃ t, exec (.collAbortAck d h) s = .next t ∧ instAt t k.id = some { k with acks := k.acks ++ [hf h 0x18 2] }) ∧
  (∀ d h s k, CollNames s h 7 [] k → k.bound = false → k.st = .aborted → hf h 5 1 ≠ 0 →
    BitVec.ofNat 16 (hf h 0x28 2) ≠ 0 →
    ∃ t, exec (.dispose d h) s = .next t ∧ instAt t k.id = some { k with st := .closed, held := [], results := [] }) ∧
  (∀ d h s k, CollNames s h 7 [] k → k.bound = false → k.st = .aborted → hf h 5 1 = 0 →
    ∃ t k', exec (.dispose d h) s = .next t ∧ instAt t k.id = some k' ∧ k'.attempt = k.attempt + 1 ∧ k'.st = .opened ∧
      k'.esc = k.esc ∧ (k.ahead = [] → k'.held = []) ∧ k'.resDone = 0 ∧ k'.moved = false ∧ k'.sent = 0 ∧
      k'.ahead = []) ∧
  (∀ d h s k, CollNames s h 8 [] k → s.coll.err = 0 →
    ∃ t, exec (.already d h) s = .next t ∧ t.coll.late = s.coll.late + 1 ∧ t.coll.insts = s.coll.insts ∧
      t.coll.err = BitVec.ofNat 32 (2 ^ 31 + 3 * 2 ^ 29 + (if k.bound then 2 ^ 28 else 0) + 0x0803)) ∧
  (∀ d h s k, CollNames s h 9 [] k → k.undecided = true → k.esc = false →
    ∃ t, exec (.escalate d h) s = .next t ∧ instAt t k.id = some { k with esc := true } ∧
      t.coll.escs = s.coll.escs + 1) ∧
  (∀ d h s k, CollNames s h 9 [] k → k.esc = true →
    ∃ t, exec (.escalate d h) s = .next t ∧ t.coll.insts = s.coll.insts ∧ t.coll.escs = s.coll.escs) ∧
  (∀ id s k, instAt s id = some k → k.me = 0 → k.lead = .opened → k.undecided = true → k.n ≠ 1 →
    ∃ t k', exec (.collTimeout id) s = .next t ∧ instAt t id = some k' ∧ k'.lead = .aborted ∧ k'.first = 0x0801 ∧
      k'.ext = k.ext.or (some 0x0801)) ∧
  (∀ tag s k, hostUp s = true → instAt s (.queue tag) = some k → k.me = 0 → k.lead = .opened → k.undecided = true →
    k.n ≠ 1 →
    ∃ t k', exec (.collAbort tag) s = .next t ∧ instAt t (.queue tag) = some k' ∧ k'.lead = .aborted ∧
      k'.first = 0x0802) ∧
  (∀ tag s k, hostUp s = true → instAt s (.queue tag) = some k → k.me = 0 → k.lead = .opened → k.started = true →
    k.st = .opened → k.n = 1 → k.ext = none →
    ∃ t k', exec (.collAbort tag) s = .next t ∧ instAt t (.queue tag) = some k' ∧ k'.lead = .closed ∧
      k'.st = .closed) ∧
  (∀ id s k, instAt s id = some k → k.started = true → k.me = 0 → k.lead = .opened → k.undecided = true → k.esc = false →
    ∃ t, exec (.collHalfTimeout id) s = .next t ∧ instAt t id = some { k with esc := true } ∧
      t.coll.escs = s.coll.escs + 1) ∧
  (∀ id s k code, instAt s id = some k → k.started = true → k.me = 0 → k.lead = .aborted → k.st = .aborted →
    k.bound = false → k.ext = some code → code ≠ 0 →
    ∃ t k', exec (.collAbortedTimeout id) s = .next t ∧ instAt t id = some k' ∧ k'.lead = .closed ∧ k'.st = .closed) ∧
  (∀ id s k l, instAt s id = some k → k.undecided = true → k.me ≠ 0 → k.bound = false → k.members.head? = some l →
    l ≠ s.eng.cfg.engineId →
    ∃ t k', exec (.leaderSilenceTimeout id) s = .next t ∧ l ∈ t.coll.lost ∧ instAt t id = some k' ∧ k'.st = .closed)

/-! ### Azram ports (chapter 12) -/

/-- No frame waits or is unacknowledged on a port, so that nothing is lost when it leaves its link (R383). -/
abbrev Sys2Proof.Claims.Quiet (s : State) (p : PortId) : Prop :=
  (s.ports[p.val]).xfer.begun = [] ∧ ∀ i : Fin 5, (s.ports[p.val]).xfer.txq[i.val] = []

/-- The port of the state `t` is in a state of R370. -/
abbrev Sys2Proof.Claims.PortIs (t : State) (p : PortId) (st : PortState) : Prop := (t.ports[p.val]).st = st

/-- The states of a port (R366, R370, R374): each command is an event of the table of R370 and moves a port that is in
the event's state; a port in another state stays as it is. Model choices: log entries 5, 31, 79. -/
def Obligations.PortStates : Prop :=
  (∀ p s, (s.ports[p.val]).st = .dark → (s.ports[p.val]).disable = false → roleOf s p ≠ 0 → portsPowered s = true →
    (∃ t, exec (.portPresent p false) s = .next t ∧ PortIs t p .detect ∧ (t.ports[p.val]).present = true) ∧
    (∃ t, exec (.portPresent p true) s = .next t ∧ PortIs t p .train ∧ (t.ports[p.val]).passive = true)) ∧
  (∀ p s, Quiet s p → ∃ t, exec (.portRemoved p) s = .next t ∧ PortIs t p .dark ∧ (t.ports[p.val]).present = false) ∧
  (∀ p s, (s.ports[p.val]).st = .detect →
    ∃ t, exec (.modulePowered p) s = .next t ∧ PortIs t p .train ∧ (t.ports[p.val]).modulePower = true ∧
      ∀ r : PortId, r ≠ p → t.ports[r.val] = s.ports[r.val]) ∧
  (∀ p s, Quiet s p → (s.ports[p.val]).st = .detect →
    ∃ t, exec (.linkModule p) s = .next t ∧ PortIs t p .down ∧ (t.ports[p.val]).link.lastCode = 0x0906 ∧
      (t.ports[p.val]).modulePower = false ∧
      (t.ports[p.val]).cnt.downs = (s.ports[p.val]).cnt.downs + 1) ∧
  (∀ p s, Quiet s p → (s.ports[p.val]).st = .train →
    ∃ t, exec (.trainTimeout p) s = .next t ∧ PortIs t p .down) ∧
  (∀ p s, Quiet s p → (s.ports[p.val]).st = .negotiate →
    ∃ t, exec (.helloTimeout p) s = .next t ∧ PortIs t p .down) ∧
  (∀ p s, Quiet s p → (s.ports[p.val]).st = .active →
    ∃ t, exec (.lockLost p .long) s = .next t ∧ PortIs t p .down ∧ (t.ports[p.val]).link.lastCode = 0x0901) ∧
  (∀ p s, Quiet s p → (s.ports[p.val]).st = .active →
    ∃ t, exec (.lockLost p .removed) s = .next t ∧ PortIs t p .dark ∧ (t.ports[p.val]).present = false) ∧
  (∀ p s, (s.ports[p.val]).st = .active →
    ∃ t, exec (.lockLost p .short) s = .next t ∧ PortIs t p .retrain ∧ (t.ports[p.val]).link.inUse = 0 ∧
      (t.ports[p.val]).cnt.retrains = (s.ports[p.val]).cnt.retrains + 1 ∧
      (t.ports[p.val]).xfer = (s.ports[p.val]).xfer ∧ ∀ r : PortId, r ≠ p → t.ports[r.val] = s.ports[r.val]) ∧
  (∀ p s, Quiet s p → (s.ports[p.val]).st = .retrain → (s.ports[p.val]).link.inUse = 0 →
    ∃ t, exec (.retrainTimeout p) s = .next t ∧ PortIs t p .down ∧ (t.ports[p.val]).link.lastCode = 0x0901) ∧
  (∀ p s, (s.ports[p.val]).st = .down →
    ∃ t, exec (.downRetry p) s = .next t ∧ PortIs t p (if (s.ports[p.val]).passive then .train else .detect)) ∧
  (∀ p high s, (s.ports[p.val]).st = .active →
    ∃ t, exec (.laneSerWindow p high) s = .next t ∧
      PortIs t p (if high &&& (s.ports[p.val]).link.inUse = 0 then .active else .retrain) ∧
      (t.ports[p.val]).link.serHigh = high) ∧
  (∀ p s, (s.ports[p.val]).st = .dark →
    exec (.modulePowered p) s = .next s ∧ exec (.linkModule p) s = .next s ∧ exec (.trainTimeout p) s = .next s ∧
    exec (.helloTimeout p) s = .next s ∧ exec (.lockLost p .long) s = .next s ∧ exec (.retrainTimeout p) s = .next s ∧
    exec (.downRetry p) s = .next s ∧ exec (.helloResend p) s = .next s)

/-- TRAIN_LOCK takes eight lanes, or the half that has lock, and sends HELLO; with a lane failed in each half the link
is DOWN (R374). HELLO with a common version and the right role makes the port ACTIVE with what both sides have;
another is LINK_VERSION (0x0902) or LINK_ROLE (0x0903) (R371 to R373). HELLO_RESEND sends HELLO again, once the last
has gone. LEAVE and UNREACH take an engine as lost, UNREACH records LINK_UNREACH (0x0907), and REACH records nothing
(R360, R380). Model choices: log entries 30, 31, 79. -/
def Obligations.PortNegotiation : Prop :=
  (∀ p s, (s.ports[p.val]).st = .train → (s.ports[p.val]).capped = false → (s.ports[p.val]).link.wide = true →
    ∃ t, exec (.trainLock p 0xFF false) s = .next t ∧ PortIs t p .negotiate ∧ (t.ports[p.val]).link.lanes = 8 ∧
      (t.ports[p.val]).link.inUse = 0xFF ∧ (t.ports[p.val]).xfer.txq[4] = [linkFrame s p 1]) ∧
  (∀ p four s, (s.ports[p.val]).st = .train →
    ∃ t, exec (.trainLock p 0x0F four) s = .next t ∧ PortIs t p .negotiate ∧ (t.ports[p.val]).link.lanes = 4 ∧
      (t.ports[p.val]).link.inUse = 0x0F ∧ (t.ports[p.val]).link.failed = 0xF0) ∧
  (∀ p four s, Quiet s p → (s.ports[p.val]).st = .train →
    ∃ t, exec (.trainLock p 0xEE four) s = .next t ∧ PortIs t p .down) ∧
  (∀ p s, (s.ports[p.val]).st = .negotiate → (s.ports[p.val]).xfer.txq[4] = [] →
    ∃ t, exec (.helloResend p) s = .next t ∧ PortIs t p .negotiate ∧
      (t.ports[p.val]).xfer.txq[4] = [linkFrame s p 1]) ∧
  (∀ p s, (s.ports[p.val]).xfer.txq[4] ≠ [] → exec (.helloResend p) s = .next s) ∧
  (∀ p h s, (s.ports[p.val]).st = .negotiate → (s.ports[p.val]).link.lanes = 8 → hf h 0 2 = magicAz → hf h 3 1 = 1 →
    helloForm h = true → helloRole s p h = true →
    ∃ t, exec (.hello p h) s = .next t ∧ PortIs t p .active ∧
      (t.ports[p.val]).link = helloLink h (s.ports[p.val]).link) ∧
  (∀ p h s, Quiet s p → (s.ports[p.val]).st = .negotiate → hf h 0 2 = magicAz → hf h 3 1 = 1 → helloForm h = false →
    ∃ t, exec (.hello p h) s = .next t ∧ PortIs t p .down ∧ (t.ports[p.val]).link.lastCode = 0x0902) ∧
  (∀ p h s, Quiet s p → (s.ports[p.val]).st = .negotiate → hf h 0 2 = magicAz → hf h 3 1 = 1 → helloForm h = true →
    helloRole s p h = false →
    ∃ t, exec (.hello p h) s = .next t ∧ PortIs t p .down ∧ (t.ports[p.val]).link.lastCode = 0x0903) ∧
  (∀ p h s, hf h 5 1 = 0 →
    ∃ t, exec (.leave p h) s = .next t ∧ BitVec.ofNat 14 (hf h 8 2) ∈ t.coll.lost) ∧
  (∀ p h s, roleOf s p ≠ 3 → (s.ports[p.val]).link.err = 0 →
    ∃ t, exec (.unreach p h) s = .next t ∧ BitVec.ofNat 14 (hf h 0x1A 2) ∈ t.coll.lost ∧
      (t.ports[p.val]).link.err = BitVec.ofNat 32 (2 ^ 31 + 0x0907)) ∧
  (∀ p h s, ∃ t, exec (.reach p h) s = .next t ∧ t.coll = s.coll ∧ t.eng = s.eng ∧
    (t.ports[p.val]).link = (s.ports[p.val]).link)

/-- FLIT_TRANSMIT sends a new data flit of the control class first, during a replay too, which stays in the replay
buffer until it is acknowledged, then a flit to be replayed, and else an idle flit (R359, R376 to R379). FLIT_RECEIVE
discards a flit that fails its check and delivers a frame whose data flit comes in order (R377, R379). REPLAY_TIMEOUT
replays what is unacknowledged, and the fourth replay from one FSEQ starts RETRAIN (R379). Model choices: log entries
5, 31. -/
def Obligations.PortFlits : Prop :=
  (∀ p s, (s.ports[p.val]).st = .active → (s.ports[p.val]).link.features.getLsbD 0 = true →
    (s.ports[p.val]).xfer.resend = [] → (∀ i : Fin 5, (s.ports[p.val]).xfer.txq[i.val] = []) →
    exec (.flitTransmit p) s = .next ((s.setPort p { s.ports[p.val] with xfer := afterFlit (s.ports[p.val]).xfer }).emit
      (.flit p (buildFlit (s.ports[p.val]).xfer none)))) ∧
  (∀ p s f rest, (s.ports[p.val]).st = .active → (s.ports[p.val]).link.features.getLsbD 0 = true →
    (s.ports[p.val]).xfer.resend = f :: rest → ctxReady (s.ports[p.val]).xfer 4 = false →
    exec (.flitTransmit p) s = .next ((s.setPort p { s.ports[p.val] with
        xfer := afterFlit { (s.ports[p.val]).xfer with resend := rest } }).emit
      (.flit p (buildFlit (s.ports[p.val]).xfer (some f))))) ∧
  (∀ p s f rest, (s.ports[p.val]).st = .active → (s.ports[p.val]).link.features.getLsbD 0 = true →
    (s.ports[p.val]).xfer.replay.length < 1024 → (s.ports[p.val]).xfer.txq[4] = f :: rest →
    0 < (s.ports[p.val]).xfer.credits[3] → (s.ports[p.val]).xfer.sentOf[4] = 0 → f.bytes.length ≤ 256 →
    let fl : TxFlit := { fseq := (s.ports[p.val]).xfer.nextSeq, ctx := 4, sof := true, eof := true,
                         last := BitVec.ofNat 8 (f.bytes.length - 1), route := f.route,
                         payload := BitVec.ofNat 2048 (leNat f.bytes) }
    ∃ t, exec (.flitTransmit p) s = .next t ∧
      t.out = .flit p (buildFlit (s.ports[p.val]).xfer (some fl)) :: s.out ∧
      (t.ports[p.val]).xfer.txq[4] = rest ∧ (t.ports[p.val]).xfer.replay = (s.ports[p.val]).xfer.replay ++ [fl] ∧
      (t.ports[p.val]).xfer.nextSeq = (s.ports[p.val]).xfer.nextSeq + 1 ∧
      (t.ports[p.val]).xfer.resend =
        (if (s.ports[p.val]).xfer.resend = [] then [] else (s.ports[p.val]).xfer.resend ++ [fl]) ∧
      (t.ports[p.val]).xfer.credits[3] = (s.ports[p.val]).xfer.credits[3] - 1) ∧
  (∀ p s, (s.ports[p.val]).st = .dark → exec (.flitTransmit p) s = .next s) ∧
  (∀ p flit s, (s.ports[p.val]).st = .active → bitOf flit.toNat 4 = false → (s.ports[p.val]).xfer.nakSent = false →
    ∃ t, exec (.flitReceive p flit true) s = .next t ∧
      (t.ports[p.val]).cnt.crcErr = (s.ports[p.val]).cnt.crcErr + 1 ∧
      (t.ports[p.val]).cnt.fecUncorr = (s.ports[p.val]).cnt.fecUncorr + Config.freeWord (s.free + 1) ∧
      (t.ports[p.val]).xfer = { (s.ports[p.val]).xfer with nakSent := true, nakDue := true } ∧ t.dies = s.dies) ∧
  (∀ p flit s, (s.ports[p.val]).st = .active →
    bits flit.toNat 2175 2144 = (crc32c (leBytes 268 flit.toNat)).toNat → bitOf flit.toNat 4 = false →
    bitOf flit.toNat 48 = false → bitOf flit.toNat 49 = false →
    BitVec.ofNat 16 (bits flit.toNat 31 16) = (s.ports[p.val]).xfer.expSeq → bits flit.toNat 1 0 = 3 →
    bitOf flit.toNat 2 = true → bitOf flit.toNat 3 = true →
    roleCarries (rolePlayed s p) (frameHdr ((leBytes 256 (bits flit.toNat 2143 96)).take (bits flit.toNat 15 8 + 1))) = true →
    ∃ t, exec (.flitReceive p flit false) s = .next t ∧
      (t.ports[p.val]).xfer.expSeq = (s.ports[p.val]).xfer.expSeq + 1 ∧
      (t.dies[(dieOfPort p).val]).inbox = (s.dies[(dieOfPort p).val]).inbox ++
        [(p, 3, (leBytes 256 (bits flit.toNat 2143 96)).take (bits flit.toNat 15 8 + 1))]) ∧
  (∀ p s f rest, (s.ports[p.val]).st = .active → (s.ports[p.val]).xfer.replay = f :: rest →
    (s.ports[p.val]).xfer.replayRuns < 3 →
    ∃ t, exec (.replayTimeout p) s = .next t ∧ PortIs t p .active ∧ (t.ports[p.val]).xfer.resend = f :: rest ∧
      (t.ports[p.val]).cnt.replays = (s.ports[p.val]).cnt.replays + 1) ∧
  (∀ p s f rest, (s.ports[p.val]).st = .active → (s.ports[p.val]).xfer.replay = f :: rest →
    (s.ports[p.val]).xfer.replayRuns = 3 → (s.ports[p.val]).xfer.replaySeq = f.fseq → (s.ports[p.val]).link.err = 0 →
    ∃ t, exec (.replayTimeout p) s = .next t ∧ PortIs t p .retrain ∧
      (t.ports[p.val]).link.err = BitVec.ofNat 32 (2 ^ 31 + 0x0905))

/-- The bits of AZ_CTL (R382, R386): RETRAIN and WIDEN start RETRAIN of an ACTIVE port, WIDEN of one on four lanes;
DISABLE has an ACTIVE port leave, at once if all is acknowledged and LEAVE has its credit, and cleared lets a DARK one
start again; LOCATE is kept. LEAVE_TIMEOUT ends a leave. Without the host the writes do nothing. Model choices: log
entries 5, 39. -/
def Obligations.PortControl : Prop :=
  (∀ p s, hostUp s = true → (s.ports[p.val]).st = .active →
    ∃ t, exec (.azCtlRetrain p) s = .next t ∧ PortIs t p .retrain ∧
      (t.ports[p.val]).link.wide = decide ((s.ports[p.val]).link.lanes = 8)) ∧
  (∀ p s, hostUp s = true → (s.ports[p.val]).st = .active → (s.ports[p.val]).link.lanes = 4 →
    (s.ports[p.val]).capped = false →
    ∃ t, exec (.azCtlWiden p) s = .next t ∧ PortIs t p .retrain ∧ (t.ports[p.val]).link.wide = true) ∧
  (∀ p s, hostUp s = true → (s.ports[p.val]).st = .active → (s.ports[p.val]).link.lanes ≠ 4 →
    exec (.azCtlWiden p) s = .next s) ∧
  (∀ p s, hostUp s = true → (s.ports[p.val]).st = .active → Quiet s p → (s.ports[p.val]).xfer.replay = [] →
    (s.ports[p.val]).xfer.credits[3] ≠ 0 →
    ∃ t, exec (.azCtlDisable p true) s = .next t ∧ PortIs t p .dark ∧ (t.ports[p.val]).disable = true) ∧
  (∀ p s, hostUp s = true → (s.ports[p.val]).st = .active → Quiet s p →
    ((s.ports[p.val]).xfer.replay ≠ [] ∨ (s.ports[p.val]).xfer.credits[3] = 0) →
    ∃ t, exec (.azCtlDisable p true) s = .next t ∧ PortIs t p .leaving ∧
      (t.ports[p.val]).xfer.replay = (s.ports[p.val]).xfer.replay) ∧
  (∀ p s, hostUp s = true → (s.ports[p.val]).st = .dark → (s.ports[p.val]).present = true →
    (s.ports[p.val]).passive = false → roleOf s p ≠ 0 → portsPowered s = true →
    ∃ t, exec (.azCtlDisable p false) s = .next t ∧ PortIs t p .detect ∧ (t.ports[p.val]).disable = false) ∧
  (∀ p v s, hostUp s = true →
    exec (.azCtlLocate p v) s = .next (s.setPort p { s.ports[p.val] with locate := v })) ∧
  (∀ p s, Quiet s p → (s.ports[p.val]).st = .leaving → (s.ports[p.val]).disable = true →
    ∃ t, exec (.leaveTimeout p) s = .next t ∧ PortIs t p .dark) ∧
  (∀ p v s, hostUp s = false → exec (.azCtlRetrain p) s = .next s ∧ exec (.azCtlWiden p) s = .next s ∧
    exec (.azCtlDisable p v) s = .next s ∧ exec (.azCtlLocate p v) s = .next s)

/-! ### Queues and descriptors (chapter 13) -/

/-- What the completion of descriptor `f` with a status leaves of `u` (R400, R401): the completion record is written
if CPL is set, then Q_DONE counts the descriptor, which no longer runs, SIG_INC is added to the COUNT of SIG_ID if
SIGNAL is set and SIG_ID is shuttle-homed (R177), and VECTOR, from 16 to 63, is sent, or is pending while it is
masked, if IRQ is set. What the shuttles kept of it before its admission is dropped, and nothing else changes. -/
def Sys2Proof.Claims.Completes (u : State) (q : QueueId) (f : Fetched) (st : BitVec 16) (t : State) : Prop :=
  let x := u.host.queues[q.val]
  let m := u.host.msix
  let masked := m.fmask || m.mask.getLsbD (dVector f.d)
  let irq := dIrq f.d && decide (16 ≤ dVector f.d) && decide (dVector f.d < 64) && m.enable
  let sig := dField f.d 6 2
  t = { u with eng := forget q f.ticket u.eng, host := t.host, tat := t.tat, clusters := t.clusters, out := t.out } ∧
  t.host = { u.host with
    queues := u.host.queues.set q.val
      { x with done := x.done + 1, running := x.running.filter fun y => y.ticket != f.ticket },
    msix := { m with pend := if irq && masked then m.pend ||| (1#64 <<< dVector f.d) else m.pend } } ∧
  t.out = (if irq && !masked then [Out.msix (dVector f.d)] else []) ++
    (if dCpl f.d && u.host.linkUp then [Out.hostWrite (dField f.d 0x10 8) (cplRecord q f st)] else []) ++ u.out ∧
  (dSignal f.d = true → 0xC000 ≤ sig → ObjChanged u sig
    { objGet u sig with count := (objGet u sig).count + BitVec.ofNat 32 (dField f.d 12 4) } u.tat.flight t) ∧
  (dSignal f.d = false ∨ sig < 0xC000 → t.tat = u.tat ∧ t.clusters = u.clusters)

/-- The descriptors whose commands take no operand, with TYPE and the byte at 0x20 that selects the command (R399,
R402). -/
def Sys2Proof.Claims.descRows : List ((QueueId → Instr) × Nat × (Nat → Bool)) :=
  [(.signalSyncAdd, 4, fun k => k == 1), (.signalSyncSet, 4, fun k => k == 2), (.signalSyncTarget, 4, fun k => k == 3),
   (.waitSync, 5, fun _ => true), (.copyDesc, 6, fun _ => true), (.fillDesc, 7, fun _ => true),
   (.epochSwitch, 8, fun k => k == 0), (.epochSwitchAdapter, 8, fun k => k == 1)]

/-- A dispatched descriptor completes with the code of the first check that fails and does not run (R403). SIGNAL_SYNC
applies its operation at the root, or sends it to another engine, and completes (R402, R404); WAIT_SYNC completes when
COUNT has reached VALUE, runs until then, and ends with WAIT_TIMEOUT (0x020A) at its limit (R402). Model choices: log
entries 34, 46, 87. -/
def Obligations.SyncDescriptors : Prop :=
  (∀ r ∈ descRows, ∀ q f s code, headReady s q = some f → dType f.d = r.2.1 → r.2.2 (dField f.d 0x20 1) = true →
    descCheck s f.d = some code → (heldType f.d = true → admits s = true) → s.eng.copies.length < 4 → s.wts.load = none →
    NoWaitSync s → ∃ t, exec (r.1 q) s = .next t ∧ Completes (startDesc q f s) q f code t) ∧
  (∀ r ∈ [((.signalSyncAdd : QueueId → Instr), 1, fun (o : SyncObj) (v : Word) => { o with count := o.count + v }),
      (.signalSyncSet, 2, fun o v => { o with count := v }), (.signalSyncTarget, 3, fun o v => { o with target := v })],
    ∀ q f s, Starts s q 4 f → dField f.d 0x20 1 = r.2.1 → NoWaitSync s →
    (dField f.d 0x28 2 = 0xFFFF → ∃ u t, exec (r.1 q) s = .next t ∧ u = { startDesc q f s with tat := u.tat } ∧
      ObjChanged s (dField f.d 0x22 2)
        (r.2.2 (objGet s (dField f.d 0x22 2)) (BitVec.ofNat 32 (dField f.d 0x24 4))) s.tat.flight u ∧
      Completes u q f 0 t) ∧
    (∀ d, dField f.d 0x28 2 ≠ 0xFFFF → dieFor s (dField f.d 0x28 2) = some d →
      ∃ u t, exec (r.1 q) s = .next t ∧ u = { startDesc q f s with ports := u.ports, dies := u.dies } ∧
        (∃ p ∈ switchPorts s d, (u.ports[p.val]).xfer.txq[4] = (s.ports[p.val]).xfer.txq[4] ++
          [⟨4, routeTo 0 d.val 15 (dField f.d 0x28 2), hdrBytes (syncFrame s r.2.1 (dField f.d 0x22 2)
            (dField f.d 0x28 2) (BitVec.ofNat 32 (dField f.d 0x24 4)))⟩]) ∧
        Completes u q f 0 t) ∧
    (dField f.d 0x28 2 ≠ 0xFFFF → dieFor s (dField f.d 0x28 2) = none →
      ∃ t, exec (r.1 q) s = .next t ∧ Completes (startDesc q f s) q f 0 t)) ∧
  (∀ q f s, Starts s q 5 f → NoWaitSync s →
    let o := objGet s (dField f.d 0x20 2)
    (0 ≤ (o.count - BitVec.ofNat 32 (dField f.d 0x24 4)).toInt →
      ∃ t, exec (.waitSync q) s = .next t ∧ Completes (startDesc q f s) q f 0 t) ∧
    ((o.count - BitVec.ofNat 32 (dField f.d 0x24 4)).toInt < 0 → exec (.waitSync q) s = .next (startDesc q f s))) ∧
  (∀ q (n : Nat) f s, (s.host.queues[q.val]).st = .active → (timedWaits s q)[n]? = some f →
    (∀ q' : QueueId, ∀ g ∈ (s.host.queues[q'.val]).running, dType g.d = 5 → q' = q ∧ g.ticket = f.ticket ∨
      ((objGet s (dField g.d 0x20 2)).count - BitVec.ofNat 32 (dField g.d 0x24 4)).toInt < 0 ∧
        (dSignal f.d = true → dField g.d 0x20 2 ≠ dField f.d 6 2)) →
    ∃ t, exec (.waitTimeout ⟨q, n⟩) s = .next t ∧ Completes s q f 0x020A t) ∧
  (∀ q f s, f ∈ (s.host.queues[q.val]).running → dType f.d = 5 → dField f.d 0x28 4 ≠ 0 →
    ∃ n : Nat, (timedWaits s q)[n]? = some f) ∧
  (∀ q (n : Nat) s, (timedWaits s q)[n]? = none → exec (.waitTimeout ⟨q, n⟩) s = .next s)

/-- The job `j` of a running descriptor `f` of a queue that is ACTIVE; what it touches of the window lies in it (R402,
R406). -/
abbrev Sys2Proof.Claims.JobOf (s : State) (n : Nat) (j : CopyJob) (f : Fetched) : Prop :=
  s.eng.copies[n]? = some j ∧ runningAt s j.q j.ticket = some f ∧ (s.host.queues[j.q.val]).st = .active ∧
    j.dst % 64 = 0 ∧ j.len % 64 = 0 ∧ (j.fill = true ∨ j.dir ≠ 1 → j.dst + j.len ≤ winBytes)

/-- The state without the job, whose bytes of the window at `h` are now `bs`, all others as before. -/
def Sys2Proof.Claims.Moved (s : State) (n : Nat) (h : Nat) (bs : List Byte) (u : State) : Prop :=
  u = { s with eng := { s.eng with copies := s.eng.copies.eraseIdx n }, clusters := u.clusters } ∧
  (∀ i (hi : i < bs.length), winLook u (h + i) = some bs[i]) ∧
  ∀ a, a < winBytes → (a < h ∨ h + bs.length ≤ a) → winLook u a = winLook s a

/-- COPY and FILL run at most four at a time and start at once (R404); each completes once its bytes have been
written, and a host read that fails ends a COPY with COPY_FAULT (R406). A unit that fails link parity is dropped where
it is written and recorded where it is read, and the descriptor completes with OK (R224). EPOCH_SWITCH starts one load
at a time, and a base epoch is handled by the newness of its NUMBER (R257). Model choices: log entries 5, 46. -/
def Obligations.CopyAndEpochDescriptors : Prop :=
  (∀ q f s, Starts s q 6 f → s.eng.copies.length < 4 →
    exec (.copyDesc q) s = .next { startDesc q f s with eng := { s.eng with copies := s.eng.copies ++
      [⟨q, f.ticket, false, dField f.d 0x20 1, dField f.d 0x24 4, dField f.d 0x28 8, dField f.d 0x30 8, 0⟩] } }) ∧
  (∀ q f s, Starts s q 7 f → s.eng.copies.length < 4 →
    exec (.fillDesc q) s = .next { startDesc q f s with eng := { s.eng with copies := s.eng.copies ++
      [⟨q, f.ticket, true, 0, dField f.d 0x24 4, 0, dField f.d 0x28 8, BitVec.ofNat 32 (dField f.d 0x20 4)⟩] } }) ∧
  (∀ r ∈ [((.copyDesc : QueueId → Instr), 6), (.fillDesc, 7)], ∀ q f s, headReady s q = some f → dType f.d = r.2 →
    4 ≤ s.eng.copies.length → exec (r.1 q) s = .next s) ∧
  (∀ n data ok bad s j f bs, JobOf s n j f → NoWaitSync s → j.fill = true → bs.length = j.len →
    (∀ i (hi : i < bs.length), bs[i] = BitVec.ofNat 8 (j.pat.toNat / 256 ^ (i % 4))) →
    ∃ u t, exec (.copyFillDone n data ⟨ok, bad, []⟩) s = .next t ∧ Moved s n j.dst bs u ∧ Completes u j.q f 0 t) ∧
  (∀ n data ok bad s j f, JobOf s n j f → NoWaitSync s → j.fill = true → j.len = 64 → s.host.path.wdrop = 0 →
    ∃ u t, exec (.copyFillDone n data ⟨ok, bad, [0]⟩) s = .next t ∧ u.clusters = s.clusters ∧ u.cores = s.cores ∧
      u.host.path = { s.host.path with wdrop := 0xC0000001, woff := BitVec.ofNat 32 (j.dst / 64) } ∧
      Completes u j.q f 0 t) ∧
  (∀ n data ok s j f, JobOf s n j f → NoWaitSync s → j.fill = false → j.dir = 1 → j.len = 64 →
    j.src + 64 ≤ winBytes → s.host.path.err = 0 →
    ∃ u t, exec (.copyFillDone n data ⟨ok, [0], []⟩) s = .next t ∧ u.clusters = s.clusters ∧ u.cores = s.cores ∧
      u.host.path = { s.host.path with
        err := BitVec.ofNat 32 (2 ^ 31 + (winCluster j.src).val * 2 ^ 21 + 2 ^ 20 + 1), off := BitVec.ofNat 32 (j.src / 64) } ∧
      Completes u j.q f 0 t) ∧
  (∀ n data bad s j f, JobOf s n j f → NoWaitSync s → j.fill = false → j.dir = 0 → data.length = j.len →
    ∃ u t, exec (.copyFillDone n data ⟨true, bad, []⟩) s = .next t ∧ Moved s n j.dst data u ∧ Completes u j.q f 0 t) ∧
  (∀ n data bad dropped s j f, JobOf s n j f → NoWaitSync s → j.fill = false → j.dir = 0 →
    ∃ u t, exec (.copyFillDone n data ⟨false, bad, dropped⟩) s = .next t ∧
      u = { s with eng := { s.eng with copies := s.eng.copies.eraseIdx n }, clusters := u.clusters } ∧
      (∀ a, a < winBytes → (a < j.dst ∨ j.dst + j.len ≤ a) → winLook u a = winLook s a) ∧
      Completes u j.q f 0x020B t) ∧
  (∀ n data ok s j f bs, JobOf s n j f → NoWaitSync s → j.fill = false → j.dir ≠ 0 → bs.length = j.len →
    winBad s j.src j.len = false → (∀ i (hi : i < bs.length), winLook s (j.src + i) = some bs[i]) →
    ∃ u t, exec (.copyFillDone n data ⟨ok, [], []⟩) s = .next t ∧ Completes u j.q f 0 t ∧
      if j.dir = 1 then u = { s with
        eng := { s.eng with copies := s.eng.copies.eraseIdx n },
        out := (if s.host.linkUp then [Out.hostWrite j.dst bs] else []) ++ s.out }
      else Moved s n j.dst bs u) ∧
  (∀ q f s e, Starts s q 8 f → dField f.d 0x20 1 = 0 → s.wts.load = none → NoWaitSync s → s.wts.current = some e →
    let n := BitVec.ofNat 16 (dField f.d 0x22 2)
    (n = 0 ∨ n ≠ e.number ∧ newer n e.number = false →
      ∃ t, exec (.epochSwitch q) s = .next t ∧ Completes (startDesc q f s) q f 0x0503 t) ∧
    (n ≠ 0 → n = e.number → ∃ t, exec (.epochSwitch q) s = .next t ∧ Completes (startDesc q f s) q f 0 t)) ∧
  (∀ r ∈ [((.epochSwitch : QueueId → Instr), 0), (.epochSwitchAdapter, 1)], ∀ q f s d, Starts s q 8 f →
    dField f.d 0x20 1 = r.2 → s.wts.load = none → dieFor s (dField f.d 0x22 2) = some d →
    (r.2 = 0 → switchCode s (BitVec.ofNat 16 (dField f.d 0x22 2)) = none) →
    ∃ t l, exec (r.1 q) s = .next t ∧ t.host = (startDesc q f s).host ∧ t.wts.load = some l ∧ l.st = .fetching ∧
      l.q = q ∧ l.ticket = f.ticket ∧ l.adapter = (r.2 == 1) ∧ l.number = BitVec.ofNat 16 (dField f.d 0x22 2) ∧
      l.role = BitVec.ofNat 8 (dField f.d 0x21 1) ∧ l.shard = BitVec.ofNat 16 (dField f.d 0x24 2) ∧
      l.group = BitVec.ofNat 16 (dField f.d 0x26 2) ∧
      l.bcastMs = if dField f.d 0x28 4 = 0 then 1000 else dField f.d 0x28 4) ∧
  (∀ r ∈ [((.epochSwitch : QueueId → Instr)), (.epochSwitchAdapter)], ∀ q f s l, headReady s q = some f →
    dType f.d = 8 → s.wts.load = some l → exec (r q) s = .next s)

/-- LOAD_PROGRAM waits for the validation of its image, one at a time (R88); an image that passes waits for a drain
boundary, one that fails completes the descriptor with its code and the image in force stays (R87, R88). RUN_PASS at a
pass boundary is admitted with the CURRENT epoch and its checked requests (R256, R262, R404), or completes with the
code of its own checks (R403), its STATUS written to its status area (R400, R405); NOT_READY (0x0B03) goes on to
vector 5, Redfish and EVENT as well (R474). Model choices: log entries 5, 44, 77, 81. -/
def Obligations.ImageAndPass : Prop :=
  (∀ q f s, Starts s q 1 f → s.eng.imgLoad = none →
    exec (.loadProgram q) s = .next { startDesc q f s with eng := { s.eng with
      imgLoad := some ⟨q, f.ticket, BitVec.ofNat 64 (dField f.d 0x20 8), dField f.d 0x28 8, none⟩ } }) ∧
  (∀ q f s l, headReady s q = some f → dType f.d = 1 → s.eng.imgLoad = some l → exec (.loadProgram q) s = .next s) ∧
  (∀ bytes s l, s.eng.imgLoad = some l → l.image = none → bytes.length = l.size → imageCheck s l.size bytes = none →
    usable s (parseImage bytes) ≠ [] →
    exec (.imageValidationDone bytes) s = .next { s with eng := { s.eng with
      imgLoad := some { l with image := some (parseImage bytes) } } }) ∧
  (∀ bytes s l code f, s.eng.imgLoad = some l → l.image = none → bytes.length = l.size →
    imageCheck s l.size bytes = some code → code.toNat / 256 ≠ 0x0C → code ≠ 0x0B03 → runningAt s l.q l.ticket = some f →
    (s.host.queues[l.q.val]).st = .active → NoWaitSync s →
    ∃ t, exec (.imageValidationDone bytes) s = .next t ∧
      Completes { s with eng := { s.eng with imgLoad := none } } l.q f code t) ∧
  (∀ bytes s l f, s.eng.imgLoad = some l → l.image = none → bytes.length = l.size → imageCheck s l.size bytes = none →
    usable s (parseImage bytes) = [] → runningAt s l.q l.ticket = some f → (s.host.queues[l.q.val]).st = .active →
    NoWaitSync s →
    let code := noPlaceCode s (parseImage bytes) (placesOf (parseImage bytes))
    ∃ u, exec (.imageValidationDone bytes) s = .next (notReady code u) ∧
      Completes { s with eng := { s.eng with imgLoad := none } } l.q f code u) ∧
  (∀ q table s b f im c, boundaryChanges s = b → atBoundary s = true → headReady s q = some f → headReady b q = some f →
    dType f.d = 2 → descCheck b f.d = none → table.length = 16 * dField f.d 0x2C 4 → passHeld b table = false →
    chosenPass b = some (q, none) → passCode b f.d table = none → b.eng.image = some im → b.wts.current = some c →
    bitOf (dField f.d 0x28 4) 1 = false → passEntries im f.d ≠ [] →
    ∃ t p, exec (.runPass q table) s = .next t ∧ t.eng.pass = some p ∧ p.q = q ∧ p.ticket = f.ticket ∧ p.desc = f.d ∧
      p.epoch = c.number ∧ p.placement = b.eng.placement ∧ p.todo = passEntries im f.d ∧
      p.reqs = (tableEntries table).map (requestOf b c.number) ∧ t.host = (startDesc q f b).host) ∧
  (∀ q table s b f code, boundaryChanges s = b → atBoundary s = true → headReady s q = some f → headReady b q = some f →
    dType f.d = 2 → descCheck b f.d = none → table.length = 16 * dField f.d 0x2C 4 → passHeld b table = false →
    chosenPass b = some (q, none) → passCode b f.d table = some code → NoWaitSync b →
    ∃ u t, exec (.runPass q table) s = .next t ∧ t = notReady code u ∧
      Completes (unrunStatus f code table (startDesc q f (noteBytes q f.ticket false b))) q f code u ∧
      (dField f.d 0x38 8 % 32 = 0 → statusNeed f.d 0 ≤ dField f.d 0x40 4 → b.host.linkUp = true →
        ∃ bs, Out.hostWrite (dField f.d 0x38 8) bs ∈ t.out ∧ bs.take 2 = leBytes 2 code.toNat)) ∧
  (∀ q table s f, headReady s q = some f → dType f.d = 2 → atBoundary s = false → exec (.runPass q table) s = .next s) ∧
  (∀ q table s f, headReady s q = some f → dType f.d = 2 → atBoundary s = true → table.length = 16 * dField f.d 0x2C 4 →
    passHeld (boundaryChanges s) table = true → exec (.runPass q table) s =
      .next (noteBytes q f.ticket (awaitsBytes (boundaryChanges s) table) (boundaryChanges s)))

/-- The queue has become `x` and nothing else of the state has changed. -/
abbrev Sys2Proof.Claims.QueueIs (s : State) (q : QueueId) (x : Queue) (t : State) : Prop :=
  t = { s with host := { s.host with queues := s.host.queues.set q.val x } }

/-- The queue has become `x`, whose ERR is newly set, and vector 7 has been sent, or is pending while it is masked
(R395, R398). -/
def Sys2Proof.Claims.QueueErr (s : State) (q : QueueId) (x : Queue) (t : State) : Prop :=
  let m := s.host.msix
  let masked := m.fmask || m.mask.getLsbD 7
  t = { s with
    host := { s.host with
      queues := s.host.queues.set q.val x,
      msix := { m with pend := if m.enable && masked then m.pend ||| (1#64 <<< 7) else m.pend } },
    out := (if m.enable && !masked then [Out.msix 7] else []) ++ s.out }

/-- Q_CTL, Q_TAIL and ABI_SEL as the host writes them (R394, R396, R397, R398), and the fetch of a descriptor (R398,
R404). Enabling a DISABLED queue with a valid LOG2 and ABI_SEL makes it ACTIVE with HEAD, TAIL and Q_DONE zero, any
other case records QUEUE_CONFIG (0x0207) or ABI_NONE (0x0205). Disabling an ACTIVE queue completes what has not
started with QUEUE_FLUSHED (0x0208), a RUN_PASS with it in its status area; with nothing running it is then DISABLED.
A fetch takes the descriptor at HEAD; one that fails records DESC_FETCH (0x0203). Model choices: log entries 5, 46. -/
def Obligations.QueueRegisters : Prop :=
  (∀ q (v : BitVec 32) s, hostUp s = true → (s.host.queues[q.val]).st = .active →
    v.toNat % 65536 < 2 ^ (s.host.queues[q.val]).log2.toNat →
    ∃ t, exec (.qTailWrite q v) s = .next t ∧ QueueIs { s with host := { s.host with rings := s.host.rings + 1 } } q
      { s.host.queues[q.val] with tail := v.setWidth 16, rung := s.host.rings + 1 } t) ∧
  (∀ q (v : BitVec 32) s, hostUp s = true → (s.host.queues[q.val]).st = .active →
    2 ^ (s.host.queues[q.val]).log2.toNat ≤ v.toNat % 65536 → (s.host.queues[q.val]).err = false →
    ∃ t, exec (.qTailWrite q v) s = .next t ∧
      QueueErr s q { s.host.queues[q.val] with err := true, code := 0x0206 } t) ∧
  (∀ q v s, (s.host.queues[q.val]).st ≠ .active → exec (.qTailWrite q v) s = .next s) ∧
  (∀ q (v : BitVec 32) s, hostUp s = true → v.getLsbD 31 = true → (s.host.queues[q.val]).st = .disabled →
    let x : Queue := { s.host.queues[q.val] with log2 := v.setWidth 5, prio := BitVec.ofNat 2 (v.toNat / 2 ^ 28 % 4) }
    (1 ≤ x.log2.toNat → x.log2.toNat ≤ 16 → s.host.abi ≠ 0 → ∃ t, exec (.queueEnable q v) s = .next t ∧
      QueueIs s q { x with st := .active, enable := true, head := 0, tail := 0, done := 0 } t) ∧
    (x.err = false → (x.log2.toNat < 1 ∨ 16 < x.log2.toNat) → ∃ t, exec (.queueEnable q v) s = .next t ∧
      QueueErr s q { x with err := true, code := 0x0207 } t) ∧
    (x.err = false → 1 ≤ x.log2.toNat → x.log2.toNat ≤ 16 → s.host.abi = 0 → ∃ t, exec (.queueEnable q v) s = .next t ∧
      QueueErr s q { x with err := true, code := 0x0205 } t)) ∧
  (∀ q (v : BitVec 32) s, hostUp s = true → v.getLsbD 31 = true → (s.host.queues[q.val]).st ≠ .disabled →
    ∃ t, exec (.queueEnable q v) s = .next t ∧
      QueueIs s q { s.host.queues[q.val] with prio := BitVec.ofNat 2 (v.toNat / 2 ^ 28 % 4) } t) ∧
  (∀ q (v : BitVec 32) s, hostUp s = true → v.getLsbD 31 = false → (s.host.queues[q.val]).st = .disabled →
    ∃ t, exec (.queueDisable q v) s = .next t ∧
      QueueIs s q { s.host.queues[q.val] with
        log2 := v.setWidth 5, prio := BitVec.ofNat 2 (v.toNat / 2 ^ 28 % 4) } t) ∧
  (∀ q (v : BitVec 32) s x, hostUp s = true → v.getLsbD 31 = false → s.host.queues[q.val] = x → x.st = .active →
    x.errFlush = false → x.resetBy = none → NoWaitSync s →
    (∀ f ∈ x.waiting, dSignal f.d = false ∧ dIrq f.d = false ∧ (dType f.d = 2 → dField f.d 0x40 4 < statusNeed f.d 0) ∧
      forget q f.ticket s.eng = s.eng ∧ ∀ r ∈ x.running, r.ticket ≠ f.ticket) →
    ∃ t, exec (.queueDisable q v) s = .next t ∧
      QueueIs { s with out := ((x.waiting.filter fun f => dCpl f.d).map fun f =>
        Out.hostWrite (dField f.d 0x10 8) (cplRecord q f 0x0208)).reverse ++ s.out } q
        { x with
          st := (if x.running = [] then .disabled else .flushing), enable := false, waiting := [],
          prio := BitVec.ofNat 2 (v.toNat / 2 ^ 28 % 4), done := x.done + BitVec.ofNat 32 x.waiting.length } t) ∧
  (∀ q (v : BitVec 32) s x f, hostUp s = true → v.getLsbD 31 = false → s.host.queues[q.val] = x → x.st = .active →
    x.waiting = [f] → dType f.d = 2 → dField f.d 0x38 8 % 32 = 0 → statusNeed f.d 0 ≤ dField f.d 0x40 4 → NoWaitSync s →
    ∃ t bs, exec (.queueDisable q v) s = .next t ∧ Out.hostWrite (dField f.d 0x38 8) bs ∈ t.out ∧
      bs.take 2 = leBytes 2 0x0208 ∧ (t.host.queues[q.val]).waiting = [] ∧
      (t.host.queues[q.val]).done = x.done + 1) ∧
  (∀ (v : BitVec 32) s, hostUp s = true → (∀ q : QueueId, (s.host.queues[q.val]).st = .disabled) →
    exec (.abiSelWrite v) s = .next { s with host := { s.host with
      abi := if v.toNat / 256 % 256 = 1 ∧ v.toNat % 256 ≤ 4 then v.setWidth 16 else 0 } }) ∧
  (∀ (v : BitVec 32) s (q : QueueId), (s.host.queues[q.val]).st ≠ .disabled → exec (.abiSelWrite v) s = .next s) ∧
  (∀ q d s x, hostUp s = true → s.host.queues[q.val] = x → x.st = .active → shuttleUp s q = true → x.head ≠ x.tail →
    x.waiting.length ≤ 8 →
    ∃ t, exec (.descriptorFetch q (.ok d)) s = .next t ∧ QueueIs s q { x with
      waiting := x.waiting ++ [⟨x.head, x.fetches, d⟩], fetches := x.fetches + 1,
      head := BitVec.ofNat 16 ((x.head.toNat + 1) % 2 ^ x.log2.toNat) } t) ∧
  (∀ q s x, hostUp s = true → s.host.queues[q.val] = x → x.st = .active → shuttleUp s q = true → x.head ≠ x.tail →
    x.waiting.length ≤ 8 → x.err = false → x.running = [] → x.resetBy = none → NoWaitSync s →
    ∃ t, exec (.descriptorFetch q .fail) s = .next t ∧ (t.host.queues[q.val]).st = .disabled ∧
      (t.host.queues[q.val]).enable = false ∧ (t.host.queues[q.val]).err = true ∧
      (t.host.queues[q.val]).code = 0x0203 ∧ (t.host.queues[q.val]).waiting = [] ∧
      ((s.host.mbx[(eventMbx q).val]).full = false → (t.host.mbx[(eventMbx q).val]).full = true ∧
        (t.host.mbx[(eventMbx q).val]).data = BitVec.ofNat 32 (2 ^ 24 + q.val)))

/-! ### Mailboxes and commands (chapters 13 and 16) -/

/-- `t` is `s` with DB_STAT bit `k` set; vector 3 is sent, or is pending while it is masked, where the bit is newly
set and DB_MASK does not mask it (R395, R409). -/
def Sys2Proof.Claims.Belled (k : Nat) (s t : State) : Prop :=
  let h := s.host
  let m := h.msix
  let new := !h.dbStat.getLsbD k && !h.dbMask.getLsbD k && m.enable
  let masked := m.fmask || m.mask.getLsbD 3
  t = { s with
    host := { h with
      dbStat := h.dbStat ||| (1#32 <<< k),
      msix := { m with pend := if new && masked then m.pend ||| (1#64 <<< 3) else m.pend } },
    out := (if new && !masked then [Out.msix 3] else []) ++ s.out }

/-- `t` is `s` with the mailbox `x`. -/
abbrev Sys2Proof.Claims.mbxSet (s : State) (m : MbxId) (x : Mbx) : State := { s with host := { s.host with mbx := s.host.mbx.set m.val x } }

/-- The receiver has taken the word of a host-sends mailbox: with its return code under MBX_MODE 0, without one under
MBX_MODE 1, and the host's doorbell has rung (R409). -/
def Sys2Proof.Claims.WordTaken (s : State) (m : MbxId) (code : BitVec 16) (t : State) : Prop :=
  let x := s.host.mbx[m.val]
  Belled (m.val % 32)
    (mbxSet s m (if x.mode then { x with full := false } else { x with full := false, ackValid := true, ackCode := code })) t

/-- Mailbox messages (R408 to R411). A word that the host sends rings the receiver's doorbell; one to a FULL mailbox,
or to one whose domain is off, is dropped, MBX_REJ is set, and the first refusal is recorded in MBX_ERR with an
Advisory Non-Fatal Error. The receiver takes a word, the module posts a word for the host, and the host takes it. A
domain that turns off gives every word that waits in it MBX_DOMAIN_OFF (0x0102). Model choices: log entries 5, 49, 87.
-/
def Obligations.Mailboxes : Prop :=
  (∀ m v s, hostUp s = true → hostSends m = true → mbxOff s m = false → (s.host.mbx[m.val]).full = false →
    ∃ t, exec (.mbxDataWrite m v) s = .next t ∧ t = { s with host := t.host } ∧
      t.host = { s.host with mbx := t.host.mbx, loupeDb := t.host.loupeDb, shuttleDb := t.host.shuttleDb } ∧
      t.host.mbx = s.host.mbx.set m.val { s.host.mbx[m.val] with data := v, full := true, ackValid := false } ∧
      t.host.loupeDb = (if m.val < 32 then s.host.loupeDb ||| (1#32 <<< m.val) else s.host.loupeDb) ∧
      ∀ k : Fin 4, t.host.shuttleDb[k.val] =
        if mbxShuttle m = some k then s.host.shuttleDb[k.val] ||| (1#32 <<< (m.val - 32)) else s.host.shuttleDb[k.val]) ∧
  (∀ m v s, hostUp s = true → hostSends m = true → (mbxOff s m = true ∨ (s.host.mbx[m.val]).full = true) →
    exec (.mbxDataWrite m v) s = .next { s with
      host := { s.host with
        mbx := s.host.mbx.set m.val { s.host.mbx[m.val] with rej := true },
        mbxErr := if s.host.mbxErr.getLsbD 31 then s.host.mbxErr
          else BitVec.ofNat 32 (2 ^ 31 + m.val * 65536 + if mbxOff s m then 0x0102 else 0x0101),
        advisoryNf := true },
      out := .advisoryNonFatal :: s.out }) ∧
  (∀ m v s, hostSends m = false → exec (.mbxDataWrite m v) s = .next s) ∧
  (∀ m ack s, hostUp s = true → mbxOff s m = false →
    exec (.mbxDataRead m ack) s = .next { s with out := .readData (leBytes 4 (if ack then
      (if (s.host.mbx[m.val]).ackValid then 2 ^ 31 else 0) + (s.host.mbx[m.val]).ackCode.toNat
      else (s.host.mbx[m.val]).data.toNat)) :: s.out }) ∧
  (∀ m ack s, hostUp s = true → mbxOff s m = true → s.host.mbxErr.getLsbD 31 = false →
    exec (.mbxDataRead m ack) s = .next { s with
      host := { s.host with mbxErr := BitVec.ofNat 32 (2 ^ 31 + m.val * 65536 + 0x0102) },
      out := .completerAbort :: s.out }) ∧
  (∀ m code c s, wordWaits s m = true → wordPending s m = false → takeCode s m code = some c →
    ∃ t, exec (.mailboxTake m code) s = .next t ∧ WordTaken s m c t) ∧
  (∀ m code s, wordPending s m = true → exec (.mailboxTake m code) s = .next s) ∧
  (∀ m v s, hostSends m = false → mbxOff s m = false → (s.host.mbx[m.val]).full = false →
    ∃ t, exec (.mailboxPost m v) s = .next t ∧
      Belled (m.val % 32) (mbxSet s m { s.host.mbx[m.val] with data := v, full := true }) t) ∧
  (∀ m v s, hostSends m = false → (s.host.mbx[m.val]).full = true → exec (.mailboxPost m v) s = .next s) ∧
  (∀ m s, hostUp s = true → hostSends m = false → s.mgmt.eventQ = [] → s.mgmt.result = none →
    exec (.mbxFullClear m) s = .next (mbxSet s m { s.host.mbx[m.val] with full := false })) ∧
  (∀ s c rest, hostUp s = true → s.host.loupeOff = false → s.mgmt.eventQ = c :: rest → s.mgmt.result = none →
    ∃ t, exec (.mbxFullClear 24) s = .next t ∧ t.mgmt.eventQ = rest ∧ t.host.mbx[24] = { s.host.mbx[24] with
      full := true, data := BitVec.ofNat 32 ((if s.mgmt.eventLost then 2 ^ 31 else 0) + c.toNat) }) ∧
  (∀ s rs w, hostUp s = true → s.host.loupeOff = false → s.mgmt.eventQ = [] → s.mgmt.result = some (rs, w) →
    ∃ t, exec (.mbxFullClear 25) s = .next t ∧ t.mgmt.result = none ∧
      t.host.mbx[25] = { s.host.mbx[25] with full := true, data := w }) ∧
  (∀ m s, hostUp s = true → exec (.mbxRejClear m true) s = .next s ∧
    exec (.mbxRejClear m false) s = .next (mbxSet s m { s.host.mbx[m.val] with rej := false })) ∧
  (∀ m s, mbxOff s m = false →
    ∃ t, exec (.mailboxDomainOff m) s = .next t ∧ ∀ k : MbxId, (sameDomain m k = true → mbxOff t k = true) ∧
      t.host.mbx[k.val] = if sameDomain m k && hostSends k && (s.host.mbx[k.val]).full then
        { s.host.mbx[k.val] with full := false, ackValid := true, ackCode := 0x0102 } else s.host.mbx[k.val])

/-- Mailbox `m` holds a command for a shuttle with its argument, and no command is pending at any shuttle. -/
abbrev Sys2Proof.Claims.ShuttleHas (s : State) (m : MbxId) (cmd arg : Nat) : Prop :=
  32 ≤ m.val ∧ wordWaits s m = true ∧ s.host.shuttleCmd = none ∧ s.eng.abortReq = [] ∧ arg < 2 ^ 24 ∧ cmd < 256 ∧
    (s.host.mbx[m.val]).data = BitVec.ofNat 32 (cmd * 2 ^ 24 + arg)

/-- The commands of a shuttle. -/
def Sys2Proof.Claims.shuttleRows : List (MbxId → Instr) := [.ping, .queueReset, .drain, .resume, .abortPass]

/-- COMMAND holds opcode `cmd` with `n` arguments, all of them present, and `tag`; no command runs, and RESULT is
empty (R507, R508). -/
abbrev Sys2Proof.Claims.LoupeHas (s : State) (cmd n tag : Nat) : Prop :=
  loupeUp s = true ∧ (s.host.mbx[0]).full = true ∧ cmd < 256 ∧ n ≤ 15 ∧ tag < 65536 ∧
    (s.host.mbx[0]).data = BitVec.ofNat 32 (cmd * 2 ^ 24 + n * 2 ^ 16 + tag) ∧ s.mgmt.result = none ∧
    (s.host.mbx[25]).full = false ∧ ∀ m : MbxId, 1 ≤ m.val → m.val ≤ n → (s.host.mbx[m.val]).full = true

/-- ARG `i`. -/
def Sys2Proof.Claims.loupeArg (s : State) (i : Nat) : Nat := (s.host.mbx.toList.getD (1 + i) {}).data.toNat

/-- COMMAND and its arguments have been taken, and RESULT holds TAG and the status (R508). -/
def Sys2Proof.Claims.LoupeDone (s : State) (n tag status : Nat) (t : State) : Prop :=
  (∀ m : MbxId, m.val ≤ n → (t.host.mbx[m.val]).full = false) ∧
  t.host.mbx[25] = { s.host.mbx[25] with full := true, data := BitVec.ofNat 32 (tag * 65536 + status) }

/-- The commands of a shuttle (R413, R414): PING, QUEUE_RESET, DRAIN, RESUME and ABORT_PASS; another word is MBX_CMD
(0x0103), and one that finds a command pending MBX_BUSY (0x0104). The commands of Loupe (R508, R509): PING, ATTEST,
GET_CERT, STAGE_CONFIG and LOCATE, each answered in RESULT; too few arguments are MBX_CMD. Model choices: log entries
49, 65, 66. -/
def Obligations.MailboxCommands : Prop :=
  (∀ m s, ShuttleHas s m 1 0 → ∃ t, exec (.ping m) s = .next t ∧ WordTaken s m 0 t) ∧
  (∀ m s (q : QueueId), ShuttleHas s m 2 q.val →
    ((s.host.queues[q.val]).st = .disabled → ∃ t, exec (.queueReset m) s = .next t ∧ WordTaken s m 0 t) ∧
    ((s.host.queues[q.val]).st = .active → (s.host.queues[q.val]).waiting = [] → (s.host.queues[q.val]).running ≠ [] →
      ∃ t, exec (.queueReset m) s = .next t ∧ t.host = { s.host with
        shuttleCmd := some m, queues := s.host.queues.set q.val
          { s.host.queues[q.val] with st := .flushing, enable := false, resetBy := some m } }) ∧
    ((s.host.queues[q.val]).st = .active → (s.host.queues[q.val]).waiting = [] → (s.host.queues[q.val]).running = [] →
      (s.host.queues[q.val]).errFlush = false →
      ∃ t, exec (.queueReset m) s = .next t ∧ WordTaken { s with host := { s.host with
        queues := s.host.queues.set q.val
          { s.host.queues[q.val] with st := .disabled, enable := false, resetBy := none } } } m 0 t)) ∧
  (∀ m s, ShuttleHas s m 3 0 → s.boot.eng = .full → drainOn s = false →
    ∃ t, exec (.drain m) s = .next t ∧ t.boot.eng = .draining ∧ t.host.shuttleCmd = some m ∧ t.host.mbx = s.host.mbx ∧
      t.eng.drains = { s.eng.drains with cmd := true, cmdMbx := some m, reached := false }) ∧
  (∀ m s, ShuttleHas s m 4 0 → s.boot.eng = .draining → s.eng.drains.activation = false → s.eng.drains.power = false →
    drainOn s = true → s.boot.calibrated = false →
    ∃ t, exec (.resume m) s = .next t ∧ drainOn t = false ∧ t.boot.eng = s.boot.leftState ∧
      (t.host.mbx[m.val]).full = false ∧ t.mgmt.panelCount = 0) ∧
  (∀ m s, ShuttleHas s m 5 0 → s.eng.lp = none → s.eng.pass = none →
    ∃ t, exec (.abortPass m) s = .next t ∧ WordTaken s m 0 t) ∧
  (∀ m s lp, ShuttleHas s m 5 0 → s.eng.lp = some lp → lp.started = true →
    ∃ t, exec (.abortPass m) s = .next t ∧ t.eng.abortReq = [m] ∧ t.host = s.host ∧ t.tat.flight =
      sentAll (.shuttle 0) [(.root, packet 10 0 0 0 0xD0 0 0 s.lpass 0x020D)] s.tat.flight) ∧
  (∀ m s p, ShuttleHas s m 5 0 → s.eng.lp = none → s.eng.pass = some p → (p.todo ≠ [] ∨ s.eng.parked ≠ none) →
    passBackward p = false →
    ∃ t, exec (.abortPass m) s = .next t ∧ t.eng.pass = none ∧ (t.host.mbx[m.val]).full = false) ∧
  (∀ r ∈ shuttleRows, ∀ m s cmd arg, ShuttleHas s m cmd arg → (cmd < 1 ∨ 5 < cmd) →
    ∃ t, exec (r m) s = .next t ∧ WordTaken s m 0x0103 t) ∧
  (∀ r ∈ shuttleRows, ∀ m s m', 32 ≤ m.val → wordWaits s m = true → s.eng.abortReq = [] → s.host.shuttleCmd = some m' →
    m' ≠ m → (s.host.mbx[m.val]).data.toNat / 2 ^ 24 ≠ 5 → ∃ t, exec (r m) s = .next t ∧ WordTaken s m 0x0104 t) ∧
  (∀ s n tag, LoupeHas s 1 n tag → ∃ t, exec .loupePing s = .next t ∧ LoupeDone s n tag 0 t) ∧
  (∀ s n tag nonce, LoupeHas s 2 n tag → 11 ≤ n → addrOf (loupeArg s 8) (loupeArg s 9) % 64 = 0 → s.host.linkUp = true →
    nonce = ((List.range 8).flatMap fun i => leBytes 4 (loupeArg s i)) →
    ∃ t, exec .attest s = .next t ∧
      ((report s nonce).length ≤ loupeArg s 10 → LoupeDone s n tag 0 t ∧
        Out.hostWrite (addrOf (loupeArg s 8) (loupeArg s 9)) (report s nonce) ∈ t.out) ∧
      (loupeArg s 10 < (report s nonce).length → LoupeDone s n tag 0x0103 t ∧
        ∀ a bs, Out.hostWrite a bs ∈ t.out → Out.hostWrite a bs ∈ s.out)) ∧
  (∀ s n tag, LoupeHas s 3 n tag → 4 ≤ n → addrOf (loupeArg s 1) (loupeArg s 2) % 64 = 0 → s.host.linkUp = true →
    loupeArg s 0 ≤ 2 →
    ∃ t, exec .getCert s = .next t ∧
      ((certificate (loupeArg s 0)).length ≤ loupeArg s 3 → LoupeDone s n tag 0 t ∧
        Out.hostWrite (addrOf (loupeArg s 1) (loupeArg s 2)) (certificate (loupeArg s 0)) ∈ t.out) ∧
      (loupeArg s 3 < (certificate (loupeArg s 0)).length → LoupeDone s n tag 0x0103 t ∧
        ∀ a bs, Out.hostWrite a bs ∈ t.out → Out.hostWrite a bs ∈ s.out)) ∧
  (∀ s n tag bank k c, LoupeHas s 4 n tag → 3 ≤ n → addrOf (loupeArg s 0) (loupeArg s 1) % 64 = 0 → loupeArg s 2 ≤ 1 →
    bank.length = 4096 → s.boot.bank = some k → s.boot.cart = some c → bankValid bank = true →
    seqNewer (bankSeqOf bank) s.boot.bankSeq = true →
    ∃ t, exec (.stageConfig bank) s = .next t ∧ LoupeDone s n tag 0 t ∧ t.boot.pendBank = some (bankBody bank) ∧
      t.boot.pendMode = (if loupeArg s 2 = 0 then .stage else .wait) ∧ t.boot.livePending = true ∧
      t.boot.cart = some (if k then { c with bank0 := bank } else { c with bank1 := bank })) ∧
  (∀ s n tag bank, LoupeHas s 4 n tag → 3 ≤ n → addrOf (loupeArg s 0) (loupeArg s 1) % 64 = 0 → loupeArg s 2 ≤ 2 →
    bank.length = 4096 → bankValid bank = false → s.boot.cfgErr = false →
    ∃ t, exec (.stageConfig bank) s = .next t ∧ LoupeDone s n tag 0x0B01 t ∧ t.boot.cfgErr = true ∧
      t.boot.cfgCode = 0x0B01) ∧
  (∀ s n tag, LoupeHas s 5 n tag → 1 ≤ n →
    ∃ t, exec .locate s = .next t ∧ LoupeDone s n tag 0 t ∧ t.mgmt.locate = decide (loupeArg s 0 % 2 = 1) ∧
      t.mgmt.tagChassis = s.mgmt.tagChassis + 1) ∧
  (∀ r ∈ [((Instr.attest : Instr), 2, 11), (.getCert, 3, 4), (.stageConfig (List.replicate 4096 0), 4, 3), (.locate, 5, 1)],
    ∀ s n tag, LoupeHas s r.2.1 n tag → n < r.2.2 → ∃ t, exec r.1 s = .next t ∧ LoupeDone s n tag 0x0103 t) ∧
  (∀ r ∈ [(Instr.loupePing : Instr), .attest, .getCert, .stageConfig (List.replicate 4096 0), .locate],
    ∀ s n tag cmd, LoupeHas s cmd n tag → (cmd < 1 ∨ 5 < cmd) → ∃ t, exec r s = .next t ∧ WordTaken s 0 0x0103 t) ∧
  (∀ r ∈ [(Instr.loupePing : Instr), .attest, .getCert, .stageConfig (List.replicate 4096 0), .locate], ∀ s, loupeUp s = true →
    (s.host.mbx[0]).full = true → s.mgmt.result ≠ none → ∃ t, exec r s = .next t ∧ WordTaken s 0 0x0104 t)

/-! ### Registers of the host interface (chapter 13) -/

/-- Counters with access RC: the offset and the count (R264, R332, R363, R446, R475). -/
def Sys2Proof.Claims.countRows : List (BitVec 26 × (State → Word)) :=
  [(0x214, fun s => s.flt.hw), (0x218, fun s => s.flt.reruns), (0x21C, fun s => s.flt.limit), (0x220, fun s => s.flt.shifts),
   (0x224, fun s => s.flt.relocs), (0x11030C, fun s => s.red.retries), (0x110310, fun s => s.red.refused),
   (0x110314, fun s => s.red.nfs), (0x110318, fun s => s.red.twin), (0x11031C, fun s => s.red.stale),
   (0x110414, fun s => s.coll.late), (0x110418, fun s => s.coll.escs), (0x11041C, fun s => s.coll.timeouts),
   (0x110420, fun s => s.coll.stale), (0x400048, fun s => s.pwr.rampEvents), (0x40004C, fun s => s.pwr.throttleEvents),
   (0x400050, fun s => s.pwr.deferrals)]

/-- Some registers with what a read of them returns (R199, R224, R393, R408). -/
def Sys2Proof.Claims.readRows : List (BitVec 26 × (State → Nat)) :=
  [(0x000, fun _ => 0x00462304), (0x010, fun s => s.host.abi.toNat), (0x014, fun s => s.eng.cfg.engineId.toNat),
   (0x204, fun s => s.flt.err.toNat), (0x110000, fun s => s.host.path.err.toNat), (0x110008, fun s => s.host.path.wdrop.toNat),
   (0x201000, fun s => s.host.dbStat.toNat), (0x201004, fun s => s.host.dbMask.toNat),
   (0x201008, fun s => s.host.mbxErr.toNat), (0x3FFFF0, fun s => (objGet s 0xFFFF).count.toNat),
   (0x3FFFF4, fun s => (objGet s 0xFFFF).target.toNat), (0x400, fun _ => 0)]

/-- Some registers, whether they hold bits with access RW1C, and what a write of them does (R264, R386, R393, R408,
R523). -/
def Sys2Proof.Claims.writeRows : List (BitVec 26 × Bool × (State → Word → State)) :=
  [(0x201000, true, fun s v => { s with host := { s.host with dbStat := s.host.dbStat &&& ~~~v } }),
   (0x201004, false, fun s v => { s with host := { s.host with dbMask := v } }),
   (0x201008, true, fun s v => { s with host := { s.host with
     mbxErr := if v.getLsbD 31 then s.host.mbxErr &&& 0x7FFFFFFF else s.host.mbxErr } }),
   (0x110108, true, fun s v => { s with wts := { s.wts with err := if v.getLsbD 31 then s.wts.err &&& 0x7FFFFFFF else s.wts.err } }),
   (0x114, true, fun s v => { s with boot := { s.boot with cfgErr := s.boot.cfgErr && !v.getLsbD 29 } }),
   (0x300, true, fun s v => { s with mgmt := { s.mgmt with secValid := s.mgmt.secValid && !v.getLsbD 31 } }),
   (0x000, false, fun s _ => s), (0x214, false, fun s _ => s), (0x110000 + 0x500, false, fun s _ => s),
   (0x400044, false, fun s _ => s), (0x400, false, fun s _ => s)]

/-- Some registers on a 64-bit boundary, with what they and the next one hold. -/
def Sys2Proof.Claims.wideRows : List (BitVec 26 × (State → Nat) × (State → Nat)) :=
  [(0x201000, (fun s => s.host.dbStat.toNat), fun s => s.host.dbMask.toNat),
   (0x3FFFF0, (fun s => (objGet s 0xFFFF).count.toNat), fun s => (objGet s 0xFFFF).target.toNat)]

/-- The host accesses registers with aligned operations of 32 or 64 bits (R9): a read or write of any other size or
alignment completes with Unsupported Request and is not applied. -/
def Obligations.OddAccessesRefused : Prop :=
  ∀ off size w s, hostUp s = true → (size ≠ 4 ∧ size ≠ 8 ∨ off.toNat % size ≠ 0) →
    exec (.unsupportedAccess off size w) s = .next { s with out := .unsupported :: s.out }

/-- Accesses to registers. A read of a low word latches its high word for the requester (R10); a 64-bit access is made
to a register and the next one (R9), and UNSUPPORTED_ACCESS does nothing for an access that R9 allows; a counter read
is set to what it counted during the read, and an RW1C bit that an event sets in the cycle of a write is not cleared
(R13); the RO fields and the unassigned offset listed ignore writes (R12, R391); VALID written with 1 is cleared with
its COUNT, unless an event coincides (R13, R224, R546). A mask cleared sends what is pending (R395). CXL reset leaves
no queue ACTIVE and clears ABI_SEL and the mailboxes (R390). PERST# on a connector, as LOUPE_TICK finds it, does the
same and holds the link in reset until it ends (R531); that of HOST1 is ignored where CXL_WIDTH is 1 (R532). Model
choices: log entries 5, 47, 50, 51, 52, 80. -/
def Obligations.HostRegisters : Prop :=
  (∀ off size w s, hostUp s = true → (size = 4 ∨ size = 8) → off.toNat % size = 0 →
    exec (.unsupportedAccess off size w) s = .next s) ∧
  (∀ r ∈ readRows, ∀ req s, hostUp s = true → latched s req r.1 = none →
    ∃ t, exec (.lowWordRead req ⟨r.1, false⟩) s = .next t ∧ t.out = .readData (leBytes 4 (r.2 s)) :: s.out ∧
      t = { s with host := { s.host with latch := t.host.latch }, out := t.out }) ∧
  (∀ req off s, hostUp s = true → off.toNat % 4 = 0 → lowWord off.toNat = true → latched s req off = none →
    ∃ t, exec (.lowWordRead req ⟨off, false⟩) s = .next t ∧
      t.out = .readData (leBytes 4 (BitVec.ofNat 32 (regRead s off.toNat)).toNat) :: s.out ∧
      latched t req (off + 4) = some (BitVec.ofNat 32 (regRead s (off + 4).toNat))) ∧
  (∀ req off v s, hostUp s = true → off.toNat % 4 = 0 → lowWord off.toNat = false → rcReg off.toNat = false →
    mailWord off.toNat = false → latched s req off = some v →
    ∃ t, exec (.lowWordRead req ⟨off, false⟩) s = .next t ∧ t.out = .readData (leBytes 4 v.toNat) :: s.out ∧
      latched t req off = none) ∧
  (∀ r ∈ wideRows, ∀ req s, hostUp s = true → latched s req r.1 = none → latched s req (r.1 + 4) = none →
    ∃ t, exec (.lowWordRead req ⟨r.1, true⟩) s = .next t ∧
      t.out = .readData (leBytes 4 (r.2.1 s) ++ leBytes 4 (r.2.2 s)) :: s.out ∧
      t = { s with host := { s.host with latch := t.host.latch }, out := t.out }) ∧
  (∀ req off s, hostUp s = true → off.toNat % 8 = 0 → lowWord off.toNat = true → latched s req off = none →
    ∃ t, exec (.lowWordRead req ⟨off, true⟩) s = .next t ∧
      t.out = .readData (leBytes 4 (BitVec.ofNat 32 (regRead s off.toNat)).toNat ++
        leBytes 4 (BitVec.ofNat 32 (regRead s (off + 4).toNat)).toNat) :: s.out ∧
      latched t req (off + 4) = none) ∧
  (∀ req off s, off.toNat % 8 ≠ 0 → exec (.lowWordRead req ⟨off, true⟩) s = .next s) ∧
  (∀ r ∈ countRows, ∀ req events s, hostUp s = true → latched s req r.1 = none →
    ∃ t, exec (.rcCounterRead req r.1 ⟨events, none⟩) s = .next t ∧
      t.out = .readData (leBytes 4 (r.2 s).toNat) :: s.out ∧ r.2 t = BitVec.ofNat 32 events) ∧
  (∀ req low high s, hostUp s = true → latched s req 0x218 = none → latched s req 0x21C = none →
    ∃ t, exec (.rcCounterRead req 0x218 ⟨low, some high⟩) s = .next t ∧
      t.out = .readData (leBytes 4 s.flt.reruns.toNat ++ leBytes 4 s.flt.limit.toNat) :: s.out ∧
      t.flt = { s.flt with reruns := BitVec.ofNat 32 low, limit := BitVec.ofNat 32 high }) ∧
  (∀ r ∈ writeRows, ∀ v again s, hostUp s = true →
    exec (.registerWrite r.1 ⟨v, again, none⟩) s = .next (r.2.2 s (if r.2.1 then v &&& ~~~again else v))) ∧
  (∀ v again mask other s, hostUp s = true →
    exec (.registerWrite 0x201000 ⟨v, again, some (mask, other)⟩) s = .next { s with host := { s.host with
      dbStat := s.host.dbStat &&& ~~~(v &&& ~~~again), dbMask := mask } }) ∧
  (∀ off v again x s, off.toNat % 8 ≠ 0 → exec (.registerWrite off ⟨v, again, some x⟩) s = .next s) ∧
  (∀ (m : MbxId) v again s, hostUp s = true →
    exec (.registerWrite (BitVec.ofNat 26 (0x20000C + 16 * m.val)) ⟨v, again, none⟩) s =
      .next (mbxSet s m { s.host.mbx[m.val] with mode := v.getLsbD 0 })) ∧
  (∀ (q : QueueId) (v again : BitVec 32) s, hostUp s = true →
    exec (.registerWrite (BitVec.ofNat 26 (0x100000 + 64 * q.val)) ⟨v, again, none⟩) s = .next (if (s.host.queues[q.val]).st = .disabled then
      s.setQueue q { s.host.queues[q.val] with baseLo := BitVec.ofNat 20 (v.toNat / 4096) } else s) ∧
    exec (.registerWrite (BitVec.ofNat 26 (0x100014 + 64 * q.val)) ⟨v, again, none⟩) s =
      .next (s.setQueue q { s.host.queues[q.val] with
        err := (s.host.queues[q.val]).err && !(v &&& ~~~again).getLsbD 29 })) ∧
  (∀ (v : Fin 64) s, hostUp s = true →
    ∃ t, exec (.msixUnmask (some v)) s = .next t ∧ t.host.msix.mask = s.host.msix.mask &&& ~~~(1#64 <<< v.val) ∧
      (s.host.msix.enable = true → s.host.msix.fmask = false → s.host.msix.pend.getLsbD v.val = true →
        Out.msix v.val ∈ t.out ∧ t.host.msix.pend.getLsbD v.val = false)) ∧
  (∀ s, hostUp s = true →
    ∃ t, exec (.msixUnmask none) s = .next t ∧ t.host.msix.enable = true ∧ t.host.msix.fmask = false ∧
      t.host.msix.mask = s.host.msix.mask ∧ ∀ v : Fin 64,
        (s.host.msix.pend.getLsbD v.val = true → s.host.msix.mask.getLsbD v.val = false →
          Out.msix v.val ∈ t.out ∧ t.host.msix.pend.getLsbD v.val = false) ∧
        (s.host.msix.mask.getLsbD v.val = true → t.host.msix.pend.getLsbD v.val = s.host.msix.pend.getLsbD v.val)) ∧
  (∀ s, hostUp s = true →
    ∃ t, exec (.hostPathErrClear false) s = .next t ∧
      t.host.path = { s.host.path with
        err := BitVec.ofNat 32 (s.host.path.err.toNat % 2 ^ 31 / 2 ^ 16 * 2 ^ 16) } ∧
      t = { s with host := { s.host with path := t.host.path } }) ∧
  (∀ s, hostUp s = true →
    ∃ t, exec (.hostPathWdropClear false) s = .next t ∧ t.host.path = { s.host.path with wdrop := 0 } ∧
      t = { s with host := { s.host with path := t.host.path } }) ∧
  (∀ d s, hostUp s = true →
    ∃ t, exec (.pdMeshErrClear d false) s = .next t ∧
      t.dies[d.val] = { s.dies[d.val] with
        meshErr := BitVec.ofNat 32 ((s.dies[d.val]).meshErr.toNat % 2 ^ 31 / 2 ^ 8 * 2 ^ 8) } ∧
      t = { s with dies := t.dies } ∧ ∀ e : DieId, e ≠ d → t.dies[e.val] = s.dies[e.val]) ∧
  (∀ d s, exec (.hostPathErrClear true) s = .next s ∧ exec (.hostPathWdropClear true) s = .next s ∧
    exec (.pdMeshErrClear d true) s = .next s) ∧
  (∀ s, hostUp s = true → exec .focusCtlClear s = .next { s with eng := { s.eng with focusEsc := [] } }) ∧
  (∀ s, dieUp s = true → ∃ t, exec .cxlReset s = .next t ∧ t.host.abi = 0 ∧ t.host.mbx = Vector.replicate 48 {} ∧
    t.host.linkUp = !linkHeld s ∧ ∀ q : QueueId, (t.host.queues[q.val]).st ≠ .active) ∧
  (∀ s, dieUp s = false → exec .cxlReset s = .next s) ∧
  (∀ k s, s.boot.standby = true → feedsSpent s = false → dieUp s = true → linkHeld s = false →
    (k.perst0 = true ∨ k.perst1 = true ∧ s.eng.cfg.cxlWidth ≠ 1) →
    ∃ t, exec (.loupeTick k) s = .next t ∧ t.host.linkUp = false ∧ t.host.abi = 0 ∧
      t.host.mbx = Vector.replicate 48 {} ∧ ∀ q : QueueId, (t.host.queues[q.val]).st ≠ .active) ∧
  (∀ k s, s.boot.standby = true → feedsSpent s = false → dieUp s = true → linkHeld s = true →
    k.perst0 = false → (k.perst1 = false ∨ s.eng.cfg.cxlWidth = 1) →
    ∃ t, exec (.loupeTick k) s = .next t ∧ t.host.linkUp = true ∧ t.host.queues = s.host.queues) ∧
  (∀ k s, s.boot.standby = true → feedsSpent s = false → s.eng.cfg.cxlWidth = 1 → k.perst0 = s.host.perst0 →
    ∃ t, exec (.loupeTick k) s = .next t ∧ t.host.linkUp = s.host.linkUp ∧ t.host.abi = s.host.abi ∧
      t.host.mbx = s.host.mbx ∧ t.host.queues = s.host.queues) ∧
  (∀ s, exec .cxlLinkDown s = .next { s with host := { s.host with linkUp := false } })

/-! ### Power and cooling (chapter 14) -/

/-- The state `t` after a power or thermal code: it is in PT_EVENT and among the latest two Redfish events (R445,
R503). -/
abbrev Sys2Proof.Claims.PowerCoded (code : BitVec 16) (t : State) : Prop :=
  t.pwr.event = code ∧ Event.code code ∈ t.mgmt.log.take 2

/-- `t` is `u` with an event that carries no code, by its name: it leads the log and goes to every subscription and on
the streams that are open (R503). -/
def Sys2Proof.Claims.NamedEvent (name : String) (u t : State) : Prop :=
  t = { u with
    mgmt := { u.mgmt with log := (Event.named name :: u.mgmt.log).take 4096, events := u.mgmt.events + 1 }, out := t.out } ∧
  t.out = (if u.mgmt.streams = 0 then [] else [Out.stream (Event.named name)]) ++
    (u.mgmt.subs.map fun b => Out.push b.id (Event.named name)).reverse ++ u.out

/-- The 1 ms sample: what it reads, and F, C, the duty cap, ballast and fans that follow (R424 to R428, R437); without
Loupe it only counts uptime. The fan duty is a value between 20 % and 100 % that the spec leaves open (free value).
Model choices: log entries 5, 54, 56, 61, 80, 82. -/
def Obligations.PowerSample : Prop :=
  (∀ k s, s.boot.standby = true → feedsSpent s = false → loupeUp s = true →
    ∃ t, exec (.loupeTick k) s = .next t ∧ t.mgmt.uptime = s.mgmt.uptime + 1 ∧ t.pwr.p1 = k.powerA + k.powerB ∧
      t.pwr.last10 = ((k.powerA + k.powerB) :: s.pwr.last10).take 10 ∧
      t.pwr.last60 = ((k.powerA + k.powerB) :: s.pwr.last60).take 60000 ∧ t.pwr.rest = k.rest ∧ t.pwr.inlet = k.inlet ∧
      t.pwr.outlet = k.outlet ∧ t.pwr.sink = k.sink ∧
      (t.pwr.feeds[0]).volt = k.voltA ∧ (t.pwr.feeds[1]).volt = k.voltB ∧ (t.pwr.feeds[0]).power = k.powerA ∧
      (t.pwr.feeds[1]).power = k.powerB ∧
      (let p10 := meanMw t.pwr.last10
       let fresh := t.pwr.thermMw ≠ s.pwr.thermMw ∨ s.pwr.exemptMs ≠ 0
       t.pwr.floorMw = (if fresh then p10 else max p10 (s.pwr.floorMw - 10 * rampDownOf s)) ∧
       t.pwr.rampMw = (if fresh then p10 else min p10 (s.pwr.rampMw + 10 * rampUpOf s)) ∧
       t.pwr.ceilMw ≤ 20000000 ∧ t.pwr.ceilMw ≤ 2000000 * stagesIn s ∧ t.pwr.ceilMw ≤ t.pwr.thermMw ∧
       t.pwr.ceilMw ≤ t.pwr.capMw ∧ (feedsIn s = 1 → t.pwr.ceilMw ≤ 11500000) ∧
       (s.pwr.exemptMs ≤ 1 → t.pwr.ceilMw ≤ t.pwr.rampMw) ∧
       t.eng.duty = if t.pwr.ceilMw < p10 + 200000 then max 1 (s.eng.duty - 1)
         else if p10 + 800000 < t.pwr.ceilMw ∧ s.eng.duty < 16 ∧ busyClusters s ≠ [] then s.eng.duty + 1
         else s.eng.duty) ∧
      ((k.powerA + k.powerB) * 1000 - ballastDrawn s ≤ t.pwr.ceilMw →
        (k.powerA + k.powerB) * 1000 - ballastDrawn s + t.pwr.ballast ≤ t.pwr.ceilMw) ∧
      (fansRunning s < 8 ∨ 1040 < k.sink ∨ 864 < k.outlet → t.pwr.fanDuty = 100) ∧
      t.mgmt.links = BitVec.ofNat 2 ((if k.mgt0 = 1000 then 1 else 0) + if k.mgt1 = 1000 then 2 else 0) ∧ 20 ≤ t.pwr.fanDuty ∧ t.pwr.fanDuty ≤ 100 ∧
      ∀ x, k.tiles = [x] → (t.tiles[x.t.val]).diodes = x.diodes ∧ (t.tiles[x.t.val]).layer0.temp = x.mem0 ∧
        (t.tiles[x.t.val]).layer1.temp = x.mem1 ∧ (t.tiles[x.t.val]).current = x.current) ∧
  (∀ k s, s.boot.standby = true → feedsSpent s = false → loupeUp s = false →
    exec (.loupeTick k) s = .next { takePins k s with
      mgmt := { (takePins k s).mgmt with uptime := (takePins k s).mgmt.uptime + 1 } }) ∧
  (∀ k s, k.perst0 = s.host.perst0 → k.perst1 = s.host.perst1 →
    takePins k s = { s with mgmt := { s.mgmt with links := (takePins k s).mgmt.links } }) ∧
  (∀ k s, s.boot.standby = true → feedsSpent s = true →
    ∃ t, exec (.loupeTick k) s = .next t ∧ t.boot.standby = false ∧ t.mgmt.clock = none) ∧
  (∀ s, s.eng.duty = 1 → 100 ≤ s.pwr.dutyMs → s.pwr.ceilMw < meanMw s.pwr.last10 →
    exec .dutyLastResort s = .next { s with pwr := { s.pwr with lastResort := true } }) ∧
  (∀ s, (s.eng.duty ≠ 1 ∨ s.pwr.dutyMs < 100 ∨ meanMw s.pwr.last10 ≤ s.pwr.ceilMw) → exec .dutyLastResort s = .next s)

/-- Feeds move between LOST, QUALIFYING and IN_SERVICE (R420, R421), stages leave and join (R422), and an eFuse that
opens takes its tile out of service with an abort (R423). The loss of a feed in service, and the departure of a stage,
begin F and the ramp limit anew (R431). With both feeds lost the engine does as at a sled pull (R421). Model choices:
log entries 5, 55, 58, 82, 88. -/
def Obligations.FeedsAndStages : Prop :=
  (∀ (f : FeedId) dV s x, s.pwr.feeds[f.val] = x → 640 ≤ dV → dV ≤ 780 →
    exec (.feedVoltageChange f dV) s = .next { s with pwr := { s.pwr with
      feeds := s.pwr.feeds.set f.val { x with volt := dV, st := if x.st = .lost then .qualifying else x.st } } }) ∧
  (∀ (f : FeedId) dV s x, s.pwr.feeds[f.val] = x → (dV < 640 ∨ 780 < dV) → x.st = .lost →
    exec (.feedVoltageChange f dV) s = .next { s with pwr := { s.pwr with feeds := s.pwr.feeds.set f.val { x with volt := dV } } }) ∧
  (∀ (f g : FeedId) dV s x, s.pwr.feeds[f.val] = x → (dV < 640 ∨ 780 < dV) → x.st ≠ .lost → g ≠ f →
    ∃ t, exec (.feedVoltageChange f dV) s = .next t ∧ t.pwr.feeds[f.val] = { x with volt := dV, st := .lost } ∧
      t.pwr.feeds[g.val] = s.pwr.feeds[g.val] ∧ t.pwr.event = 0x0A01 ∧
      (x.st = .inService → t.pwr.exemptMs = 1000 ∧ t.pwr.floorMw = 0 ∧ t.pwr.rampMw = 20000000) ∧
      ((s.pwr.feeds[g.val]).st ≠ .lost → t.boot = s.boot ∧ PowerCoded 0x0A01 t) ∧
      ((s.pwr.feeds[g.val]).st = .lost → s.boot.standby = true → t.boot.earlyBreak = true)) ∧
  (∀ (f : FeedId) s x, s.pwr.feeds[f.val] = x → x.st = .qualifying →
    ∃ t, exec (.feedQualified f) s = .next t ∧ t.pwr = { s.pwr with
      feeds := s.pwr.feeds.set f.val { x with st := .inService }, floorMw := 0, rampMw := 20000000 }) ∧
  (∀ (f : FeedId) s, (s.pwr.feeds[f.val]).st ≠ .qualifying → exec (.feedQualified f) s = .next s) ∧
  (∀ (k : StageId) s, (s.pwr.stages[k.val]).inService = true →
    ∃ t, exec (.pwrStageFault k) s = .next t ∧ PowerCoded 0x0A02 t ∧ t.pwr.stages = s.pwr.stages.set k.val
        { s.pwr.stages[k.val] with inService := false, fault := true } ∧ t.pwr.floorMw = 0 ∧ t.pwr.rampMw = 20000000 ∧
      (6 ≤ s.boot.phase → stagesIn s ≤ 2 → t.boot.phase = 5 ∧ t.boot.eng = .bringup)) ∧
  (∀ (k : StageId) s, (s.pwr.stages[k.val]).inService = false → exec (.pwrStageFault k) s = .next s) ∧
  (∀ (k : StageId) s, (s.boot.phase < 6 ∨ 3 ≤ stagesIn s) →
    ∃ t, exec (.stageLatchOpen k) s = .next t ∧ t.pwr.stages = s.pwr.stages.set k.val { present := false } ∧
      t.pwr.event = s.pwr.event ∧ t.boot = s.boot) ∧
  (∀ (k : StageId) s,
    let joins := decide (5 ≤ s.boot.phase) && s.mgmt.permit && decide (s.boot.powerDown = 0)
    ∃ t, exec (.stageJoin k) s = .next t ∧ t.pwr = { s.pwr with
      stages := s.pwr.stages.set k.val { present := true, inService := joins } }) ∧
  (∀ r ∈ [(TripCause.overload, Efuse.overload), (.dieTemp, .dieTemp)], ∀ (t : PhysTile) s pt,
    (s.tiles[t.val]).powered = true → (s.tiles[t.val]).opens = [] → servesOf s t = some pt → inService s pt.val = true →
    ∃ u, exec (.efuseTrip t r.1) s = .next u ∧ (u.tiles[t.val]).powered = false ∧ (u.tiles[t.val]).fuse = r.2 ∧
      u.boot.inService.getLsbD pt.val = false ∧ PowerCoded 0x0A05 u ∧ u.tat.flight =
        sentAll (.shuttle 0) [(.root, packet 10 0 0 0 0xD0 0 0 s.lpass 0x0A05)] s.tat.flight) ∧
  (∀ (t : PhysTile) s pt, t.val < 48 → (s.tiles[t.val]).powered = true → servesOf s t = some pt →
    ∃ u, exec (.efuseTrip t .short) s = .next u ∧ (u.tiles[t.val]).powered = false ∧ (u.tiles[t.val]).fuse = .short ∧
      u.boot.inService.getLsbD pt.val = false) ∧
  (∀ c (t : PhysTile) s, (s.tiles[t.val]).powered = false → exec (.efuseTrip t c) s = .next s)

/-- The throttle ladder (R432 to R435): a cluster at zero stress or above goes down a rung, to rungs 4 to 6 after 100
ms, and one below −3 K, or −5 K from rung 4 on, up a rung after 100 ms or 1 s. Fans (R437), COOLING_DEGRADED (R440),
and the limits of the rack managers (R430). A sample trims the duty cap by a step, to 1 at least and 16 at most
(R426), and the last resort is taken after 100 ms at 1 with P10 still above C. Model choices: log entries 5, 56, 57,
80, 82. -/
def Obligations.LadderAndCooling : Prop :=
  (∀ s (ci : ClusterId), inService s (ci.val / 16) = true → diodesLost (s.tiles[(physCi s ci).val]) = false →
    let k := s.cluster ci
    let st := clusterStress s ci
    ∃ t, exec .throttleEvaluation s = .next t ∧
      (0 ≤ st → k.rung < 3 → (t.cluster ci).rung = k.rung + 1) ∧
      (0 ≤ st → 3 ≤ k.rung → k.rung < 6 → 90 ≤ k.hotMs → (t.cluster ci).rung = k.rung + 1) ∧
      (0 ≤ st → 3 ≤ k.rung → (k.hotMs < 90 ∨ 6 ≤ k.rung) → (t.cluster ci).rung = k.rung) ∧
      (layerActs (s.tiles[(physCi s ci).val]) = false →
        (-48 < st → st < 0 → (t.cluster ci).rung = k.rung) ∧
        (st ≤ -48 → 0 < k.rung → k.rung < 4 → 90 ≤ k.coolMs → (t.cluster ci).rung = k.rung - 1) ∧
        (st ≤ -48 → k.rung < 4 → k.coolMs < 90 → (t.cluster ci).rung = k.rung) ∧
        (st ≤ -80 → 4 ≤ k.rung → 990 ≤ k.coolMs → (t.cluster ci).rung = k.rung - 1) ∧
        (4 ≤ k.rung → (k.coolMs < 990 ∨ -80 < st) → st < 0 → (t.cluster ci).rung = k.rung))) ∧
  (∀ k s, s.boot.standby = true → feedsSpent s = false → loupeUp s = true →
    ∃ t, exec (.loupeTick k) s = .next t ∧ t.pwr.p1 = k.powerA + k.powerB ∧ t.mgmt.uptime = s.mgmt.uptime + 1 ∧
      t.pwr.last10 = ((k.powerA + k.powerB) :: s.pwr.last10).take 10 ∧ t.boot = s.boot ∧
      t.eng.duty = (if t.pwr.ceilMw < meanMw t.pwr.last10 + 200000 then max 1 (s.eng.duty - 1)
        else if meanMw t.pwr.last10 + 800000 < t.pwr.ceilMw ∧ s.eng.duty < 16 ∧ busyClusters s ≠ [] then s.eng.duty + 1
        else s.eng.duty)) ∧
  (∀ s, s.eng.duty = 1 → 100 ≤ s.pwr.dutyMs → s.pwr.ceilMw < meanMw s.pwr.last10 →
    ∃ t, exec .dutyLastResort s = .next t ∧ t.pwr.lastResort = true ∧ t.boot = s.boot ∧
      t.eng = s.eng ∧ t.cores = s.cores ∧ t.clusters = s.clusters) ∧
  (∀ s (ci : ClusterId), inService s (ci.val / 16) = true → diodesLost (s.tiles[(physCi s ci).val]) = true →
    ∃ t, exec .throttleEvaluation s = .next t ∧ (t.cluster ci).rung = 3) ∧
  (∀ (n : FanId) s, (s.pwr.fans[n.val]).st = .running →
    ∃ t, exec (.fanFailure n) s = .next t ∧ NamedEvent "FanFailure" { s with
      pwr := { s.pwr with
        fans := s.pwr.fans.set n.val { s.pwr.fans[n.val] with fitted := true, st := .failed }, fanDuty := 100 } } t) ∧
  (∀ (n : FanId) s, (s.pwr.fans[n.val]).st ≠ .running → exec (.fanFailure n) s = .next s) ∧
  (∀ (n : FanId) s, (s.pwr.fans[n.val]).fitted = true →
    ∃ t, exec (.fanLatchOpen n) s = .next t ∧ NamedEvent "FanRemoved" { s with
      pwr := { s.pwr with
        fans := s.pwr.fans.set n.val { s.pwr.fans[n.val] with fitted := false, st := .absent }, fanDuty := 100 } } t) ∧
  (∀ (n : FanId) s, (s.pwr.fans[n.val]).fitted = false →
    exec (.fanLatchOpen n) s = .next s ∧
    ∃ t, exec (.fanInsert n) s = .next t ∧ t.pwr.fans = s.pwr.fans.set n.val
      { s.pwr.fans[n.val] with fitted := true, st := if 2 ≤ s.boot.phase then .running else .absent }) ∧
  (∀ (n : FanId) s, (s.pwr.fans[n.val]).fitted = true → exec (.fanInsert n) s = .next s) ∧
  (∀ s, s.pwr.degraded = false → (10000 ≤ s.pwr.thermMs ∨ fansRunning s < 7) →
    ∃ t, exec .coolingDegraded s = .next t ∧ t.pwr.degraded = true ∧ PowerCoded 0x0A04 t ∧
      t.mgmt.log.head? = some (.named "CoolingDegraded")) ∧
  (∀ s, (s.pwr.degraded = true ∨ coolingCause s = false) → exec .coolingDegraded s = .next s) ∧
  (∀ s, s.pwr.degraded = true → 60000 ≤ s.pwr.freeMs → coolingCause s = false →
    ∃ t, exec .coolingClear s = .next t ∧ NamedEvent "CoolingDegraded: cleared" { s with
      pwr := { s.pwr with degraded := false } } t) ∧
  (∀ s, (s.pwr.degraded = false ∨ s.pwr.freeMs < 60000 ∨ coolingCause s = true) → exec .coolingClear s = .next s) ∧
  (∀ l s, loupeUp s = true → (∀ v, l.rampUp = some v ∨ l.rampDown = some v → 100 ≤ v ∧ v ≤ 20000) →
    (∀ v, l.cap = some v → 2500 ≤ v ∧ v ≤ 20000) →
    exec (.setPowerLimits l) s = .next { s with
      pwr := { s.pwr with
        rampUp := l.rampUp.or s.pwr.rampUp, rampDown := l.rampDown.or s.pwr.rampDown, cap := l.cap.or s.pwr.cap },
      out := .redfish true :: s.out }) ∧
  (∀ l s v, loupeUp s = true → (l.rampUp = some v ∧ (v < 100 ∨ 20000 < v) ∨ l.rampDown = some v ∧ (v < 100 ∨ 20000 < v) ∨
      l.cap = some v ∧ (v < 2500 ∨ 20000 < v)) →
    exec (.setPowerLimits l) s = .next { s with out := .redfish false :: s.out }) ∧
  (∀ s, loupeUp s = true → exec .clearPowerLimits s = .next { s with
    pwr := { s.pwr with rampUp := none, rampDown := none, cap := none }, out := .redfish true :: s.out })

/-! ### Start-up and power-down (chapter 15) -/

/-- Standby power begins a cold start (R448, R449, R514): with a bundle that the ROM boots, Loupe reads the cartridge,
starts the fans at 60 % and waits for permission; with no cartridge it waits at step 3; the ROM boots the other slot
where the bundle in force fails its checks, and with none it stays in recovery. Permission starts the stages, and
waves once the compute set is there (R449, R450, R452); a later grant changes nothing. Model choices: log entries 5,
59, 60, 61, 82, 88. -/
def Obligations.ColdStart : Prop :=
  (∀ s, s.boot.standby = true → exec .standbyPowerApplied s = .next s) ∧
  (∀ s x, s.boot.standby = false → s.boot.fwInForce = some x → romOk s x = true →
    ∃ t, exec .standbyPowerApplied s = .next t ∧ t.boot.standby = true ∧ t.boot.recovery = false ∧
      t.boot.bootCount = (s.boot.bootCount + 1) % 2 ^ 32 ∧ t.boot.fwInForce = some x ∧ t.boot.eng = .bringup ∧
      t.mgmt.permit = false ∧ t.eng.image = none ∧ t.boot.inService = 0 ∧ t.cores = [] ∧
      t.boot.cart = s.boot.cart ∧ (s.boot.cart = none → t.boot.phase = 2) ∧
      (s.boot.cart ≠ none → t.boot.phase = 4 ∧ t.pwr.fanDuty = 60) ∧
      ∀ c n, s.boot.cart = some c → chooseBank c = some n →
        t.boot.bank = some n ∧ t.eng.cfg = bankCfg (bankAt c n) ∧ t.boot.bankSeq = bankSeqOf (bankAt c n)) ∧
  (∀ s x y, s.boot.standby = false → s.boot.fwInForce = some x → romOk s x = false → s.boot.fwOther = some y →
    romOk s y = true →
    ∃ t, exec .standbyPowerApplied s = .next t ∧ t.boot.recovery = false ∧ t.boot.fwInForce = some y ∧
      t.boot.fwOther = some x ∧ t.boot.fwPending = false) ∧
  (∀ s, s.boot.standby = false → (∀ x, s.boot.fwInForce = some x ∨ s.boot.fwOther = some x → romOk s x = false) →
    ∃ t, exec .standbyPowerApplied s = .next t ∧ t.boot.standby = true ∧ t.boot.recovery = true ∧ t.boot.phase = 1 ∧
      t.mgmt.secStat = 0x0C04) ∧
  (∀ m s k, loupeUp s = true → s.mgmt.permit = false → s.boot.phase = 4 → s.boot.bank = some k → s.boot.earlyBreak = false →
    s.boot.powerDown = 0 →
    ∃ t, exec (.grantPermission m) s = .next t ∧ t.mgmt.permit = true ∧ t.mgmt.safe = false ∧ t.boot.eng = .bringup ∧
      t.host.linkUp = (s.host.hostDie && !linkHeld s) ∧ t.pwr.stages = s.pwr.stages.map (fun x => { x with
        inService := x.present && !x.fault }) ∧
      t.boot.phase = if computeSet t then 6 else 5) ∧
  (∀ m s, loupeUp s = true → s.mgmt.permit = false → (s.boot.phase ≠ 4 ∨ s.boot.bank = none ∨ s.boot.earlyBreak = true) →
    exec (.grantPermission m) s = .next { s with
      mgmt := { s.mgmt with permit := true, safe := false }, boot := { s.boot with granted := some (nowMs s) },
      out := .redfish true :: s.out }) ∧
  (∀ m s, loupeUp s = true → s.mgmt.permit = true →
    exec (.grantPermission m) s = .next { s with out := .redfish true :: s.out })

/-- The wave's results name its tiles in order, and no power-down is under way; every test but that of the cores may
fail. -/
abbrev Sys2Proof.Claims.WaveOf (s : State) (r : List TileTest) : Prop :=
  s.boot.phase = 6 ∧ s.boot.powerDown = 0 ∧ s.flt.repairs = [] ∧ s.eng.pass ≠ none ∧ waveOf s = r.map (·.t) ∧
    ∀ x ∈ r, x.failed = [] ∧ (s.tiles[x.t.val]).powered = true

/-- A wave whose tiles all pass has them enter service at the next pass boundary, and the next wave or full
calibration follows (R455, R457, R460); a tile that fails is retired (R456). Full calibration ends start-up (R460).
Power-down drains, has the ports leave, and then powers the waves off in reverse order, each while the floor lies
below the load that remains, until the stages stop (R473); a forced power-off does neither. Redfish drains and resumes
(R467). Model choices: log entries 5, 43, 59, 62. -/
def Obligations.WavesAndPowerDown : Prop :=
  (∀ r s, WaveOf s r → (∀ x ∈ r, x.othersOk = true) →
    ∃ t, exec (.waveComplete r) s = .next t ∧ t.boot.wavesEnded = min 7 (s.boot.wavesEnded + 1) ∧
      t.boot.phase = (if s.boot.wave < 5 then 6 else 7) ∧ t.boot.inService = s.boot.inService ∧
      ∀ x ∈ r, ∀ pt, servesOf s x.t = some pt → t.boot.entering.getLsbD pt.val = true) ∧
  (∀ x s pt, WaveOf s [x] → x.othersOk = false → servesOf s x.t = some pt →
    ∃ t, exec (.waveComplete [x]) s = .next t ∧ (t.tiles[x.t.val]).st = .retired ∧ (t.tiles[x.t.val]).powered = false ∧
      t.boot.failedWave.getLsbD pt.val = true ∧ t.boot.inService.getLsbD pt.val = false ∧
      t.mgmt.log.head? = some (.code 0x0B05)) ∧
  (∀ s, s.boot.phase = 7 → s.boot.powerDown = 0 →
    ∃ t, exec (.calibrationComplete none) s = .next t ∧ t.boot.phase = 8 ∧ t.boot.calibrated = true ∧
      (∀ p : PortId, (t.ports[p.val]).capped = false) ∧
      t.boot.eng = if s.boot.eng = .reduced then (if anyUnserved s then .degraded else .full) else s.boot.eng) ∧
  (∀ s pt, s.boot.phase = 7 → s.boot.powerDown = 0 → tileUnserved s pt = false →
    ∃ t, exec (.calibrationComplete (some pt)) s = .next t ∧ (t.tiles[(physOf s pt).val]).st = .retired) ∧
  (∀ c s, (s.boot.phase ≠ 7 ∨ s.boot.powerDown ≠ 0) → exec (.calibrationComplete c) s = .next s) ∧
  (∀ r ∈ [((.revokePermission 0 : Instr), false), (.revokePermission 1, false), (.powerOff, false), (.coldRestart, true)],
    ∀ s, loupeUp s = true → s.mgmt.permit = true → 5 ≤ s.boot.phase → s.boot.powerDown = 0 →
    ∃ t, exec r.1 s = .next t ∧ t.mgmt.permit = false ∧ t.boot.powerDown = 8 ∧ t.boot.eng = .bringup ∧
      t.eng.drains.power = true ∧ t.boot.restart = (s.boot.restart || r.2) ∧ t.out.head? = some (.redfish true)) ∧
  (∀ s, loupeUp s = true → s.boot.phase < 5 →
    exec .powerOff s = .next { s with mgmt := { s.mgmt with permit := false }, out := .redfish true :: s.out } ∧
    ∃ t, exec .coldRestart s = .next t ∧ t.boot.bootCount = (s.boot.bootCount + 1) % 2 ^ 32 ∧ t.boot.standby = true) ∧
  (∀ m s, loupeUp s = true → s.mgmt.permit = false →
    exec (.revokePermission m) s = .next { s with out := .redfish true :: s.out }) ∧
  (∀ s, loupeUp s = true → 5 ≤ s.boot.phase →
    ∃ t, exec .forceOff s = .next t ∧ t.boot.phase = 4 ∧ t.mgmt.permit = false ∧ t.mgmt.safe = true ∧
      (∀ k : StageId, (t.pwr.stages[k.val]).inService = false) ∧ t.pwr.event = 0x0A06 ∧ t.cores = [] ∧
      t.boot.inService = 0 ∧ t.boot.eng = .bringup) ∧
  (∀ s, (s.boot.powerDown = 0 ∨ s.boot.powerDown = 8 ∧ drainReached s = false) → exec .powerDownWave s = .next s) ∧
  (∀ s, s.boot.powerDown = 8 → drainReached s = true →
    ∃ t, exec .powerDownWave s = .next t ∧ t.boot.powerDown = 7 ∧
      ∀ p : PortId, (t.ports[p.val]).st ≠ .active ∧ (t.ports[p.val]).st ≠ .retrain) ∧
  (∀ s, 1 ≤ s.boot.powerDown → s.boot.powerDown ≤ 7 →
    ((∃ p : PortId, (s.ports[p.val]).st = .leaving) ∨
      s.pwr.p1 * 1000 - wavePower s (s.boot.powerDown - 2) ≤ effFloor s) →
    exec .powerDownWave s = .next s) ∧
  (∀ s (pt : TileId), 3 ≤ s.boot.powerDown → s.boot.powerDown ≤ 7 → pt.val / 8 = s.boot.powerDown - 2 →
    tileUnserved s pt = false → portsLeft s = true → waveMayGo s (s.boot.powerDown - 2) = true →
    ∃ t, exec .powerDownWave s = .next t ∧ t.boot.powerDown = s.boot.powerDown - 1 ∧
      t.boot.inService.getLsbD pt.val = false ∧ (t.tiles[(physOf s pt).val]).powered = false) ∧
  (∀ s, 1 ≤ s.boot.powerDown → s.boot.powerDown ≤ 2 → portsLeft s = true → waveMayGo s 0 = true → s.boot.restart = true →
    ∃ t, exec .powerDownWave s = .next t ∧ t.boot.bootCount = (s.boot.bootCount + 1) % 2 ^ 32 ∧ t.boot.powerDown = 0 ∧
      ∀ k : StageId, (t.pwr.stages[k.val]).inService = false) ∧
  (∀ s, 1 ≤ s.boot.powerDown → s.boot.powerDown ≤ 2 → portsLeft s = true → waveMayGo s 0 = true → s.boot.restart = false →
    ∃ t, exec .powerDownWave s = .next t ∧ t.boot.phase = min 4 s.boot.phase ∧ t.mgmt.safe = true ∧ t.boot.powerDown = 0 ∧
      ∀ k : StageId, (t.pwr.stages[k.val]).inService = false) ∧
  (∀ s, loupeUp s = true → s.boot.eng = .full → drainOn s = false →
    ∃ t, exec .drainAction s = .next t ∧ t.boot.eng = .draining ∧ t.boot.leftState = .full ∧
      t.eng.drains = { s.eng.drains with redfish := true, reached := false }) ∧
  (∀ s, loupeUp s = true → s.boot.eng = .draining → s.eng.drains.activation = false → s.eng.drains.power = false →
    drainOn s = true → s.boot.calibrated = false →
    ∃ t, exec .resumeAction s = .next t ∧ drainOn t = false ∧ t.boot.eng = s.boot.leftState)

/-- A bank is staged into the bank that is not in force (R465) and a bundle into the store (R469, R515); an activation
restarts the components in turn and raises the counters at its end (R470, R513), or returns to the bundle in force
before (R471). Model choices: log entries 5, 40, 61, 82. -/
def Obligations.StagingAndActivation : Prop :=
  (∀ s bank mode k c, loupeUp s = true → s.boot.bank = some k → s.boot.cart = some c → bankValid bank = true →
    seqNewer (bankSeqOf bank) s.boot.bankSeq = true →
    ∃ t, exec (.stageConfiguration bank mode) s = .next t ∧ t.boot.pendBank = some (bankBody bank) ∧
      t.boot.pendMode = mode ∧ t.boot.livePending = true ∧
      t.boot.coldPending = coldDiffers (bankCfg bank) s.eng.cfg ∧
      t.boot.cart = some (if k then { c with bank0 := bank } else { c with bank1 := bank }) ∧
      t.eng.drains.activation = (s.eng.drains.activation || mode == .drain) ∧ t.out.head? = some (.redfish true)) ∧
  (∀ s bank mode, loupeUp s = true → (bankValid bank = false ∨ s.boot.cart = none) → s.boot.cfgErr = false →
    ∃ t, exec (.stageConfiguration bank mode) s = .next t ∧ t.boot.cfgErr = true ∧ t.boot.cfgCode = 0x0B01 ∧
      t.mgmt.log.head? = some (.code 0x0B01) ∧ t.out.head? = some (.redfish false)) ∧
  (∀ s b, loupeUp s = true → s.boot.act.step = 0 →
    ∃ t, exec (.firmwareStage b) s = .next t ∧ t.boot.fwInForce = s.boot.fwInForce ∧
      match sigCheck s 3 (bundleBody b) (bundleBlock b) with
      | some code => t.boot.fwOther = s.boot.fwOther ∧ t.boot.fwCode = code ∧ t.mgmt.log.head? = some (.code code) ∧
          t.out.head? = some (.redfish false)
      | none => t.boot.fwOther = some ⟨b, sigSec (bundleBlock b), false, false⟩ ∧ t.boot.fwPending = true ∧
          t.out.head? = some (.redfish true)) ∧
  (∀ s, loupeUp s = true → s.boot.fwPending = true →
    exec (.firmwareActivate .wait) s = .next { s with
      boot := { s.boot with fwMode := .wait }, out := .redfish true :: s.out } ∧
    ∃ t, exec (.firmwareActivate .drain) s = .next t ∧ t.boot.fwMode = .drain ∧ t.eng.drains.activation = true) ∧
  (∀ s mode, loupeUp s = true → s.boot.fwPending = false →
    exec (.firmwareActivate mode) s = .next { s with out := .redfish false :: s.out }) ∧
  (∀ s, s.boot.act.step = 1 →
    ∃ t, exec (.fwComponentReady .core) s = .next t ∧ t.boot.act.step = 2 ∧ t.boot.act.shuttles = 0 ∧
      t.host.shuttleOff.getLsbD 0 = true) ∧
  (∀ s, s.boot.act.step = 2 → s.boot.act.shuttles < 3 →
    ∃ t, exec (.fwComponentReady .shuttle) s = .next t ∧ t.boot.act.step = 2 ∧
      t.boot.act.shuttles = s.boot.act.shuttles + 1 ∧ t.host.shuttleOff = 1#4 <<< (s.boot.act.shuttles + 1)) ∧
  (∀ s, s.boot.act.step = 2 → 3 ≤ s.boot.act.shuttles →
    ∃ t, exec (.fwComponentReady .shuttle) s = .next t ∧ t.boot.act.step = 3 ∧ t.host.shuttleOff = 0 ∧
      t.host.loupeOff = true ∧ t.pwr.fanDuty = 100 ∧ t.mgmt.clients = 0 ∧ t.mgmt.streams = 0 ∧ t.mgmt.presence = false) ∧
  (∀ s x, s.boot.act.step = 3 → s.boot.fwOther = some x →
    ∃ t, exec (.fwComponentReady .loupe) s = .next t ∧ t.boot.act = {} ∧ t.host.loupeOff = false ∧
      t.boot.fwInForce = some x ∧ t.boot.fwOther = s.boot.fwInForce ∧ t.boot.fwPending = false ∧
      t.mgmt.ctrLoupe = max s.mgmt.ctrLoupe x.secVersion ∧ t.mgmt.ctrShuttle = max s.mgmt.ctrShuttle x.secVersion ∧
      t.mgmt.ctrCore = max s.mgmt.ctrCore x.secVersion ∧ t.mgmt.ctrObject = s.mgmt.ctrObject) ∧
  (∀ s k, s.boot.act.step = fwStep k →
    ∃ t, exec (.fwActivate k) s = .next t ∧ t.boot.act = {} ∧ t.boot.fwInForce = s.boot.fwInForce ∧
      t.boot.fwOther = s.boot.fwOther.map (fun x => { x with failed := true }) ∧ t.boot.fwPending = false ∧
      t.boot.fwErr = true ∧ t.boot.fwComp = BitVec.ofNat 2 (fwStep k) ∧ t.boot.fwCode = 0x0B04 ∧
      t.mgmt.ctrLoupe = s.mgmt.ctrLoupe ∧ t.mgmt.log.head? = some (.code 0x0B04)) ∧
  (∀ s k, s.boot.act.step ≠ fwStep k → exec (.fwComponentReady k) s = .next s ∧ exec (.fwActivate k) s = .next s)

/-- A tested shift or relocation may be applied, and a failed one gives way to the next remedy (R482, R484, R489); the
image share of a moved tile is read again (R485); an eFuse that may be closed again has its tile tested (R487). Model
choices: log entries 5, 42, 62, 63, 82, 83. -/
def Obligations.RepairsInProgress : Prop :=
  (∀ s ci (row : Fin 8) pcol, s.flt.repairs = [.shift ci row.val pcol false] →
    exec (.darningColumnTestDone ci row true) s = .next { s with
      flt := { s.flt with repairs := [.shift ci row.val pcol true] } }) ∧
  (∀ s ci (row : Fin 8) pcol, s.flt.repairs = [.shift ci row.val pcol false] →
    ∃ t, exec (.darningColumnTestDone ci row false) s = .next t ∧ (rowOf s ci row.val ≠ 14 → t.flt.repairs =
      match darnFor s (tileOfCi ci) with
      | some d => [.relocate (tileOfCi ci) d false]
      | none => [.loseRow ci row.val ((1#9 <<< pcol) ||| (1#9 <<< 8))])) ∧
  (∀ s d r pt, s.flt.repairs = [.relocate pt d false] → r.t = darnTile d → r.failed = [] → r.othersOk = true →
    (s.tiles[r.t.val]).powered = true →
    ∃ t, exec (.darningTileTestDone d r) s = .next t ∧ t.flt.repairs = [.relocate pt d true] ∧
      (t.tiles[r.t.val]).test = 2 ∧ t.boot = s.boot) ∧
  (∀ s (d : Fin 2) r pt, s.flt.repairs = [.relocate pt d false] → r.t = darnTile d → r.othersOk = false →
    ((pt, none) ∈ s.flt.cases ∨ ∀ x ∈ s.flt.cases, x.1 ≠ pt) →
    ∃ t, exec (.darningTileTestDone d r) s = .next t ∧ (t.tiles[r.t.val]).st = .retired ∧ t.flt.repairs =
      if s.flt.darn[(1 - d).val] = 0 then [.relocate pt (1 - d) false] else [.loseTile pt]) ∧
  (∀ s (d : Fin 2) r pt ci row cols, s.flt.repairs = [.relocate pt d false] → r.t = darnTile d → r.othersOk = false →
    r.failed = [] → s.flt.cases = [(pt, some (ci, row, cols))] → rowOf s ci row ≠ 14 → s.flt.darn[(1 - d).val] ≠ 0 →
    ∃ t, exec (.darningTileTestDone d r) s = .next t ∧ (t.tiles[r.t.val]).st = .retired ∧
      t.flt.repairs = [.loseRow ci row cols] ∧ t.boot.inService = s.boot.inService) ∧
  (∀ s ci row ok d r, s.flt.repairs = [] →
    exec (.darningColumnTestDone ci row ok) s = .next s ∧ exec (.darningTileTestDone d r) s = .next s) ∧
  (∀ s (pt : TileId) bytes im, s.flt.rereads = [pt] → s.eng.image = some im →
    ∃ t, exec (.imageRereadDone pt bytes) s = .next t ∧ t.flt.rereads = [] ∧
      if rereadOk im bytes then t.eng = s.eng ∧ ∀ ci ∈ tileClusters pt, (t.cluster ci).consts = tabGet [] (constsOf bytes) ci.val
      else t.eng.imageLost = true) ∧
  (∀ s (pt : TileId) bytes, pt ∉ s.flt.rereads → exec (.imageRereadDone pt bytes) s = .next s) ∧
  (∀ s (t : PhysTile) pt x, s.tiles[t.val] = x → servesOf s t = some pt → s.flt.repairs = [] → tileUnserved s pt = false →
    x.st ≠ .retired → (x.fuse = .overload ∨ (x.fuse = .dieTemp ∨ x.fuse = .memTemp) ∧ tileCool t x = true) →
    ∃ u, exec (.efuseRestoreTimer t) s = .next u ∧ u.flt.repairs = [.restore pt false] ∧
      u.tiles[t.val] = { x with powered := true, fuse := .closed, st := .selftest, test := 1 } ∧ u.boot = s.boot) ∧
  (∀ s (t : PhysTile), ((s.tiles[t.val]).fuse = .short ∨ (s.tiles[t.val]).fuse = .retired ∨ (s.tiles[t.val]).fuse = .closed) →
    exec (.efuseRestoreTimer t) s = .next s) ∧
  (∀ s (t : PhysTile) pt, servesOf s t = some pt → (tilePending s pt = true ∨ (s.tiles[t.val]).st = .retired) →
    exec (.efuseRestoreTimer t) s = .next s)

/-- The loss of Loupe, of the host die and of the sled (R491, R492, R527, R530), and the cartridge (R464, R494, R540).
Model choices: log entries 5, 59, 63, 64, 67, 82, 88. -/
def Obligations.LossAndRecovery : Prop :=
  (∀ s, s.boot.standby = true → 2 ≤ s.boot.phase →
    exec .loupeWatchdogExpire s = .next { s with
      boot := { s.boot with loupeDown := true }, pwr := { s.pwr with fanDuty := 100 } }) ∧
  (∀ s x, s.boot.loupeDown = true → s.boot.recovery = false → s.boot.fwInForce = some x → romOk s x = true →
    s.boot.recordDue = false → s.mgmt.eventQ = [] →
    exec .loupeRestartDone s = .next (measure { s with
      boot := { s.boot with loupeDown := false },
      mgmt := { s.mgmt with presence := false, result := none, clients := 0, streams := 0 } })) ∧
  (∀ s x, s.boot.loupeDown = true → s.boot.recovery = false → s.boot.fwInForce = some x → romOk s x = true →
    s.boot.recordDue = true →
    ∃ t, exec .loupeRestartDone s = .next t ∧ t.boot.loupeDown = false ∧ t.boot.recordDue = false ∧
      t.flt.recSeq = s.flt.recSeq + 1) ∧
  (∀ s x y, s.boot.loupeDown = true → s.boot.recovery = false → s.boot.fwInForce = some x → romOk s x = false →
    s.boot.fwOther = some y → romOk s y = true →
    ∃ t, exec .loupeRestartDone s = .next t ∧ t.boot.loupeDown = false ∧ t.boot.fwInForce = some y ∧
      t.boot.bootCount = s.boot.bootCount) ∧
  (∀ s, s.boot.loupeDown = true → s.boot.recovery = false →
    (∀ x, s.boot.fwInForce = some x ∨ s.boot.fwOther = some x → romOk s x = false) →
    ∃ t, exec .loupeRestartDone s = .next t ∧ t.boot.loupeDown = true ∧ t.boot.recovery = true ∧
      t.mgmt.log.head? = some (.code 0x0C04)) ∧
  (∀ s, s.boot.loupeDown = true → 5 ≤ s.boot.phase →
    ∃ t, exec .loupeRecoveryTimeout s = .next t ∧ t.boot.phase = 4 ∧ t.boot.inService = 0 ∧ t.boot.eng = .bringup ∧
      t.mgmt.safe = true ∧ t.mgmt.permit = false ∧ t.cores = [] ∧
      ∀ k : StageId, (t.pwr.stages[k.val]).inService = false) ∧
  (∀ s, s.boot.loupeDown = false → exec .loupeRestartDone s = .next s ∧ exec .loupeRecoveryTimeout s = .next s) ∧
  (∀ s, s.host.hostDie = true →
    ∃ t, exec .hostDieLost s = .next t ∧ t.host.hostDie = false ∧ t.host.linkUp = false ∧ t.eng.pass = none ∧
      t.eng.lp = none ∧ t.boot.eng = .bringup ∧ t.eng.parked = none ∧
      Event.named "HostDieLost" ∈ t.mgmt.log) ∧
  (∀ s, s.host.hostDie = false → exec .hostDieLost s = .next s) ∧
  (∀ r ∈ [(Instr.earlyBreak : Instr), .seatedOpen], ∀ s, s.boot.standby = true → s.boot.earlyBreak = false →
    ∃ t, exec r s = .next t ∧ t.boot.earlyBreak = true ∧ Out.rack 0x0A06 ∈ t.out ∧
      t.boot.leverOpen = true ∧ (∀ p : PortId, (t.ports[p.val]).st ≠ .active) ∧
      ∀ lp, s.eng.lp = some lp → lp.started = true →
        ∃ f ∈ t.tat.flight, f.dst = .root ∧ f.sender = .shuttle 0 ∧ f.bits = packet 10 0 0 0 0xD0 0 0 s.lpass 0x0804) ∧
  (∀ r ∈ [(Instr.earlyBreak : Instr), .seatedOpen], ∀ s, (s.boot.standby = false ∨ s.boot.earlyBreak = true) →
    exec r s = .next { s with boot := { s.boot with leverOpen := true } }) ∧
  (∀ s, exec .seatedOpen s = exec .earlyBreak s) ∧
  (∀ s, s.boot.earlyBreak = true →
    ∃ t, exec .earlyBreakPowerOff s = .next t ∧ t.boot.phase = min 4 s.boot.phase ∧ t.boot.inService = 0 ∧
      t.boot.earlyBreak = true ∧ t.cores = [] ∧ t.clusters = [] ∧ (∀ k : StageId, (t.pwr.stages[k.val]).inService = false) ∧
      ∀ p : PhysTile, (t.tiles[p.val]).powered = false) ∧
  (∀ s, s.boot.earlyBreak = false → exec .earlyBreakPowerOff s = .next s) ∧
  (∀ s ms, s.boot.leverOpen = true → s.boot.standby = false → s.boot.phase ≤ 4 → 1000 ≤ ms →
    exec (.leverClose ms true) s = .next { s with boot := { s.boot with leverOpen := false } }) ∧
  (∀ s ms, s.boot.leverOpen = true → s.boot.standby = true → s.boot.phase ≤ 4 → 1000 ≤ ms →
    ∃ t, exec (.leverClose ms true) s = .next t ∧ t.boot.earlyBreak = false ∧ t.boot.standby = true ∧
      t.boot.bootCount = (s.boot.bootCount + 1) % 2 ^ 32) ∧
  (∀ s ms seated, (s.boot.leverOpen = false ∨ 4 < s.boot.phase ∨ ms < 1000 ∨ seated = false) →
    exec (.leverClose ms seated) s = .next s) ∧
  (∀ s c, s.boot.cart = none → loupeUp s = false →
    (s.boot.standby = false ∨ s.boot.phase ≠ 2 ∨ s.boot.recovery = true ∨ s.boot.loupeDown = true) →
    exec (.cartridgeInsert c) s = .next { s with
      boot := { s.boot with
        cart := some c, pendBank := none, livePending := false, coldPending := false,
        recordDue := s.boot.standby && decide (4 ≤ s.boot.phase) },
      mgmt := takeStore c.store s.mgmt }) ∧
  (∀ s c, s.boot.cart = none → s.boot.standby = true → s.boot.phase = 2 → s.boot.recovery = false → s.boot.loupeDown = false →
    ∃ t, exec (.cartridgeInsert c) s = .next t ∧ t.boot.cart = some c ∧ t.boot.phase = 4 ∧ t.pwr.fanDuty = 60 ∧
      t.mgmt.cas = c.store.cas ∧ ∀ n, chooseBank c = some n → t.boot.bank = some n ∧ t.eng.cfg = bankCfg (bankAt c n)) ∧
  (∀ s c, s.boot.cart = none → loupeUp s = true → recordOf c.rec0 = none → s.flt.repairs = [] →
    ∃ t r, exec (.cartridgeInsert c) s = .next t ∧ t.boot.cart = some { c with rec0 := putRecord r c.rec0 } ∧
      r.seq = s.flt.recSeq + 1 ∧ r.tileMap = s.flt.tileMap.toList ∧ t.eng.cfg = s.eng.cfg ∧ t.mgmt = s.mgmt) ∧
  (∀ s c d, s.boot.cart = some d → exec (.cartridgeInsert c) s = .next s) ∧
  (∀ s d, s.boot.cart = some d →
    exec .cartridgeRemove s = .next { s with
      boot := { s.boot with cart := none, pendBank := none, livePending := false, coldPending := false },
      mgmt := if loupeUp s then s.mgmt else takeStore {} s.mgmt })

/-- SEATED opens while the early-break switch is still closed: Loupe acts as at an early break (R530), and the stop
begins. -/
def Obligations.SeatedOpenActsAsEarlyBreak : Prop :=
  ∀ s, s.boot.leverOpen = false → s.boot.earlyBreak = false →
    exec .seatedOpen s = exec .earlyBreak s ∧
    (s.boot.standby = true → ∃ t, exec .seatedOpen s = .next t ∧ t.boot.earlyBreak = true ∧ Out.rack 0x0A06 ∈ t.out)

/-- The buttons (R506, R517), keys and the object counter (R510, R513, R517), and Loupe's clients, clock, certificates
and subscriptions (R500, R503). A PATCH with an If-Match that is not the ETag changes nothing (R501). Model choices:
log entries 5, 65, 67, 89. -/
def Obligations.PanelKeysAndClients : Prop :=
  (∀ s, loupeUp s = true → s.mgmt.panelLock = false →
    exec .locatePress s = .next { s with
      mgmt := { s.mgmt with locate := !s.mgmt.locate, tagChassis := s.mgmt.tagChassis + 1 } }) ∧
  (∀ s, s.mgmt.panelLock = true → exec .locatePress s = .next s ∧ exec .drainPress s = .next s ∧ exec .drainHold s = .next s) ∧
  (∀ s, loupeUp s = true → exec .locateHold s = .next { s with mgmt := { s.mgmt with presence := true } }) ∧
  (∀ s, exec .presenceWindowExpire s = .next { s with mgmt := { s.mgmt with presence := false } }) ∧
  (∀ s, loupeUp s = true → s.mgmt.panelLock = false → s.boot.eng = .full → drainOn s = false →
    ∃ t, exec .drainPress s = .next t ∧ t.boot.eng = .draining ∧
      t.eng.drains = { s.eng.drains with button := true, reached := false }) ∧
  (∀ s, s.eng.drains.button = true → exec .drainPress s = .next s) ∧
  (∀ s, loupeUp s = true → s.mgmt.panelLock = false → drainOn s = true → s.eng.drains.reached = true →
    5 ≤ s.boot.phase → s.boot.powerDown = 0 →
    ∃ t, exec .drainHold s = .next t ∧ t.mgmt.permit = false ∧ t.boot.powerDown = 8 ∧ t.boot.eng = .bringup) ∧
  (∀ s, s.eng.drains.reached = false → exec .drainHold s = .next s) ∧
  (∀ s (slot : BitVec 8) pub (h : slot.toNat < 8), loupeUp s = true → s.mgmt.presence = true →
    s.mgmt.keyIds[slot.toNat] = [] → pub.length = 96 →
    exec (.enrollKey slot pub) s = .next { s with
      mgmt := { s.mgmt with keyIds := s.mgmt.keyIds.set slot.toNat (sha384 pub) }, out := .redfish true :: s.out }) ∧
  (∀ s (slot : BitVec 8) pub, loupeUp s = true →
    (8 ≤ slot.toNat ∨ s.mgmt.presence = false ∨ s.mgmt.keyIds.toList.getD slot.toNat [] ≠ []) →
    exec (.enrollKey slot pub) s = .next { s with out := .redfish false :: s.out }) ∧
  (∀ s (slot : BitVec 8), loupeUp s = true → slot.toNat < 8 → s.mgmt.keyIds.toList.getD slot.toNat [] ≠ [] →
    exec (.revokeKey slot) s = .next { s with
      mgmt := { s.mgmt with opRevoked := s.mgmt.opRevoked ||| (1#8 <<< slot.toNat) }, out := .redfish true :: s.out }) ∧
  (∀ s (slot : BitVec 8), loupeUp s = true → 0xF0 ≤ slot.toNat → slot.toNat < 0xF4 →
    exec (.revokeKey slot) s = .next { s with
      mgmt := { s.mgmt with fwRevoked := s.mgmt.fwRevoked ||| (1#4 <<< (slot.toNat - 0xF0)) },
      out := .redfish true :: s.out }) ∧
  (∀ s v, loupeUp s = true → s.mgmt.ctrObject ≤ v → v ≤ 128 →
    exec (.raiseObjectVersion v) s = .next { s with
      mgmt := { s.mgmt with ctrObject := v }, out := .redfish true :: s.out }) ∧
  (∀ s v, loupeUp s = true → (v < s.mgmt.ctrObject ∨ 128 < v) →
    exec (.raiseObjectVersion v) s = .next { s with out := .redfish false :: s.out }) ∧
  (∀ s v, loupeUp s = true →
    exec (.setPanelLock v) s = .next (if v.ifMatch = none ∨ v.ifMatch = some s.mgmt.tagChassis then
      { s with
        mgmt := { s.mgmt with
          panelLock := v.v.panelLock.getD s.mgmt.panelLock, locate := v.v.locate.getD s.mgmt.locate,
          tagChassis := s.mgmt.tagChassis + 1 },
        out := .redfish true :: s.out }
      else { s with out := .redfish false :: s.out })) ∧
  (∀ s time, loupeUp s = true → (time.ifMatch = none ∨ time.ifMatch = some s.mgmt.tagManager) →
    ∃ t, exec (.clockSet time) s = .next t ∧ clockNow t = some time.v ∧ t.mgmt.lastTime = time.v ∧
      t.mgmt.tagManager = s.mgmt.tagManager + 1 ∧ t.out = .redfish true :: s.out) ∧
  (∀ s time, loupeUp s = true → time.ifMatch ≠ none → time.ifMatch ≠ some s.mgmt.tagManager →
    exec (.clockSet time) s = .next { s with out := .redfish false :: s.out }) ∧
  (∀ s c, loupeUp s = true → c.asks = [] →
    exec (.clientConnect c) s = .next (if offerOk s c = true ∧ chainOk s c.chain = true then
      { s with mgmt := { s.mgmt with clients := s.mgmt.clients + 1 }, out := .redfish true :: s.out }
      else { s with out := .redfish false :: s.out })) ∧
  (∀ s c, loupeUp s = true → (s.mgmt.links.getLsbD c.port.val = false ∨ c.service ≠ .redfish ∨ c.tls13 = false ∨
      c.chain = [] ∨ ∃ x ∈ c.chain, x.id ∈ s.mgmt.crl ∨ x.signatureOk = false ∨ certValid s x = false) →
    exec (.clientConnect c) s = .next { s with out := .redfish false :: s.out }) ∧
  (∀ s c, loupeUp s = true → offerOk s c = true → chainOk s c.chain = true →
    ∃ t, exec (.clientConnect c) s = .next t ∧ t.mgmt.clients = s.mgmt.clients + 1 ∧
      (c.asks = [.csr] → t.mgmt.csrs = s.mgmt.csrs + 1 ∧ t.out = .csr s.mgmt.csrs :: .redfish true :: s.out) ∧
      (c.asks = [.stream] → t.mgmt.streams = s.mgmt.streams + 1 ∧ t.out = .redfish true :: s.out) ∧
      (c.asks = [.chain] → t.out = .chain [certificate 0, certificate 1, certificate 2] :: .redfish true :: s.out) ∧
      (∀ nonce, c.asks = [.report nonce] → t.out = .report (report s nonce) :: .redfish true :: s.out) ∧
      ∀ r, c.asks = [.read r] → r ≠ .logService → t.out = .resource r (resourceFields s r) :: .redfish true :: s.out) ∧
  (∀ s c, loupeUp s = true →
    ∃ t, exec (.installCertificate (.ca c)) s = .next t ∧ ∀ x, x ∈ t.mgmt.cas ↔ x ∈ s.mgmt.cas ∨ x = c) ∧
  (∀ s ids, loupeUp s = true →
    ∃ t, exec (.installCertificate (.crl ids)) s = .next t ∧ ∀ x, x ∈ t.mgmt.crl ↔ x ∈ s.mgmt.crl ∨ x ∈ ids) ∧
  (∀ s id csr, loupeUp s = true →
    exec (.installCertificate (.tlsServer id csr)) s = .next (if csr < s.mgmt.csrs then { s with
      mgmt := { s.mgmt with tlsCert := some id }, out := .redfish true :: s.out }
      else { s with out := .redfish false :: s.out })) ∧
  (∀ s sub, loupeUp s = true → (∀ x ∈ s.mgmt.subs, x.id ≠ sub) →
    exec (.eventSubscription true sub) s = .next (if s.mgmt.subs.length < 16 then { s with
      mgmt := { s.mgmt with subs := s.mgmt.subs ++ [{ id := sub }] }, out := .redfish true :: s.out }
      else { s with out := .redfish false :: s.out })) ∧
  (∀ s sub, loupeUp s = true → (∃ x ∈ s.mgmt.subs, x.id = sub) →
    exec (.eventSubscription false sub) s = .next { s with
      mgmt := { s.mgmt with subs := s.mgmt.subs.filter fun x => x.id != sub }, out := .redfish true :: s.out }) ∧
  (∀ s p ok x e n tries, loupeUp s = true → (s.mgmt.subs.find? fun y => y.id == p.sub) = some x →
    s.mgmt.log[p.back]? = some e → n = s.mgmt.events - 1 - p.back →
    (x.failed = [] ∧ tries = 0 ∨ x.failed = [(n, e, tries)]) → tries < 3 →
    ∃ t, exec (.eventPushRetry p ok) s = .next t ∧ t.out = .push p.sub e :: s.out ∧
      t.mgmt.subs = s.mgmt.subs.map fun y => if y.id = p.sub then
        { y with failed := [(n, e, if ok then 3 else tries + 1)] } else y) ∧
  (∀ s p ok x e, loupeUp s = true → (s.mgmt.subs.find? fun y => y.id == p.sub) = some x →
    s.mgmt.log[p.back]? = some e → x.failed = [(s.mgmt.events - 1 - p.back, e, 3)] →
    exec (.eventPushRetry p ok) s = .next s)

/-! ### The whole machine -/

/-- The bounds that the rules give some registers and stores: the rack managers' limits (R430), the fan duty (R437),
the duty cap (R426), the ladder's rungs (R434), the samples of P10 (R424), the event log and the subscriptions (R503),
the codes that wait for EVENT (R508), and the counters of OTP with the SEC_VERSION of both firmware slots (R512,
R513). -/
def Sys2Proof.Claims.Bounds (s : State) : Prop :=
  (∀ v, s.pwr.rampUp = some v ∨ s.pwr.rampDown = some v → 100 ≤ v ∧ v ≤ 20000) ∧
  (∀ v, s.pwr.cap = some v → 2500 ≤ v ∧ v ≤ 20000) ∧ s.pwr.fanDuty ≤ 100 ∧ s.pwr.last10.length ≤ 10 ∧
  1 ≤ s.eng.duty ∧ s.eng.duty ≤ 16 ∧ (∀ ci, (s.cluster ci).rung ≤ 6) ∧
  s.mgmt.log.length ≤ 4096 ∧ s.mgmt.subs.length ≤ 16 ∧ s.mgmt.eventQ.length ≤ 64 ∧
  s.mgmt.ctrObject ≤ 128 ∧ s.mgmt.ctrLoupe ≤ 128 ∧ s.mgmt.ctrShuttle ≤ 128 ∧ s.mgmt.ctrCore ≤ 128 ∧
  (∀ x, s.boot.fwInForce = some x → x.secVersion ≤ 128) ∧ (∀ x, s.boot.fwOther = some x → x.secVersion ≤ 128)

/-- The stacked memory of every cluster is in its canonical form: cells rise, and none holds what an unlisted address
reads (log entry 12). -/
def Sys2Proof.Claims.MemoryForm (s : State) : Prop := ∀ ci, Memory.wf (s.cluster ci).mem = true

/-- The state of reset (R393, R396, R408, R447, R496): no command waits, the registers listed have their reset values,
every queue is DISABLED with its registers zero, every mailbox is empty with MBX_MODE 1, the host's doorbells are
masked, the slot rate has code 3, the duty cap is 16, no tile is in service and no image is loaded. It has the bounds
and the memory form that steps keep. Model choices: log entry 3. -/
def Obligations.ResetState : Prop :=
  State.reset.pending = [] ∧ Bounds State.reset ∧ MemoryForm State.reset ∧
  (∀ r ∈ [(0x010, 0), (0x018, 0), (0x110000, 0), (0x110008, 0), (0x201000, 0), (0x201004, 0xFFFFFFFF), (0x201008, 0),
    (0x400044, 0), (0x400048, 0), (0x40004C, 0), (0x400050, 0), (0x204, 0x3F000000), (0x300, 0)], regRead State.reset r.1 = r.2) ∧
  (∀ q : QueueId, (State.reset.host.queues[q.val]).st = .disabled ∧
    ∀ o ∈ [0x00, 0x04, 0x08, 0x0C, 0x10, 0x14, 0x18], regRead State.reset (0x100000 + 64 * q.val + o) = 0) ∧
  (∀ m : MbxId, State.reset.host.mbx[m.val] = {} ∧ (State.reset.host.mbx[m.val]).mode = true ∧
    regRead State.reset (0x20000C + 16 * m.val) = 1) ∧
  State.reset.eng.slotRate = 3 ∧ State.reset.eng.nextRate = 3 ∧ State.reset.eng.duty = 16 ∧ State.reset.boot.eng = .bringup ∧
  State.reset.boot.inService = 0 ∧ State.reset.eng.image = none

/-- Every step keeps the bounds. -/
def Obligations.StepKeepsBounds : Prop := ∀ s t, Bounds s → step s = .next t → Bounds t

/-- Every step keeps the canonical form of the stacked memory of every cluster (log entry 12). -/
def Obligations.StepKeepsMemoryForm : Prop := ∀ s t, MemoryForm s → step s = .next t → MemoryForm t

/-- No step lowers a counter of OTP, and no step undoes a revocation of a key (R513, R517). -/
def Obligations.StepNeverLowersOtp : Prop :=
  ∀ s t, step s = .next t →
    s.mgmt.ctrLoupe ≤ t.mgmt.ctrLoupe ∧ s.mgmt.ctrShuttle ≤ t.mgmt.ctrShuttle ∧ s.mgmt.ctrCore ≤ t.mgmt.ctrCore ∧
    s.mgmt.ctrObject ≤ t.mgmt.ctrObject ∧
    (∀ n : Fin 8, s.mgmt.opRevoked.getLsbD n.val = true → t.mgmt.opRevoked.getLsbD n.val = true) ∧
    ∀ n : Fin 4, s.mgmt.fwRevoked.getLsbD n.val = true → t.mgmt.fwRevoked.getLsbD n.val = true
end

