-- ==== Sys2Proof/Laws/Tab.lean ====
section
/-! SUPPORT. The laws of the sparse tables: what a look-up finds after a write. -/

namespace Sys2Proof.Machine

/-- The key written is found with its value. -/
@[simp] theorem tabFind_set_same {α : Type} (t : Tab α) (k : Nat) (v : α) : tabFind (tabSet t k v) k = some v := by
  induction t with
  | nil => simp [tabSet, tabFind]
  | cons e t ih =>
    obtain ⟨k', v'⟩ := e
    unfold tabSet
    split
    · simp [tabFind]
    · split
      · simp [tabFind]
      · rename_i h _
        simp [tabFind, h, ih]

/-- Every other key is found as before. -/
theorem tabFind_set_other {α : Type} (t : Tab α) {k j : Nat} (v : α) (h : j ≠ k) :
    tabFind (tabSet t k v) j = tabFind t j := by
  induction t with
  | nil => simp [tabSet, tabFind, h]
  | cons e t ih =>
    obtain ⟨k', v'⟩ := e
    unfold tabSet
    split
    · rename_i hk
      subst hk
      simp [tabFind, h]
    · split
      · simp [tabFind, h]
      · by_cases hj : j = k'
        · simp [tabFind, hj]
        · simp [tabFind, hj, ih]

@[simp] theorem tabGet_set_same {α : Type} (d : α) (t : Tab α) (k : Nat) (v : α) : tabGet d (tabSet t k v) k = v := by
  simp [tabGet]

theorem tabGet_set_other {α : Type} (d : α) (t : Tab α) {k j : Nat} (v : α) (h : j ≠ k) :
    tabGet d (tabSet t k v) j = tabGet d t j := by
  simp [tabGet, tabFind_set_other t v h]

/-- A key that has been erased is not found. -/
@[simp] theorem tabFind_erase_same {α : Type} (t : Tab α) (k : Nat) : tabFind (tabErase t k) k = none := by
  induction t with
  | nil => rfl
  | cons e t ih =>
    obtain ⟨k', v'⟩ := e
    by_cases h : k' = k
    · subst h
      simpa [tabErase] using ih
    · have h' : k ≠ k' := fun x => h x.symm
      simp only [tabErase, List.filter_cons, bne_iff_ne, ne_eq, h, not_false_eq_true, if_true]
      simpa [tabFind, h', tabErase] using ih

end Sys2Proof.Machine
end

