-- ==== Sys2Proof/Laws/State.lean ====
section
/-! SUPPORT. The laws of State: what each update leaves, field by field, and what the accessors read after it. -/

namespace Sys2Proof.Machine

open Sys2Proof

@[simp] theorem State.setCore_pending (s : State) (c : CoreId) (k : Core) : (s.setCore c k).pending = s.pending := rfl
@[simp] theorem State.setCore_free (s : State) (c : CoreId) (k : Core) : (s.setCore c k).free = s.free := rfl
@[simp] theorem State.setCore_out (s : State) (c : CoreId) (k : Core) : (s.setCore c k).out = s.out := rfl
@[simp] theorem State.setCore_clusters (s : State) (c : CoreId) (k : Core) : (s.setCore c k).clusters = s.clusters := rfl
@[simp] theorem State.setCore_tat (s : State) (c : CoreId) (k : Core) : (s.setCore c k).tat = s.tat := rfl
@[simp] theorem State.setCore_dies (s : State) (c : CoreId) (k : Core) : (s.setCore c k).dies = s.dies := rfl
@[simp] theorem State.setCore_ports (s : State) (c : CoreId) (k : Core) : (s.setCore c k).ports = s.ports := rfl
@[simp] theorem State.setCore_eng (s : State) (c : CoreId) (k : Core) : (s.setCore c k).eng = s.eng := rfl
@[simp] theorem State.setCore_wts (s : State) (c : CoreId) (k : Core) : (s.setCore c k).wts = s.wts := rfl
@[simp] theorem State.setCore_red (s : State) (c : CoreId) (k : Core) : (s.setCore c k).red = s.red := rfl
@[simp] theorem State.setCore_coll (s : State) (c : CoreId) (k : Core) : (s.setCore c k).coll = s.coll := rfl
@[simp] theorem State.setCore_host (s : State) (c : CoreId) (k : Core) : (s.setCore c k).host = s.host := rfl
@[simp] theorem State.setCore_pwr (s : State) (c : CoreId) (k : Core) : (s.setCore c k).pwr = s.pwr := rfl
@[simp] theorem State.setCore_tiles (s : State) (c : CoreId) (k : Core) : (s.setCore c k).tiles = s.tiles := rfl
@[simp] theorem State.setCore_flt (s : State) (c : CoreId) (k : Core) : (s.setCore c k).flt = s.flt := rfl
@[simp] theorem State.setCore_boot (s : State) (c : CoreId) (k : Core) : (s.setCore c k).boot = s.boot := rfl
@[simp] theorem State.setCore_mgmt (s : State) (c : CoreId) (k : Core) : (s.setCore c k).mgmt = s.mgmt := rfl
@[simp] theorem State.setCore_wires (s : State) (c : CoreId) (k : Core) : (s.setCore c k).wires = s.wires := rfl

@[simp] theorem State.setCluster_pending (s : State) (ci : ClusterId) (k : Cluster) : (s.setCluster ci k).pending = s.pending := rfl
@[simp] theorem State.setCluster_free (s : State) (ci : ClusterId) (k : Cluster) : (s.setCluster ci k).free = s.free := rfl
@[simp] theorem State.setCluster_out (s : State) (ci : ClusterId) (k : Cluster) : (s.setCluster ci k).out = s.out := rfl
@[simp] theorem State.setCluster_cores (s : State) (ci : ClusterId) (k : Cluster) : (s.setCluster ci k).cores = s.cores := rfl
@[simp] theorem State.setCluster_tat (s : State) (ci : ClusterId) (k : Cluster) : (s.setCluster ci k).tat = s.tat := rfl
@[simp] theorem State.setCluster_dies (s : State) (ci : ClusterId) (k : Cluster) : (s.setCluster ci k).dies = s.dies := rfl
@[simp] theorem State.setCluster_ports (s : State) (ci : ClusterId) (k : Cluster) : (s.setCluster ci k).ports = s.ports := rfl
@[simp] theorem State.setCluster_eng (s : State) (ci : ClusterId) (k : Cluster) : (s.setCluster ci k).eng = s.eng := rfl
@[simp] theorem State.setCluster_wts (s : State) (ci : ClusterId) (k : Cluster) : (s.setCluster ci k).wts = s.wts := rfl
@[simp] theorem State.setCluster_red (s : State) (ci : ClusterId) (k : Cluster) : (s.setCluster ci k).red = s.red := rfl
@[simp] theorem State.setCluster_coll (s : State) (ci : ClusterId) (k : Cluster) : (s.setCluster ci k).coll = s.coll := rfl
@[simp] theorem State.setCluster_host (s : State) (ci : ClusterId) (k : Cluster) : (s.setCluster ci k).host = s.host := rfl
@[simp] theorem State.setCluster_pwr (s : State) (ci : ClusterId) (k : Cluster) : (s.setCluster ci k).pwr = s.pwr := rfl
@[simp] theorem State.setCluster_tiles (s : State) (ci : ClusterId) (k : Cluster) : (s.setCluster ci k).tiles = s.tiles := rfl
@[simp] theorem State.setCluster_flt (s : State) (ci : ClusterId) (k : Cluster) : (s.setCluster ci k).flt = s.flt := rfl
@[simp] theorem State.setCluster_boot (s : State) (ci : ClusterId) (k : Cluster) : (s.setCluster ci k).boot = s.boot := rfl
@[simp] theorem State.setCluster_mgmt (s : State) (ci : ClusterId) (k : Cluster) : (s.setCluster ci k).mgmt = s.mgmt := rfl
@[simp] theorem State.setCluster_wires (s : State) (ci : ClusterId) (k : Cluster) : (s.setCluster ci k).wires = s.wires := rfl

@[simp] theorem State.setTileHub_pending (s : State) (pt : TileId) (h : Hub) : (s.setTileHub pt h).pending = s.pending := rfl
@[simp] theorem State.setTileHub_free (s : State) (pt : TileId) (h : Hub) : (s.setTileHub pt h).free = s.free := rfl
@[simp] theorem State.setTileHub_out (s : State) (pt : TileId) (h : Hub) : (s.setTileHub pt h).out = s.out := rfl
@[simp] theorem State.setTileHub_cores (s : State) (pt : TileId) (h : Hub) : (s.setTileHub pt h).cores = s.cores := rfl
@[simp] theorem State.setTileHub_clusters (s : State) (pt : TileId) (h : Hub) : (s.setTileHub pt h).clusters = s.clusters := rfl
@[simp] theorem State.setTileHub_dies (s : State) (pt : TileId) (h : Hub) : (s.setTileHub pt h).dies = s.dies := rfl
@[simp] theorem State.setTileHub_ports (s : State) (pt : TileId) (h : Hub) : (s.setTileHub pt h).ports = s.ports := rfl
@[simp] theorem State.setTileHub_eng (s : State) (pt : TileId) (h : Hub) : (s.setTileHub pt h).eng = s.eng := rfl
@[simp] theorem State.setTileHub_wts (s : State) (pt : TileId) (h : Hub) : (s.setTileHub pt h).wts = s.wts := rfl
@[simp] theorem State.setTileHub_red (s : State) (pt : TileId) (h : Hub) : (s.setTileHub pt h).red = s.red := rfl
@[simp] theorem State.setTileHub_coll (s : State) (pt : TileId) (h : Hub) : (s.setTileHub pt h).coll = s.coll := rfl
@[simp] theorem State.setTileHub_host (s : State) (pt : TileId) (h : Hub) : (s.setTileHub pt h).host = s.host := rfl
@[simp] theorem State.setTileHub_pwr (s : State) (pt : TileId) (h : Hub) : (s.setTileHub pt h).pwr = s.pwr := rfl
@[simp] theorem State.setTileHub_tiles (s : State) (pt : TileId) (h : Hub) : (s.setTileHub pt h).tiles = s.tiles := rfl
@[simp] theorem State.setTileHub_flt (s : State) (pt : TileId) (h : Hub) : (s.setTileHub pt h).flt = s.flt := rfl
@[simp] theorem State.setTileHub_boot (s : State) (pt : TileId) (h : Hub) : (s.setTileHub pt h).boot = s.boot := rfl
@[simp] theorem State.setTileHub_mgmt (s : State) (pt : TileId) (h : Hub) : (s.setTileHub pt h).mgmt = s.mgmt := rfl
@[simp] theorem State.setTileHub_wires (s : State) (pt : TileId) (h : Hub) : (s.setTileHub pt h).wires = s.wires := rfl

@[simp] theorem State.setDie_pending (s : State) (d : DieId) (x : Die) : (s.setDie d x).pending = s.pending := rfl
@[simp] theorem State.setDie_free (s : State) (d : DieId) (x : Die) : (s.setDie d x).free = s.free := rfl
@[simp] theorem State.setDie_out (s : State) (d : DieId) (x : Die) : (s.setDie d x).out = s.out := rfl
@[simp] theorem State.setDie_cores (s : State) (d : DieId) (x : Die) : (s.setDie d x).cores = s.cores := rfl
@[simp] theorem State.setDie_clusters (s : State) (d : DieId) (x : Die) : (s.setDie d x).clusters = s.clusters := rfl
@[simp] theorem State.setDie_tat (s : State) (d : DieId) (x : Die) : (s.setDie d x).tat = s.tat := rfl
@[simp] theorem State.setDie_ports (s : State) (d : DieId) (x : Die) : (s.setDie d x).ports = s.ports := rfl
@[simp] theorem State.setDie_eng (s : State) (d : DieId) (x : Die) : (s.setDie d x).eng = s.eng := rfl
@[simp] theorem State.setDie_wts (s : State) (d : DieId) (x : Die) : (s.setDie d x).wts = s.wts := rfl
@[simp] theorem State.setDie_red (s : State) (d : DieId) (x : Die) : (s.setDie d x).red = s.red := rfl
@[simp] theorem State.setDie_coll (s : State) (d : DieId) (x : Die) : (s.setDie d x).coll = s.coll := rfl
@[simp] theorem State.setDie_host (s : State) (d : DieId) (x : Die) : (s.setDie d x).host = s.host := rfl
@[simp] theorem State.setDie_pwr (s : State) (d : DieId) (x : Die) : (s.setDie d x).pwr = s.pwr := rfl
@[simp] theorem State.setDie_tiles (s : State) (d : DieId) (x : Die) : (s.setDie d x).tiles = s.tiles := rfl
@[simp] theorem State.setDie_flt (s : State) (d : DieId) (x : Die) : (s.setDie d x).flt = s.flt := rfl
@[simp] theorem State.setDie_boot (s : State) (d : DieId) (x : Die) : (s.setDie d x).boot = s.boot := rfl
@[simp] theorem State.setDie_mgmt (s : State) (d : DieId) (x : Die) : (s.setDie d x).mgmt = s.mgmt := rfl
@[simp] theorem State.setDie_wires (s : State) (d : DieId) (x : Die) : (s.setDie d x).wires = s.wires := rfl

@[simp] theorem State.setPort_pending (s : State) (p : PortId) (x : Port) : (s.setPort p x).pending = s.pending := rfl
@[simp] theorem State.setPort_free (s : State) (p : PortId) (x : Port) : (s.setPort p x).free = s.free := rfl
@[simp] theorem State.setPort_out (s : State) (p : PortId) (x : Port) : (s.setPort p x).out = s.out := rfl
@[simp] theorem State.setPort_cores (s : State) (p : PortId) (x : Port) : (s.setPort p x).cores = s.cores := rfl
@[simp] theorem State.setPort_clusters (s : State) (p : PortId) (x : Port) : (s.setPort p x).clusters = s.clusters := rfl
@[simp] theorem State.setPort_tat (s : State) (p : PortId) (x : Port) : (s.setPort p x).tat = s.tat := rfl
@[simp] theorem State.setPort_dies (s : State) (p : PortId) (x : Port) : (s.setPort p x).dies = s.dies := rfl
@[simp] theorem State.setPort_eng (s : State) (p : PortId) (x : Port) : (s.setPort p x).eng = s.eng := rfl
@[simp] theorem State.setPort_wts (s : State) (p : PortId) (x : Port) : (s.setPort p x).wts = s.wts := rfl
@[simp] theorem State.setPort_red (s : State) (p : PortId) (x : Port) : (s.setPort p x).red = s.red := rfl
@[simp] theorem State.setPort_coll (s : State) (p : PortId) (x : Port) : (s.setPort p x).coll = s.coll := rfl
@[simp] theorem State.setPort_host (s : State) (p : PortId) (x : Port) : (s.setPort p x).host = s.host := rfl
@[simp] theorem State.setPort_pwr (s : State) (p : PortId) (x : Port) : (s.setPort p x).pwr = s.pwr := rfl
@[simp] theorem State.setPort_tiles (s : State) (p : PortId) (x : Port) : (s.setPort p x).tiles = s.tiles := rfl
@[simp] theorem State.setPort_flt (s : State) (p : PortId) (x : Port) : (s.setPort p x).flt = s.flt := rfl
@[simp] theorem State.setPort_boot (s : State) (p : PortId) (x : Port) : (s.setPort p x).boot = s.boot := rfl
@[simp] theorem State.setPort_mgmt (s : State) (p : PortId) (x : Port) : (s.setPort p x).mgmt = s.mgmt := rfl
@[simp] theorem State.setPort_wires (s : State) (p : PortId) (x : Port) : (s.setPort p x).wires = s.wires := rfl

@[simp] theorem State.setQueue_pending (s : State) (q : QueueId) (x : Queue) : (s.setQueue q x).pending = s.pending := rfl
@[simp] theorem State.setQueue_free (s : State) (q : QueueId) (x : Queue) : (s.setQueue q x).free = s.free := rfl
@[simp] theorem State.setQueue_out (s : State) (q : QueueId) (x : Queue) : (s.setQueue q x).out = s.out := rfl
@[simp] theorem State.setQueue_cores (s : State) (q : QueueId) (x : Queue) : (s.setQueue q x).cores = s.cores := rfl
@[simp] theorem State.setQueue_clusters (s : State) (q : QueueId) (x : Queue) : (s.setQueue q x).clusters = s.clusters := rfl
@[simp] theorem State.setQueue_tat (s : State) (q : QueueId) (x : Queue) : (s.setQueue q x).tat = s.tat := rfl
@[simp] theorem State.setQueue_dies (s : State) (q : QueueId) (x : Queue) : (s.setQueue q x).dies = s.dies := rfl
@[simp] theorem State.setQueue_ports (s : State) (q : QueueId) (x : Queue) : (s.setQueue q x).ports = s.ports := rfl
@[simp] theorem State.setQueue_eng (s : State) (q : QueueId) (x : Queue) : (s.setQueue q x).eng = s.eng := rfl
@[simp] theorem State.setQueue_wts (s : State) (q : QueueId) (x : Queue) : (s.setQueue q x).wts = s.wts := rfl
@[simp] theorem State.setQueue_red (s : State) (q : QueueId) (x : Queue) : (s.setQueue q x).red = s.red := rfl
@[simp] theorem State.setQueue_coll (s : State) (q : QueueId) (x : Queue) : (s.setQueue q x).coll = s.coll := rfl
@[simp] theorem State.setQueue_pwr (s : State) (q : QueueId) (x : Queue) : (s.setQueue q x).pwr = s.pwr := rfl
@[simp] theorem State.setQueue_tiles (s : State) (q : QueueId) (x : Queue) : (s.setQueue q x).tiles = s.tiles := rfl
@[simp] theorem State.setQueue_flt (s : State) (q : QueueId) (x : Queue) : (s.setQueue q x).flt = s.flt := rfl
@[simp] theorem State.setQueue_boot (s : State) (q : QueueId) (x : Queue) : (s.setQueue q x).boot = s.boot := rfl
@[simp] theorem State.setQueue_mgmt (s : State) (q : QueueId) (x : Queue) : (s.setQueue q x).mgmt = s.mgmt := rfl
@[simp] theorem State.setQueue_wires (s : State) (q : QueueId) (x : Queue) : (s.setQueue q x).wires = s.wires := rfl

@[simp] theorem State.setMbx_pending (s : State) (m : MbxId) (x : Mbx) : (s.setMbx m x).pending = s.pending := rfl
@[simp] theorem State.setMbx_free (s : State) (m : MbxId) (x : Mbx) : (s.setMbx m x).free = s.free := rfl
@[simp] theorem State.setMbx_out (s : State) (m : MbxId) (x : Mbx) : (s.setMbx m x).out = s.out := rfl
@[simp] theorem State.setMbx_cores (s : State) (m : MbxId) (x : Mbx) : (s.setMbx m x).cores = s.cores := rfl
@[simp] theorem State.setMbx_clusters (s : State) (m : MbxId) (x : Mbx) : (s.setMbx m x).clusters = s.clusters := rfl
@[simp] theorem State.setMbx_tat (s : State) (m : MbxId) (x : Mbx) : (s.setMbx m x).tat = s.tat := rfl
@[simp] theorem State.setMbx_dies (s : State) (m : MbxId) (x : Mbx) : (s.setMbx m x).dies = s.dies := rfl
@[simp] theorem State.setMbx_ports (s : State) (m : MbxId) (x : Mbx) : (s.setMbx m x).ports = s.ports := rfl
@[simp] theorem State.setMbx_eng (s : State) (m : MbxId) (x : Mbx) : (s.setMbx m x).eng = s.eng := rfl
@[simp] theorem State.setMbx_wts (s : State) (m : MbxId) (x : Mbx) : (s.setMbx m x).wts = s.wts := rfl
@[simp] theorem State.setMbx_red (s : State) (m : MbxId) (x : Mbx) : (s.setMbx m x).red = s.red := rfl
@[simp] theorem State.setMbx_coll (s : State) (m : MbxId) (x : Mbx) : (s.setMbx m x).coll = s.coll := rfl
@[simp] theorem State.setMbx_pwr (s : State) (m : MbxId) (x : Mbx) : (s.setMbx m x).pwr = s.pwr := rfl
@[simp] theorem State.setMbx_tiles (s : State) (m : MbxId) (x : Mbx) : (s.setMbx m x).tiles = s.tiles := rfl
@[simp] theorem State.setMbx_flt (s : State) (m : MbxId) (x : Mbx) : (s.setMbx m x).flt = s.flt := rfl
@[simp] theorem State.setMbx_boot (s : State) (m : MbxId) (x : Mbx) : (s.setMbx m x).boot = s.boot := rfl
@[simp] theorem State.setMbx_mgmt (s : State) (m : MbxId) (x : Mbx) : (s.setMbx m x).mgmt = s.mgmt := rfl
@[simp] theorem State.setMbx_wires (s : State) (m : MbxId) (x : Mbx) : (s.setMbx m x).wires = s.wires := rfl

@[simp] theorem State.setTile_pending (s : State) (t : PhysTile) (x : PTile) : (s.setTile t x).pending = s.pending := rfl
@[simp] theorem State.setTile_free (s : State) (t : PhysTile) (x : PTile) : (s.setTile t x).free = s.free := rfl
@[simp] theorem State.setTile_out (s : State) (t : PhysTile) (x : PTile) : (s.setTile t x).out = s.out := rfl
@[simp] theorem State.setTile_cores (s : State) (t : PhysTile) (x : PTile) : (s.setTile t x).cores = s.cores := rfl
@[simp] theorem State.setTile_clusters (s : State) (t : PhysTile) (x : PTile) : (s.setTile t x).clusters = s.clusters := rfl
@[simp] theorem State.setTile_tat (s : State) (t : PhysTile) (x : PTile) : (s.setTile t x).tat = s.tat := rfl
@[simp] theorem State.setTile_dies (s : State) (t : PhysTile) (x : PTile) : (s.setTile t x).dies = s.dies := rfl
@[simp] theorem State.setTile_ports (s : State) (t : PhysTile) (x : PTile) : (s.setTile t x).ports = s.ports := rfl
@[simp] theorem State.setTile_eng (s : State) (t : PhysTile) (x : PTile) : (s.setTile t x).eng = s.eng := rfl
@[simp] theorem State.setTile_wts (s : State) (t : PhysTile) (x : PTile) : (s.setTile t x).wts = s.wts := rfl
@[simp] theorem State.setTile_red (s : State) (t : PhysTile) (x : PTile) : (s.setTile t x).red = s.red := rfl
@[simp] theorem State.setTile_coll (s : State) (t : PhysTile) (x : PTile) : (s.setTile t x).coll = s.coll := rfl
@[simp] theorem State.setTile_host (s : State) (t : PhysTile) (x : PTile) : (s.setTile t x).host = s.host := rfl
@[simp] theorem State.setTile_pwr (s : State) (t : PhysTile) (x : PTile) : (s.setTile t x).pwr = s.pwr := rfl
@[simp] theorem State.setTile_flt (s : State) (t : PhysTile) (x : PTile) : (s.setTile t x).flt = s.flt := rfl
@[simp] theorem State.setTile_boot (s : State) (t : PhysTile) (x : PTile) : (s.setTile t x).boot = s.boot := rfl
@[simp] theorem State.setTile_mgmt (s : State) (t : PhysTile) (x : PTile) : (s.setTile t x).mgmt = s.mgmt := rfl
@[simp] theorem State.setTile_wires (s : State) (t : PhysTile) (x : PTile) : (s.setTile t x).wires = s.wires := rfl

@[simp] theorem State.emit_pending (s : State) (o : Out) : (s.emit o).pending = s.pending := rfl
@[simp] theorem State.emit_free (s : State) (o : Out) : (s.emit o).free = s.free := rfl
@[simp] theorem State.emit_cores (s : State) (o : Out) : (s.emit o).cores = s.cores := rfl
@[simp] theorem State.emit_clusters (s : State) (o : Out) : (s.emit o).clusters = s.clusters := rfl
@[simp] theorem State.emit_tat (s : State) (o : Out) : (s.emit o).tat = s.tat := rfl
@[simp] theorem State.emit_dies (s : State) (o : Out) : (s.emit o).dies = s.dies := rfl
@[simp] theorem State.emit_ports (s : State) (o : Out) : (s.emit o).ports = s.ports := rfl
@[simp] theorem State.emit_eng (s : State) (o : Out) : (s.emit o).eng = s.eng := rfl
@[simp] theorem State.emit_wts (s : State) (o : Out) : (s.emit o).wts = s.wts := rfl
@[simp] theorem State.emit_red (s : State) (o : Out) : (s.emit o).red = s.red := rfl
@[simp] theorem State.emit_coll (s : State) (o : Out) : (s.emit o).coll = s.coll := rfl
@[simp] theorem State.emit_host (s : State) (o : Out) : (s.emit o).host = s.host := rfl
@[simp] theorem State.emit_pwr (s : State) (o : Out) : (s.emit o).pwr = s.pwr := rfl
@[simp] theorem State.emit_tiles (s : State) (o : Out) : (s.emit o).tiles = s.tiles := rfl
@[simp] theorem State.emit_flt (s : State) (o : Out) : (s.emit o).flt = s.flt := rfl
@[simp] theorem State.emit_boot (s : State) (o : Out) : (s.emit o).boot = s.boot := rfl
@[simp] theorem State.emit_mgmt (s : State) (o : Out) : (s.emit o).mgmt = s.mgmt := rfl
@[simp] theorem State.emit_wires (s : State) (o : Out) : (s.emit o).wires = s.wires := rfl

@[simp] theorem State.took_pending (s : State) (n : Nat) : (s.took n).pending = s.pending := rfl
@[simp] theorem State.took_out (s : State) (n : Nat) : (s.took n).out = s.out := rfl
@[simp] theorem State.took_cores (s : State) (n : Nat) : (s.took n).cores = s.cores := rfl
@[simp] theorem State.took_clusters (s : State) (n : Nat) : (s.took n).clusters = s.clusters := rfl
@[simp] theorem State.took_tat (s : State) (n : Nat) : (s.took n).tat = s.tat := rfl
@[simp] theorem State.took_dies (s : State) (n : Nat) : (s.took n).dies = s.dies := rfl
@[simp] theorem State.took_ports (s : State) (n : Nat) : (s.took n).ports = s.ports := rfl
@[simp] theorem State.took_eng (s : State) (n : Nat) : (s.took n).eng = s.eng := rfl
@[simp] theorem State.took_wts (s : State) (n : Nat) : (s.took n).wts = s.wts := rfl
@[simp] theorem State.took_red (s : State) (n : Nat) : (s.took n).red = s.red := rfl
@[simp] theorem State.took_coll (s : State) (n : Nat) : (s.took n).coll = s.coll := rfl
@[simp] theorem State.took_host (s : State) (n : Nat) : (s.took n).host = s.host := rfl
@[simp] theorem State.took_pwr (s : State) (n : Nat) : (s.took n).pwr = s.pwr := rfl
@[simp] theorem State.took_tiles (s : State) (n : Nat) : (s.took n).tiles = s.tiles := rfl
@[simp] theorem State.took_flt (s : State) (n : Nat) : (s.took n).flt = s.flt := rfl
@[simp] theorem State.took_boot (s : State) (n : Nat) : (s.took n).boot = s.boot := rfl
@[simp] theorem State.took_mgmt (s : State) (n : Nat) : (s.took n).mgmt = s.mgmt := rfl
@[simp] theorem State.took_wires (s : State) (n : Nat) : (s.took n).wires = s.wires := rfl

@[simp] theorem State.setLp_pending (s : State) (p : Option LayerPass) : (s.setLp p).pending = s.pending := rfl
@[simp] theorem State.setLp_free (s : State) (p : Option LayerPass) : (s.setLp p).free = s.free := rfl
@[simp] theorem State.setLp_out (s : State) (p : Option LayerPass) : (s.setLp p).out = s.out := rfl
@[simp] theorem State.setLp_cores (s : State) (p : Option LayerPass) : (s.setLp p).cores = s.cores := rfl
@[simp] theorem State.setLp_clusters (s : State) (p : Option LayerPass) : (s.setLp p).clusters = s.clusters := rfl
@[simp] theorem State.setLp_tat (s : State) (p : Option LayerPass) : (s.setLp p).tat = s.tat := rfl
@[simp] theorem State.setLp_dies (s : State) (p : Option LayerPass) : (s.setLp p).dies = s.dies := rfl
@[simp] theorem State.setLp_ports (s : State) (p : Option LayerPass) : (s.setLp p).ports = s.ports := rfl
@[simp] theorem State.setLp_wts (s : State) (p : Option LayerPass) : (s.setLp p).wts = s.wts := rfl
@[simp] theorem State.setLp_red (s : State) (p : Option LayerPass) : (s.setLp p).red = s.red := rfl
@[simp] theorem State.setLp_coll (s : State) (p : Option LayerPass) : (s.setLp p).coll = s.coll := rfl
@[simp] theorem State.setLp_host (s : State) (p : Option LayerPass) : (s.setLp p).host = s.host := rfl
@[simp] theorem State.setLp_pwr (s : State) (p : Option LayerPass) : (s.setLp p).pwr = s.pwr := rfl
@[simp] theorem State.setLp_tiles (s : State) (p : Option LayerPass) : (s.setLp p).tiles = s.tiles := rfl
@[simp] theorem State.setLp_flt (s : State) (p : Option LayerPass) : (s.setLp p).flt = s.flt := rfl
@[simp] theorem State.setLp_boot (s : State) (p : Option LayerPass) : (s.setLp p).boot = s.boot := rfl
@[simp] theorem State.setLp_mgmt (s : State) (p : Option LayerPass) : (s.setLp p).mgmt = s.mgmt := rfl
@[simp] theorem State.setLp_wires (s : State) (p : Option LayerPass) : (s.setLp p).wires = s.wires := rfl

@[simp] theorem State.send_pending (s : State) (a d : TatNode) (p : BitVec 96) (e : Site) : (s.send a d p e).pending = s.pending := rfl
@[simp] theorem State.send_free (s : State) (a d : TatNode) (p : BitVec 96) (e : Site) : (s.send a d p e).free = s.free := rfl
@[simp] theorem State.send_out (s : State) (a d : TatNode) (p : BitVec 96) (e : Site) : (s.send a d p e).out = s.out := rfl
@[simp] theorem State.send_cores (s : State) (a d : TatNode) (p : BitVec 96) (e : Site) : (s.send a d p e).cores = s.cores := rfl
@[simp] theorem State.send_clusters (s : State) (a d : TatNode) (p : BitVec 96) (e : Site) : (s.send a d p e).clusters = s.clusters := rfl
@[simp] theorem State.send_dies (s : State) (a d : TatNode) (p : BitVec 96) (e : Site) : (s.send a d p e).dies = s.dies := rfl
@[simp] theorem State.send_ports (s : State) (a d : TatNode) (p : BitVec 96) (e : Site) : (s.send a d p e).ports = s.ports := rfl
@[simp] theorem State.send_eng (s : State) (a d : TatNode) (p : BitVec 96) (e : Site) : (s.send a d p e).eng = s.eng := rfl
@[simp] theorem State.send_wts (s : State) (a d : TatNode) (p : BitVec 96) (e : Site) : (s.send a d p e).wts = s.wts := rfl
@[simp] theorem State.send_red (s : State) (a d : TatNode) (p : BitVec 96) (e : Site) : (s.send a d p e).red = s.red := rfl
@[simp] theorem State.send_coll (s : State) (a d : TatNode) (p : BitVec 96) (e : Site) : (s.send a d p e).coll = s.coll := rfl
@[simp] theorem State.send_host (s : State) (a d : TatNode) (p : BitVec 96) (e : Site) : (s.send a d p e).host = s.host := rfl
@[simp] theorem State.send_pwr (s : State) (a d : TatNode) (p : BitVec 96) (e : Site) : (s.send a d p e).pwr = s.pwr := rfl
@[simp] theorem State.send_tiles (s : State) (a d : TatNode) (p : BitVec 96) (e : Site) : (s.send a d p e).tiles = s.tiles := rfl
@[simp] theorem State.send_flt (s : State) (a d : TatNode) (p : BitVec 96) (e : Site) : (s.send a d p e).flt = s.flt := rfl
@[simp] theorem State.send_boot (s : State) (a d : TatNode) (p : BitVec 96) (e : Site) : (s.send a d p e).boot = s.boot := rfl
@[simp] theorem State.send_mgmt (s : State) (a d : TatNode) (p : BitVec 96) (e : Site) : (s.send a d p e).mgmt = s.mgmt := rfl
@[simp] theorem State.send_wires (s : State) (a d : TatNode) (p : BitVec 96) (e : Site) : (s.send a d p e).wires = s.wires := rfl


@[simp] theorem State.emit_out (s : State) (o : Out) : (s.emit o).out = o :: s.out := rfl
@[simp] theorem State.took_free (s : State) (n : Nat) : (s.took n).free = s.free + n := rfl
@[simp] theorem State.setLp_lp (s : State) (p : Option LayerPass) : (s.setLp p).eng.lp = p := rfl

/-- A core reads as the last one set. -/
@[simp] theorem State.core_setCore_same (s : State) (c : CoreId) (k : Core) : (s.setCore c k).core c = k := by
  simp [State.core, State.setCore]

/-- Every other core reads as before. -/
theorem State.core_setCore_other (s : State) {c c' : CoreId} (k : Core) (h : c' ≠ c) :
    (s.setCore c k).core c' = s.core c' := by
  have hv : c'.val ≠ c.val := fun e => h (Fin.ext e)
  simp only [State.core, State.setCore, tabFind_set_other s.cores k hv]
  cases tabFind s.cores c'.val <;> rfl

@[simp] theorem State.core_took (s : State) (n : Nat) (c : CoreId) : (s.took n).core c = s.core c := rfl
@[simp] theorem State.core_emit (s : State) (o : Out) (c : CoreId) : (s.emit o).core c = s.core c := rfl
@[simp] theorem State.core_send (s : State) (a d : TatNode) (p : BitVec 96) (e : Site) (c : CoreId) : (s.send a d p e).core c = s.core c := rfl

/-- A cluster reads as the last one set. -/
@[simp] theorem State.cluster_setCluster_same (s : State) (ci : ClusterId) (k : Cluster) :
    (s.setCluster ci k).cluster ci = k := by
  simp [State.cluster, State.setCluster]

/-- Every other cluster reads as before. -/
theorem State.cluster_setCluster_other (s : State) {ci cj : ClusterId} (k : Cluster) (h : cj ≠ ci) :
    (s.setCluster ci k).cluster cj = s.cluster cj := by
  have hv : cj.val ≠ ci.val := fun e => h (Fin.ext e)
  exact tabGet_set_other {} s.clusters k hv

@[simp] theorem State.die_setDie_same (s : State) (d : DieId) (x : Die) : (s.setDie d x).dies[d.val] = x := by
  simp [State.setDie]

@[simp] theorem State.port_setPort_same (s : State) (p : PortId) (x : Port) : (s.setPort p x).ports[p.val] = x := by
  simp [State.setPort]

@[simp] theorem State.queue_setQueue_same (s : State) (q : QueueId) (x : Queue) :
    (s.setQueue q x).host.queues[q.val] = x := by
  simp [State.setQueue]

@[simp] theorem State.mbx_setMbx_same (s : State) (m : MbxId) (x : Mbx) : (s.setMbx m x).host.mbx[m.val] = x := by
  simp [State.setMbx]

@[simp] theorem State.tile_setTile_same (s : State) (t : PhysTile) (x : PTile) : (s.setTile t x).tiles[t.val] = x := by
  simp [State.setTile]

/-! ### Registers of a core -/

/-- S0 reads zero (R47). -/
@[simp] theorem Core.sreg_zero (k : Core) : k.sreg 0 = 0 := rfl

/-- A register other than S0 reads what was written to it. -/
theorem Core.sreg_setS_same (k : Core) {r : Reg} (v : BitVec 64) (h : r ≠ 0) : (k.setS r v).sreg r = v := by
  simp [Core.sreg, Core.setS, h]

/-- Every other register reads as before. -/
theorem Core.sreg_setS_other (k : Core) {r q : Reg} (v : BitVec 64) (h : q ≠ r) : (k.setS r v).sreg q = k.sreg q := by
  have hv : r.val ≠ q.val := fun e => h (Fin.ext e.symm)
  unfold Core.sreg Core.setS
  split
  · rfl
  · split
    · rfl
    · simp [Vector.getElem_set_ne, hv]

@[simp] theorem Core.setS_run (k : Core) (r : Reg) (v : BitVec 64) : (k.setS r v).run = k.run := by
  unfold Core.setS; split <;> rfl
@[simp] theorem Core.setS_units (k : Core) (r : Reg) (v : BitVec 64) : (k.setS r v).units = k.units := by
  unfold Core.setS; split <;> rfl
@[simp] theorem Core.setS_spad (k : Core) (r : Reg) (v : BitVec 64) : (k.setS r v).spad = k.spad := by
  unfold Core.setS; split <;> rfl
@[simp] theorem Core.setS_task (k : Core) (r : Reg) (v : BitVec 64) : (k.setS r v).task = k.task := by
  unfold Core.setS; split <;> rfl
@[simp] theorem Core.setS_cnt (k : Core) (r : Reg) (v : BitVec 64) : (k.setS r v).cnt = k.cnt := by
  unfold Core.setS; split <;> rfl
@[simp] theorem Core.setS_recs (k : Core) (r : Reg) (v : BitVec 64) : (k.setS r v).recs = k.recs := by
  unfold Core.setS; split <;> rfl
@[simp] theorem Core.setS_pc (k : Core) (r : Reg) (v : BitVec 64) : (k.setS r v).regs.pc = k.regs.pc := by
  unfold Core.setS; split <;> rfl

end Sys2Proof.Machine
end

