-- ==== Sys2Proof/Laws/Events.lean ====
section
/-! SUPPORT. The laws of Redfish events: what logging one leaves, and what is pushed (R503). -/

namespace Sys2Proof.Machine

open Sys2Proof

/-- One push for each subscription, the first of them oldest. -/
theorem pushAll_eq (e : Event) (l : List Sub) : pushAll e l = (l.map fun b => Out.push b.id e).reverse := by
  induction l with
  | nil => rfl
  | cons b t ih => simp [pushAll, ih]

@[simp] theorem logEvent_pending (e : Event) (s : State) : (logEvent e s).pending = s.pending := rfl
@[simp] theorem logEvent_free (e : Event) (s : State) : (logEvent e s).free = s.free := rfl
@[simp] theorem logEvent_cores (e : Event) (s : State) : (logEvent e s).cores = s.cores := rfl
@[simp] theorem logEvent_clusters (e : Event) (s : State) : (logEvent e s).clusters = s.clusters := rfl
@[simp] theorem logEvent_tat (e : Event) (s : State) : (logEvent e s).tat = s.tat := rfl
@[simp] theorem logEvent_dies (e : Event) (s : State) : (logEvent e s).dies = s.dies := rfl
@[simp] theorem logEvent_ports (e : Event) (s : State) : (logEvent e s).ports = s.ports := rfl
@[simp] theorem logEvent_eng (e : Event) (s : State) : (logEvent e s).eng = s.eng := rfl
@[simp] theorem logEvent_wts (e : Event) (s : State) : (logEvent e s).wts = s.wts := rfl
@[simp] theorem logEvent_red (e : Event) (s : State) : (logEvent e s).red = s.red := rfl
@[simp] theorem logEvent_coll (e : Event) (s : State) : (logEvent e s).coll = s.coll := rfl
@[simp] theorem logEvent_host (e : Event) (s : State) : (logEvent e s).host = s.host := rfl
@[simp] theorem logEvent_pwr (e : Event) (s : State) : (logEvent e s).pwr = s.pwr := rfl
@[simp] theorem logEvent_tiles (e : Event) (s : State) : (logEvent e s).tiles = s.tiles := rfl
@[simp] theorem logEvent_flt (e : Event) (s : State) : (logEvent e s).flt = s.flt := rfl
@[simp] theorem logEvent_boot (e : Event) (s : State) : (logEvent e s).boot = s.boot := rfl
@[simp] theorem logEvent_log (e : Event) (s : State) : (logEvent e s).mgmt.log = (e :: s.mgmt.log).take 4096 := rfl
@[simp] theorem logEvent_out (e : Event) (s : State) : (logEvent e s).out = eventOut e s.mgmt ++ s.out := rfl

@[simp] theorem logNamed_pending (m : String) (s : State) : (logNamed m s).pending = s.pending := rfl
@[simp] theorem logNamed_free (m : String) (s : State) : (logNamed m s).free = s.free := rfl
@[simp] theorem logNamed_cores (m : String) (s : State) : (logNamed m s).cores = s.cores := rfl
@[simp] theorem logNamed_clusters (m : String) (s : State) : (logNamed m s).clusters = s.clusters := rfl
@[simp] theorem logNamed_tat (m : String) (s : State) : (logNamed m s).tat = s.tat := rfl
@[simp] theorem logNamed_dies (m : String) (s : State) : (logNamed m s).dies = s.dies := rfl
@[simp] theorem logNamed_ports (m : String) (s : State) : (logNamed m s).ports = s.ports := rfl
@[simp] theorem logNamed_eng (m : String) (s : State) : (logNamed m s).eng = s.eng := rfl
@[simp] theorem logNamed_wts (m : String) (s : State) : (logNamed m s).wts = s.wts := rfl
@[simp] theorem logNamed_red (m : String) (s : State) : (logNamed m s).red = s.red := rfl
@[simp] theorem logNamed_coll (m : String) (s : State) : (logNamed m s).coll = s.coll := rfl
@[simp] theorem logNamed_host (m : String) (s : State) : (logNamed m s).host = s.host := rfl
@[simp] theorem logNamed_pwr (m : String) (s : State) : (logNamed m s).pwr = s.pwr := rfl
@[simp] theorem logNamed_tiles (m : String) (s : State) : (logNamed m s).tiles = s.tiles := rfl
@[simp] theorem logNamed_flt (m : String) (s : State) : (logNamed m s).flt = s.flt := rfl
@[simp] theorem logNamed_boot (m : String) (s : State) : (logNamed m s).boot = s.boot := rfl
@[simp] theorem logNamed_log (m : String) (s : State) : (logNamed m s).mgmt.log = (.named m :: s.mgmt.log).take 4096 := rfl
@[simp] theorem logNamed_out (m : String) (s : State) : (logNamed m s).out = eventOut (.named m) s.mgmt ++ s.out := rfl

@[simp] theorem logCode_pending (c : BitVec 16) (s : State) : (logCode c s).pending = s.pending := rfl
@[simp] theorem logCode_free (c : BitVec 16) (s : State) : (logCode c s).free = s.free := rfl
@[simp] theorem logCode_cores (c : BitVec 16) (s : State) : (logCode c s).cores = s.cores := rfl
@[simp] theorem logCode_clusters (c : BitVec 16) (s : State) : (logCode c s).clusters = s.clusters := rfl
@[simp] theorem logCode_tat (c : BitVec 16) (s : State) : (logCode c s).tat = s.tat := rfl
@[simp] theorem logCode_dies (c : BitVec 16) (s : State) : (logCode c s).dies = s.dies := rfl
@[simp] theorem logCode_ports (c : BitVec 16) (s : State) : (logCode c s).ports = s.ports := rfl
@[simp] theorem logCode_eng (c : BitVec 16) (s : State) : (logCode c s).eng = s.eng := rfl
@[simp] theorem logCode_wts (c : BitVec 16) (s : State) : (logCode c s).wts = s.wts := rfl
@[simp] theorem logCode_red (c : BitVec 16) (s : State) : (logCode c s).red = s.red := rfl
@[simp] theorem logCode_coll (c : BitVec 16) (s : State) : (logCode c s).coll = s.coll := rfl
@[simp] theorem logCode_host (c : BitVec 16) (s : State) : (logCode c s).host = s.host := rfl
@[simp] theorem logCode_pwr (c : BitVec 16) (s : State) : (logCode c s).pwr = s.pwr := rfl
@[simp] theorem logCode_tiles (c : BitVec 16) (s : State) : (logCode c s).tiles = s.tiles := rfl
@[simp] theorem logCode_flt (c : BitVec 16) (s : State) : (logCode c s).flt = s.flt := rfl
@[simp] theorem logCode_boot (c : BitVec 16) (s : State) : (logCode c s).boot = s.boot := rfl
@[simp] theorem logCode_log (c : BitVec 16) (s : State) : (logCode c s).mgmt.log = (.code c :: s.mgmt.log).take 4096 := rfl
@[simp] theorem logCode_out (c : BitVec 16) (s : State) : (logCode c s).out = eventOut (.code c) s.mgmt ++ s.out := rfl

/-- The log never holds more than 4,096 events. -/
theorem logEvent_bound (e : Event) (s : State) : (logEvent e s).mgmt.log.length ≤ 4096 := by
  rw [logEvent_log]
  exact List.length_take_le 4096 _

end Sys2Proof.Machine
end

