-- ==== Sys2Proof/Laws/Exec.lean ====
section
/-! SUPPORT. The meaning that the dispatcher gives each command. -/

namespace Sys2Proof.Machine

open Sys2Proof

@[simp] theorem exec_nop (c : CoreId) (s : State) : exec (.nop c) s = execNop c s := rfl
@[simp] theorem exec_add (c : CoreId) (f : ScalarF) (s : State) : exec (.add c f) s = execAdd c f s := rfl
@[simp] theorem exec_addi (c : CoreId) (f : ScalarF) (s : State) : exec (.addi c f) s = execAddi c f s := rfl
@[simp] theorem exec_sub (c : CoreId) (f : ScalarF) (s : State) : exec (.sub c f) s = execSub c f s := rfl
@[simp] theorem exec_subi (c : CoreId) (f : ScalarF) (s : State) : exec (.subi c f) s = execSubi c f s := rfl
@[simp] theorem exec_and (c : CoreId) (f : ScalarF) (s : State) : exec (.and c f) s = execAnd c f s := rfl
@[simp] theorem exec_andi (c : CoreId) (f : ScalarF) (s : State) : exec (.andi c f) s = execAndi c f s := rfl
@[simp] theorem exec_or (c : CoreId) (f : ScalarF) (s : State) : exec (.or c f) s = execOr c f s := rfl
@[simp] theorem exec_ori (c : CoreId) (f : ScalarF) (s : State) : exec (.ori c f) s = execOri c f s := rfl
@[simp] theorem exec_xor (c : CoreId) (f : ScalarF) (s : State) : exec (.xor c f) s = execXor c f s := rfl
@[simp] theorem exec_xori (c : CoreId) (f : ScalarF) (s : State) : exec (.xori c f) s = execXori c f s := rfl
@[simp] theorem exec_shl (c : CoreId) (f : ScalarF) (s : State) : exec (.shl c f) s = execShl c f s := rfl
@[simp] theorem exec_shli (c : CoreId) (f : ScalarF) (s : State) : exec (.shli c f) s = execShli c f s := rfl
@[simp] theorem exec_shr (c : CoreId) (f : ScalarF) (s : State) : exec (.shr c f) s = execShr c f s := rfl
@[simp] theorem exec_shri (c : CoreId) (f : ScalarF) (s : State) : exec (.shri c f) s = execShri c f s := rfl
@[simp] theorem exec_sar (c : CoreId) (f : ScalarF) (s : State) : exec (.sar c f) s = execSar c f s := rfl
@[simp] theorem exec_sari (c : CoreId) (f : ScalarF) (s : State) : exec (.sari c f) s = execSari c f s := rfl
@[simp] theorem exec_mul (c : CoreId) (f : ScalarF) (s : State) : exec (.mul c f) s = execMul c f s := rfl
@[simp] theorem exec_muli (c : CoreId) (f : ScalarF) (s : State) : exec (.muli c f) s = execMuli c f s := rfl
@[simp] theorem exec_min (c : CoreId) (f : ScalarF) (s : State) : exec (.min c f) s = execMin c f s := rfl
@[simp] theorem exec_mini (c : CoreId) (f : ScalarF) (s : State) : exec (.mini c f) s = execMini c f s := rfl
@[simp] theorem exec_max (c : CoreId) (f : ScalarF) (s : State) : exec (.max c f) s = execMax c f s := rfl
@[simp] theorem exec_maxi (c : CoreId) (f : ScalarF) (s : State) : exec (.maxi c f) s = execMaxi c f s := rfl
@[simp] theorem exec_slt (c : CoreId) (f : ScalarF) (s : State) : exec (.slt c f) s = execSlt c f s := rfl
@[simp] theorem exec_slti (c : CoreId) (f : ScalarF) (s : State) : exec (.slti c f) s = execSlti c f s := rfl
@[simp] theorem exec_sltu (c : CoreId) (f : ScalarF) (s : State) : exec (.sltu c f) s = execSltu c f s := rfl
@[simp] theorem exec_sltui (c : CoreId) (f : ScalarF) (s : State) : exec (.sltui c f) s = execSltui c f s := rfl
@[simp] theorem exec_lih (c : CoreId) (f : ScalarF) (s : State) : exec (.lih c f) s = execLih c f s := rfl
@[simp] theorem exec_ld (c : CoreId) (f : LoadF) (s : State) : exec (.ld c f) s = execLd c f s := rfl
@[simp] theorem exec_ldw (c : CoreId) (f : LoadF) (s : State) : exec (.ldw c f) s = execLdw c f s := rfl
@[simp] theorem exec_st (c : CoreId) (f : LoadF) (s : State) : exec (.st c f) s = execSt c f s := rfl
@[simp] theorem exec_stw (c : CoreId) (f : LoadF) (s : State) : exec (.stw c f) s = execStw c f s := rfl
@[simp] theorem exec_beq (c : CoreId) (f : BranchF) (s : State) : exec (.beq c f) s = execBeq c f s := rfl
@[simp] theorem exec_bne (c : CoreId) (f : BranchF) (s : State) : exec (.bne c f) s = execBne c f s := rfl
@[simp] theorem exec_blt (c : CoreId) (f : BranchF) (s : State) : exec (.blt c f) s = execBlt c f s := rfl
@[simp] theorem exec_bge (c : CoreId) (f : BranchF) (s : State) : exec (.bge c f) s = execBge c f s := rfl
@[simp] theorem exec_bltu (c : CoreId) (f : BranchF) (s : State) : exec (.bltu c f) s = execBltu c f s := rfl
@[simp] theorem exec_bgeu (c : CoreId) (f : BranchF) (s : State) : exec (.bgeu c f) s = execBgeu c f s := rfl
@[simp] theorem exec_jal (c : CoreId) (f : BranchF) (s : State) : exec (.jal c f) s = execJal c f s := rfl
@[simp] theorem exec_jr (c : CoreId) (f : BranchF) (s : State) : exec (.jr c f) s = execJr c f s := rfl
@[simp] theorem exec_csrr (c : CoreId) (f : CsrF) (s : State) : exec (.csrr c f) s = execCsrr c f s := rfl
@[simp] theorem exec_csrw (c : CoreId) (f : CsrF) (s : State) : exec (.csrw c f) s = execCsrw c f s := rfl
@[simp] theorem exec_fence (c : CoreId) (imm : BitVec 32) (s : State) : exec (.fence c imm) s = execFence c imm s := rfl
@[simp] theorem exec_halt (c : CoreId) (s : State) : exec (.halt c) s = execHalt c s := rfl
@[simp] theorem exec_haltComplete (c : CoreId) (s : State) : exec (.haltComplete c) s = execHaltComplete c s := rfl
@[simp] theorem exec_coreIllegalOp (c : CoreId) (w : BitVec 64) (s : State) : exec (.coreIllegalOp c w) s = execCoreIllegalOp c w s := rfl
@[simp] theorem exec_mma (c : CoreId) (f : MmaF) (s : State) : exec (.mma c f) s = execMma c f s := rfl
@[simp] theorem exec_accst (c : CoreId) (f : AccF) (s : State) : exec (.accst c f) s = execAccst c f s := rfl
@[simp] theorem exec_accrd (c : CoreId) (f : AccF) (s : State) : exec (.accrd c f) s = execAccrd c f s := rfl
@[simp] theorem exec_accwr (c : CoreId) (f : AccF) (s : State) : exec (.accwr c f) s = execAccwr c f s := rfl
@[simp] theorem exec_accz (c : CoreId) (f : AccF) (s : State) : exec (.accz c f) s = execAccz c f s := rfl
@[simp] theorem exec_matrixOpStart (c : CoreId) (u : MatrixPath) (s : State) : exec (.matrixOpStart c u) s = execMatrixOpStart c u s := rfl
@[simp] theorem exec_matrixOpComplete (c : CoreId) (u : MatrixPath) (s : State) : exec (.matrixOpComplete c u) s = execMatrixOpComplete c u s := rfl
@[simp] theorem exec_vld (c : CoreId) (f : LoadF) (s : State) : exec (.vld c f) s = execVld c f s := rfl
@[simp] theorem exec_vst (c : CoreId) (f : LoadF) (s : State) : exec (.vst c f) s = execVst c f s := rfl
@[simp] theorem exec_vbcast (c : CoreId) (f : VecF) (s : State) : exec (.vbcast c f) s = execVbcast c f s := rfl
@[simp] theorem exec_vmovs (c : CoreId) (f : VecF) (s : State) : exec (.vmovs c f) s = execVmovs c f s := rfl
@[simp] theorem exec_vadd (c : CoreId) (f : VecF) (s : State) : exec (.vadd c f) s = execVadd c f s := rfl
@[simp] theorem exec_vsub (c : CoreId) (f : VecF) (s : State) : exec (.vsub c f) s = execVsub c f s := rfl
@[simp] theorem exec_vmul (c : CoreId) (f : VecF) (s : State) : exec (.vmul c f) s = execVmul c f s := rfl
@[simp] theorem exec_vfma (c : CoreId) (f : VecF) (s : State) : exec (.vfma c f) s = execVfma c f s := rfl
@[simp] theorem exec_vmax (c : CoreId) (f : VecF) (s : State) : exec (.vmax c f) s = execVmax c f s := rfl
@[simp] theorem exec_vmin (c : CoreId) (f : VecF) (s : State) : exec (.vmin c f) s = execVmin c f s := rfl
@[simp] theorem exec_vcmp (c : CoreId) (f : VecF) (s : State) : exec (.vcmp c f) s = execVcmp c f s := rfl
@[simp] theorem exec_vsel (c : CoreId) (f : VecF) (s : State) : exec (.vsel c f) s = execVsel c f s := rfl
@[simp] theorem exec_vrcp (c : CoreId) (f : VecF) (s : State) : exec (.vrcp c f) s = execVrcp c f s := rfl
@[simp] theorem exec_vrsq (c : CoreId) (f : VecF) (s : State) : exec (.vrsq c f) s = execVrsq c f s := rfl
@[simp] theorem exec_vexp2 (c : CoreId) (f : VecF) (s : State) : exec (.vexp2 c f) s = execVexp2 c f s := rfl
@[simp] theorem exec_vlog2 (c : CoreId) (f : VecF) (s : State) : exec (.vlog2 c f) s = execVlog2 c f s := rfl
@[simp] theorem exec_vcvt (c : CoreId) (f : VecF) (s : State) : exec (.vcvt c f) s = execVcvt c f s := rfl
@[simp] theorem exec_vred (c : CoreId) (f : VecF) (s : State) : exec (.vred c f) s = execVred c f s := rfl
@[simp] theorem exec_vand (c : CoreId) (f : VecF) (s : State) : exec (.vand c f) s = execVand c f s := rfl
@[simp] theorem exec_vor (c : CoreId) (f : VecF) (s : State) : exec (.vor c f) s = execVor c f s := rfl
@[simp] theorem exec_vxor (c : CoreId) (f : VecF) (s : State) : exec (.vxor c f) s = execVxor c f s := rfl
@[simp] theorem exec_send (c : CoreId) (f : SendF) (s : State) : exec (.send c f) s = execSend c f s := rfl
@[simp] theorem exec_sendwait (c : CoreId) (f : SendF) (s : State) : exec (.sendwait c f) s = execSendwait c f s := rfl
@[simp] theorem exec_waitrx (c : CoreId) (f : SendF) (s : State) : exec (.waitrx c f) s = execWaitrx c f s := rfl
@[simp] theorem exec_sadd (c : CoreId) (f : SyncF) (s : State) : exec (.sadd c f) s = execSadd c f s := rfl
@[simp] theorem exec_sset (c : CoreId) (f : SyncF) (s : State) : exec (.sset c f) s = execSset c f s := rfl
@[simp] theorem exec_stgt (c : CoreId) (f : SyncF) (s : State) : exec (.stgt c f) s = execStgt c f s := rfl
@[simp] theorem exec_sread (c : CoreId) (f : SyncF) (s : State) : exec (.sread c f) s = execSread c f s := rfl
@[simp] theorem exec_swait (c : CoreId) (f : SyncF) (s : State) : exec (.swait c f) s = execSwait c f s := rfl
@[simp] theorem exec_swaitv (c : CoreId) (f : SyncF) (s : State) : exec (.swaitv c f) s = execSwaitv c f s := rfl
@[simp] theorem exec_bar (c : CoreId) (f : SyncF) (s : State) : exec (.bar c f) s = execBar c f s := rfl
@[simp] theorem exec_sabort (c : CoreId) (f : SyncF) (s : State) : exec (.sabort c f) s = execSabort c f s := rfl
@[simp] theorem exec_dmard (c : CoreId) (f : DmaF) (s : State) : exec (.dmard c f) s = execDmard c f s := rfl
@[simp] theorem exec_dmawr (c : CoreId) (f : DmaF) (s : State) : exec (.dmawr c f) s = execDmawr c f s := rfl
@[simp] theorem exec_dmard2 (c : CoreId) (f : DmaF) (s : State) : exec (.dmard2 c f) s = execDmard2 c f s := rfl
@[simp] theorem exec_dmawr2 (c : CoreId) (f : DmaF) (s : State) : exec (.dmawr2 c f) s = execDmawr2 c f s := rfl
@[simp] theorem exec_dmaUnitTransfer (c : CoreId) (n : Nat) (linkOk : Bool) (s : State) : exec (.dmaUnitTransfer c n linkOk) s = execDmaUnitTransfer c n linkOk s := rfl
@[simp] theorem exec_dmaComplete (c : CoreId) (n : Nat) (s : State) : exec (.dmaComplete c n) s = execDmaComplete c n s := rfl
@[simp] theorem exec_fill (c : CoreId) (f : FillF) (s : State) : exec (.fill c f) s = execFill c f s := rfl
@[simp] theorem exec_copy (c : CoreId) (f : FillF) (s : State) : exec (.copy c f) s = execCopy c f s := rfl
@[simp] theorem exec_fillCopyComplete (c : CoreId) (s : State) : exec (.fillCopyComplete c) s = execFillCopyComplete c s := rfl
@[simp] theorem exec_wopen (c : CoreId) (f : WinF) (s : State) : exec (.wopen c f) s = execWopen c f s := rfl
@[simp] theorem exec_wclose (c : CoreId) (f : WinF) (s : State) : exec (.wclose c f) s = execWclose c f s := rfl
@[simp] theorem exec_spack (c : CoreId) (f : SparseF) (s : State) : exec (.spack c f) s = execSpack c f s := rfl
@[simp] theorem exec_smma (c : CoreId) (f : SparseF) (s : State) : exec (.smma c f) s = execSmma c f s := rfl
@[simp] theorem exec_hinit (c : CoreId) (f : SparseF) (s : State) : exec (.hinit c f) s = execHinit c f s := rfl
@[simp] theorem exec_hadd (c : CoreId) (f : SparseF) (s : State) : exec (.hadd c f) s = execHadd c f s := rfl
@[simp] theorem exec_hmerge (c : CoreId) (f : SparseF) (s : State) : exec (.hmerge c f) s = execHmerge c f s := rfl
@[simp] theorem exec_fmask (c : CoreId) (f : SparseF) (s : State) : exec (.fmask c f) s = execFmask c f s := rfl
@[simp] theorem exec_fcount (c : CoreId) (f : SparseF) (s : State) : exec (.fcount c f) s = execFcount c f s := rfl
@[simp] theorem exec_sparseOpComplete (x : SparseEnd) (s : State) : exec (.sparseOpComplete x) s = execSparseOpComplete x s := rfl
@[simp] theorem exec_coreWatchdog (c : CoreId) (s : State) : exec (.coreWatchdog c) s = execCoreWatchdog c s := rfl
@[simp] theorem exec_segmentWakeComplete (c : CoreId) (seg : Fin 8) (s : State) : exec (.segmentWakeComplete c seg) s = execSegmentWakeComplete c seg s := rfl
@[simp] theorem exec_messageReceive (c : CoreId) (flow : BitVec 16) (s : State) : exec (.messageReceive c flow) s = execMessageReceive c flow s := rfl
@[simp] theorem exec_stitchFire (n : MeshNode) (s : State) : exec (.stitchFire n) s = execStitchFire n s := rfl
@[simp] theorem exec_flitArrive (n : MeshNode) (inp : Nat) (sb : BitVec 16) (flit : BitVec 256) (s : State) : exec (.flitArrive n inp sb flit) s = execFlitArrive n inp sb flit s := rfl
@[simp] theorem exec_meshBridge (n : MeshNode) (inp : Nat) (s : State) : exec (.meshBridge n inp) s = execMeshBridge n inp s := rfl
@[simp] theorem exec_startMark (m : StartMark) (s : State) : exec (.startMark m) s = execStartMark m s := rfl
@[simp] theorem exec_settleRequest (n : MeshNode) (s : State) : exec (.settleRequest n) s = execSettleRequest n s := rfl
@[simp] theorem exec_tatAdd (at_ : TatNode) (p : RxPacket) (s : State) : exec (.tatAdd at_ p) s = execTatAdd at_ p s := rfl
@[simp] theorem exec_tatSet (at_ : TatNode) (p : RxPacket) (s : State) : exec (.tatSet at_ p) s = execTatSet at_ p s := rfl
@[simp] theorem exec_tatTarget (at_ : TatNode) (p : RxPacket) (s : State) : exec (.tatTarget at_ p) s = execTatTarget at_ p s := rfl
@[simp] theorem exec_tatRead (at_ : TatNode) (p : RxPacket) (s : State) : exec (.tatRead at_ p) s = execTatRead at_ p s := rfl
@[simp] theorem exec_tatWait (at_ : TatNode) (p : RxPacket) (s : State) : exec (.tatWait at_ p) s = execTatWait at_ p s := rfl
@[simp] theorem exec_tatWake (at_ : TatNode) (p : RxPacket) (s : State) : exec (.tatWake at_ p) s = execTatWake at_ p s := rfl
@[simp] theorem exec_tatReadReply (at_ : TatNode) (p : RxPacket) (s : State) : exec (.tatReadReply at_ p) s = execTatReadReply at_ p s := rfl
@[simp] theorem exec_tatArrive (at_ : TatNode) (p : RxPacket) (s : State) : exec (.tatArrive at_ p) s = execTatArrive at_ p s := rfl
@[simp] theorem exec_tatRelease (at_ : TatNode) (p : RxPacket) (s : State) : exec (.tatRelease at_ p) s = execTatRelease at_ p s := rfl
@[simp] theorem exec_tatAbort (at_ : TatNode) (p : RxPacket) (s : State) : exec (.tatAbort at_ p) s = execTatAbort at_ p s := rfl
@[simp] theorem exec_tatAbortAck (at_ : TatNode) (p : RxPacket) (s : State) : exec (.tatAbortAck at_ p) s = execTatAbortAck at_ p s := rfl
@[simp] theorem exec_tatLock (at_ : TatNode) (p : RxPacket) (s : State) : exec (.tatLock at_ p) s = execTatLock at_ p s := rfl
@[simp] theorem exec_layerPassClose (s : State) : exec (.layerPassClose) s = execLayerPassClose s := rfl
@[simp] theorem exec_layerBoundary (s : State) : exec (.layerBoundary) s = execLayerBoundary s := rfl
@[simp] theorem exec_meshRelock (island : Island) (s : State) : exec (.meshRelock island) s = execMeshRelock island s := rfl
@[simp] theorem exec_passBoundary (s : State) : exec (.passBoundary) s = execPassBoundary s := rfl
@[simp] theorem exec_stepBoundary (s : State) : exec (.stepBoundary) s = execStepBoundary s := rfl
@[simp] theorem exec_drainBoundary (s : State) : exec (.drainBoundary) s = execDrainBoundary s := rfl
@[simp] theorem exec_syncCntWrite (obj : BitVec 16) (v : BitVec 32) (s : State) : exec (.syncCntWrite obj v) s = execSyncCntWrite obj v s := rfl
@[simp] theorem exec_syncTgtWrite (obj : BitVec 16) (v : BitVec 32) (s : State) : exec (.syncTgtWrite obj v) s = execSyncTgtWrite obj v s := rfl
@[simp] theorem exec_syncAddWrite (obj : BitVec 16) (v : BitVec 32) (s : State) : exec (.syncAddWrite obj v) s = execSyncAddWrite obj v s := rfl
@[simp] theorem exec_dramTempSample (t : PhysTile) (layer : Fin 2) (q : QuadTemp) (s : State) : exec (.dramTempSample t layer q) s = execDramTempSample t layer q s := rfl
@[simp] theorem exec_refreshRestore (t : PhysTile) (layer : Fin 2) (s : State) : exec (.refreshRestore t layer) s = execRefreshRestore t layer s := rfl
@[simp] theorem exec_cxlMemRead (h : BitVec 36) (linkOk : Bool) (s : State) : exec (.cxlMemRead h linkOk) s = execCxlMemRead h linkOk s := rfl
@[simp] theorem exec_cxlMemWrite (h : BitVec 36) (data : BitVec 512) (poisoned : Bool) (linkOk : Bool) (s : State) : exec (.cxlMemWrite h data poisoned linkOk) s = execCxlMemWrite h data poisoned linkOk s := rfl
@[simp] theorem exec_hostPathErrClear (again : Bool) (s : State) : exec (.hostPathErrClear again) s = execHostPathErrClear again s := rfl
@[simp] theorem exec_hostPathWdropClear (again : Bool) (s : State) : exec (.hostPathWdropClear again) s = execHostPathWdropClear again s := rfl
@[simp] theorem exec_pdMeshErrClear (d : DieId) (again : Bool) (s : State) : exec (.pdMeshErrClear d again) s = execPdMeshErrClear d again s := rfl
@[simp] theorem exec_chunk (d : DieId) (port : PortId) (m : Msg) (s : State) : exec (.chunk d port m) s = execChunk d port m s := rfl
@[simp] theorem exec_manifestPart (d : DieId) (port : PortId) (m : Msg) (s : State) : exec (.manifestPart d port m) s = execManifestPart d port m s := rfl
@[simp] theorem exec_nack (d : DieId) (port : PortId) (h : BitVec 512) (s : State) : exec (.nack d port h) s = execNack d port h s := rfl
@[simp] theorem exec_endMsg (d : DieId) (port : PortId) (h : BitVec 512) (s : State) : exec (.endMsg d port h) s = execEndMsg d port h s := rfl
@[simp] theorem exec_chunkReqRetry (d : DieId) (tag : BitVec 32) (s : State) : exec (.chunkReqRetry d tag) s = execChunkReqRetry d tag s := rfl
@[simp] theorem exec_weightTimeout (d : DieId) (tag : BitVec 32) (s : State) : exec (.weightTimeout d tag) s = execWeightTimeout d tag s := rfl
@[simp] theorem exec_bcastWaitExpire (s : State) : exec (.bcastWaitExpire) s = execBcastWaitExpire s := rfl
@[simp] theorem exec_chunkStageComplete (d : DieId) (k : StagedChunk) (s : State) : exec (.chunkStageComplete d k) s = execChunkStageComplete d k s := rfl
@[simp] theorem exec_epochRelease (number : BitVec 16) (s : State) : exec (.epochRelease number) s = execEpochRelease number s := rfl
@[simp] theorem exec_maskMessage (d : DieId) (m : MeshMsg) (s : State) : exec (.maskMessage d m) s = execMaskMessage d m s := rfl
@[simp] theorem exec_focusCtlClear (s : State) : exec (.focusCtlClear) s = execFocusCtlClear s := rfl
@[simp] theorem exec_intakeMessage (d : DieId) (m : MeshMsg) (s : State) : exec (.intakeMessage d m) s = execIntakeMessage d m s := rfl
@[simp] theorem exec_grant (d : DieId) (plane : Fin 2) (h : BitVec 512) (s : State) : exec (.grant d plane h) s = execGrant d plane h s := rfl
@[simp] theorem exec_refuse (d : DieId) (h : BitVec 512) (s : State) : exec (.refuse d h) s = execRefuse d h s := rfl
@[simp] theorem exec_redData (d : DieId) (m : Msg) (s : State) : exec (.redData d m) s = execRedData d m s := rfl
@[simp] theorem exec_result (d : DieId) (h : BitVec 512) (s : State) : exec (.result d h) s = execResult d h s := rfl
@[simp] theorem exec_redTimeout (sk : Nat) (s : State) : exec (.redTimeout sk) s = execRedTimeout sk s := rfl
@[simp] theorem exec_redShardLost (s : State) : exec (.redShardLost) s = execRedShardLost s := rfl
@[simp] theorem exec_barrier (q : QueueId) (list : List (BitVec 16)) (s : State) : exec (.barrier q list) s = execBarrier q list s := rfl
@[simp] theorem exec_broadcast (q : QueueId) (list : List (BitVec 16)) (s : State) : exec (.broadcast q list) s = execBroadcast q list s := rfl
@[simp] theorem exec_allGather (q : QueueId) (list : List (BitVec 16)) (s : State) : exec (.allGather q list) s = execAllGather q list s := rfl
@[simp] theorem exec_reduceScatter (q : QueueId) (list : List (BitVec 16)) (s : State) : exec (.reduceScatter q list) s = execReduceScatter q list s := rfl
@[simp] theorem exec_bind (q : QueueId) (list : List (BitVec 16)) (s : State) : exec (.bind q list) s = execBind q list s := rfl
@[simp] theorem exec_unbind (q : QueueId) (list : List (BitVec 16)) (s : State) : exec (.unbind q list) s = execUnbind q list s := rfl
@[simp] theorem exec_collData (d : DieId) (m : Msg) (s : State) : exec (.collData d m) s = execCollData d m s := rfl
@[simp] theorem exec_join (d : DieId) (h : BitVec 512) (s : State) : exec (.join d h) s = execJoin d h s := rfl
@[simp] theorem exec_ready (d : DieId) (h : BitVec 512) (s : State) : exec (.ready d h) s = execReady d h s := rfl
@[simp] theorem exec_commit (d : DieId) (h : BitVec 512) (s : State) : exec (.commit d h) s = execCommit d h s := rfl
@[simp] theorem exec_collAbortFrame (d : DieId) (h : BitVec 512) (s : State) : exec (.collAbortFrame d h) s = execCollAbortFrame d h s := rfl
@[simp] theorem exec_collAbortAck (d : DieId) (h : BitVec 512) (s : State) : exec (.collAbortAck d h) s = execCollAbortAck d h s := rfl
@[simp] theorem exec_dispose (d : DieId) (h : BitVec 512) (s : State) : exec (.dispose d h) s = execDispose d h s := rfl
@[simp] theorem exec_already (d : DieId) (h : BitVec 512) (s : State) : exec (.already d h) s = execAlready d h s := rfl
@[simp] theorem exec_escalate (d : DieId) (h : BitVec 512) (s : State) : exec (.escalate d h) s = execEscalate d h s := rfl
@[simp] theorem exec_syncUpdate (d : DieId) (h : BitVec 512) (s : State) : exec (.syncUpdate d h) s = execSyncUpdate d h s := rfl
@[simp] theorem exec_collTimeout (id : CollId) (s : State) : exec (.collTimeout id) s = execCollTimeout id s := rfl
@[simp] theorem exec_collHalfTimeout (id : CollId) (s : State) : exec (.collHalfTimeout id) s = execCollHalfTimeout id s := rfl
@[simp] theorem exec_collAbortedTimeout (id : CollId) (s : State) : exec (.collAbortedTimeout id) s = execCollAbortedTimeout id s := rfl
@[simp] theorem exec_leaderSilenceTimeout (id : CollId) (s : State) : exec (.leaderSilenceTimeout id) s = execLeaderSilenceTimeout id s := rfl
@[simp] theorem exec_collAbort (tag : BitVec 32) (s : State) : exec (.collAbort tag) s = execCollAbort tag s := rfl
@[simp] theorem exec_portPresent (p : PortId) (passive : Bool) (s : State) : exec (.portPresent p passive) s = execPortPresent p passive s := rfl
@[simp] theorem exec_portRemoved (p : PortId) (s : State) : exec (.portRemoved p) s = execPortRemoved p s := rfl
@[simp] theorem exec_modulePowered (p : PortId) (s : State) : exec (.modulePowered p) s = execModulePowered p s := rfl
@[simp] theorem exec_linkModule (p : PortId) (s : State) : exec (.linkModule p) s = execLinkModule p s := rfl
@[simp] theorem exec_trainLock (p : PortId) (lanes : BitVec 8) (partnerFour : Bool) (s : State) : exec (.trainLock p lanes partnerFour) s = execTrainLock p lanes partnerFour s := rfl
@[simp] theorem exec_trainTimeout (p : PortId) (s : State) : exec (.trainTimeout p) s = execTrainTimeout p s := rfl
@[simp] theorem exec_hello (p : PortId) (h : BitVec 512) (s : State) : exec (.hello p h) s = execHello p h s := rfl
@[simp] theorem exec_helloResend (p : PortId) (s : State) : exec (.helloResend p) s = execHelloResend p s := rfl
@[simp] theorem exec_helloTimeout (p : PortId) (s : State) : exec (.helloTimeout p) s = execHelloTimeout p s := rfl
@[simp] theorem exec_lockLost (p : PortId) (loss : LockLoss) (s : State) : exec (.lockLost p loss) s = execLockLost p loss s := rfl
@[simp] theorem exec_retrainTimeout (p : PortId) (s : State) : exec (.retrainTimeout p) s = execRetrainTimeout p s := rfl
@[simp] theorem exec_downRetry (p : PortId) (s : State) : exec (.downRetry p) s = execDownRetry p s := rfl
@[simp] theorem exec_laneSerWindow (p : PortId) (high : BitVec 8) (s : State) : exec (.laneSerWindow p high) s = execLaneSerWindow p high s := rfl
@[simp] theorem exec_flitReceive (p : PortId) (flit : BitVec 2176) (uncorrectable : Bool) (s : State) : exec (.flitReceive p flit uncorrectable) s = execFlitReceive p flit uncorrectable s := rfl
@[simp] theorem exec_flitTransmit (p : PortId) (s : State) : exec (.flitTransmit p) s = execFlitTransmit p s := rfl
@[simp] theorem exec_replayTimeout (p : PortId) (s : State) : exec (.replayTimeout p) s = execReplayTimeout p s := rfl
@[simp] theorem exec_leave (p : PortId) (h : BitVec 512) (s : State) : exec (.leave p h) s = execLeave p h s := rfl
@[simp] theorem exec_unreach (p : PortId) (h : BitVec 512) (s : State) : exec (.unreach p h) s = execUnreach p h s := rfl
@[simp] theorem exec_reach (p : PortId) (h : BitVec 512) (s : State) : exec (.reach p h) s = execReach p h s := rfl
@[simp] theorem exec_azCtlWiden (p : PortId) (s : State) : exec (.azCtlWiden p) s = execAzCtlWiden p s := rfl
@[simp] theorem exec_azCtlRetrain (p : PortId) (s : State) : exec (.azCtlRetrain p) s = execAzCtlRetrain p s := rfl
@[simp] theorem exec_azCtlDisable (p : PortId) (v : Bool) (s : State) : exec (.azCtlDisable p v) s = execAzCtlDisable p v s := rfl
@[simp] theorem exec_azCtlLocate (p : PortId) (v : Bool) (s : State) : exec (.azCtlLocate p v) s = execAzCtlLocate p v s := rfl
@[simp] theorem exec_leaveTimeout (p : PortId) (s : State) : exec (.leaveTimeout p) s = execLeaveTimeout p s := rfl
@[simp] theorem exec_loadProgram (q : QueueId) (s : State) : exec (.loadProgram q) s = execLoadProgram q s := rfl
@[simp] theorem exec_imageValidationDone (bytes : List Byte) (s : State) : exec (.imageValidationDone bytes) s = execImageValidationDone bytes s := rfl
@[simp] theorem exec_runPass (q : QueueId) (table : List Byte) (s : State) : exec (.runPass q table) s = execRunPass q table s := rfl
@[simp] theorem exec_signalSyncAdd (q : QueueId) (s : State) : exec (.signalSyncAdd q) s = execSignalSyncAdd q s := rfl
@[simp] theorem exec_signalSyncSet (q : QueueId) (s : State) : exec (.signalSyncSet q) s = execSignalSyncSet q s := rfl
@[simp] theorem exec_signalSyncTarget (q : QueueId) (s : State) : exec (.signalSyncTarget q) s = execSignalSyncTarget q s := rfl
@[simp] theorem exec_waitSync (q : QueueId) (s : State) : exec (.waitSync q) s = execWaitSync q s := rfl
@[simp] theorem exec_waitTimeout (w : WaitLimit) (s : State) : exec (.waitTimeout w) s = execWaitTimeout w s := rfl
@[simp] theorem exec_copyDesc (q : QueueId) (s : State) : exec (.copyDesc q) s = execCopyDesc q s := rfl
@[simp] theorem exec_fillDesc (q : QueueId) (s : State) : exec (.fillDesc q) s = execFillDesc q s := rfl
@[simp] theorem exec_copyFillDone (n : Nat) (data : List Byte) (fin : CopyEnd) (s : State) : exec (.copyFillDone n data fin) s = execCopyFillDone n data fin s := rfl
@[simp] theorem exec_epochSwitch (q : QueueId) (s : State) : exec (.epochSwitch q) s = execEpochSwitch q s := rfl
@[simp] theorem exec_epochSwitchAdapter (q : QueueId) (s : State) : exec (.epochSwitchAdapter q) s = execEpochSwitchAdapter q s := rfl
@[simp] theorem exec_descriptorFetch (q : QueueId) (r : FetchResult) (s : State) : exec (.descriptorFetch q r) s = execDescriptorFetch q r s := rfl
@[simp] theorem exec_qTailWrite (q : QueueId) (v : BitVec 32) (s : State) : exec (.qTailWrite q v) s = execQTailWrite q v s := rfl
@[simp] theorem exec_queueEnable (q : QueueId) (v : BitVec 32) (s : State) : exec (.queueEnable q v) s = execQueueEnable q v s := rfl
@[simp] theorem exec_queueDisable (q : QueueId) (v : BitVec 32) (s : State) : exec (.queueDisable q v) s = execQueueDisable q v s := rfl
@[simp] theorem exec_abiSelWrite (v : BitVec 32) (s : State) : exec (.abiSelWrite v) s = execAbiSelWrite v s := rfl
@[simp] theorem exec_mbxDataWrite (m : MbxId) (v : BitVec 32) (s : State) : exec (.mbxDataWrite m v) s = execMbxDataWrite m v s := rfl
@[simp] theorem exec_mailboxTake (m : MbxId) (code : BitVec 16) (s : State) : exec (.mailboxTake m code) s = execMailboxTake m code s := rfl
@[simp] theorem exec_mailboxPost (m : MbxId) (v : BitVec 32) (s : State) : exec (.mailboxPost m v) s = execMailboxPost m v s := rfl
@[simp] theorem exec_mbxFullClear (m : MbxId) (s : State) : exec (.mbxFullClear m) s = execMbxFullClear m s := rfl
@[simp] theorem exec_mbxRejClear (m : MbxId) (again : Bool) (s : State) : exec (.mbxRejClear m again) s = execMbxRejClear m again s := rfl
@[simp] theorem exec_mailboxDomainOff (m : MbxId) (s : State) : exec (.mailboxDomainOff m) s = execMailboxDomainOff m s := rfl
@[simp] theorem exec_ping (m : MbxId) (s : State) : exec (.ping m) s = execPing m s := rfl
@[simp] theorem exec_queueReset (m : MbxId) (s : State) : exec (.queueReset m) s = execQueueReset m s := rfl
@[simp] theorem exec_drain (m : MbxId) (s : State) : exec (.drain m) s = execDrain m s := rfl
@[simp] theorem exec_resume (m : MbxId) (s : State) : exec (.resume m) s = execResume m s := rfl
@[simp] theorem exec_abortPass (m : MbxId) (s : State) : exec (.abortPass m) s = execAbortPass m s := rfl
@[simp] theorem exec_loupePing (s : State) : exec (.loupePing) s = execLoupePing s := rfl
@[simp] theorem exec_attest (s : State) : exec (.attest) s = execAttest s := rfl
@[simp] theorem exec_getCert (s : State) : exec (.getCert) s = execGetCert s := rfl
@[simp] theorem exec_stageConfig (bank : List Byte) (s : State) : exec (.stageConfig bank) s = execStageConfig bank s := rfl
@[simp] theorem exec_locate (s : State) : exec (.locate) s = execLocate s := rfl
@[simp] theorem exec_cxlReset (s : State) : exec (.cxlReset) s = execCxlReset s := rfl
@[simp] theorem exec_cxlLinkDown (s : State) : exec (.cxlLinkDown) s = execCxlLinkDown s := rfl
@[simp] theorem exec_msixUnmask (v : Option (Fin 64)) (s : State) : exec (.msixUnmask v) s = execMsixUnmask v s := rfl
@[simp] theorem exec_unsupportedAccess (off : BitVec 26) (size : Nat) (write : Bool) (s : State) : exec (.unsupportedAccess off size write) s = execUnsupportedAccess off size write s := rfl
@[simp] theorem exec_lowWordRead (req : Nat) (r : ReadAt) (s : State) : exec (.lowWordRead req r) s = execLowWordRead req r s := rfl
@[simp] theorem exec_rcCounterRead (req : Nat) (off : BitVec 26) (events : ReadEvents) (s : State) : exec (.rcCounterRead req off events) s = execRcCounterRead req off events s := rfl
@[simp] theorem exec_registerWrite (off : BitVec 26) (v : RegWrite) (s : State) : exec (.registerWrite off v) s = execRegisterWrite off v s := rfl
@[simp] theorem exec_loupeTick (t : TickSample) (s : State) : exec (.loupeTick t) s = execLoupeTick t s := rfl
@[simp] theorem exec_dutyLastResort (s : State) : exec (.dutyLastResort) s = execDutyLastResort s := rfl
@[simp] theorem exec_feedVoltageChange (f : FeedId) (dV : Nat) (s : State) : exec (.feedVoltageChange f dV) s = execFeedVoltageChange f dV s := rfl
@[simp] theorem exec_feedQualified (f : FeedId) (s : State) : exec (.feedQualified f) s = execFeedQualified f s := rfl
@[simp] theorem exec_pwrStageFault (k : StageId) (s : State) : exec (.pwrStageFault k) s = execPwrStageFault k s := rfl
@[simp] theorem exec_stageLatchOpen (k : StageId) (s : State) : exec (.stageLatchOpen k) s = execStageLatchOpen k s := rfl
@[simp] theorem exec_stageJoin (k : StageId) (s : State) : exec (.stageJoin k) s = execStageJoin k s := rfl
@[simp] theorem exec_efuseTrip (t : PhysTile) (cause : TripCause) (s : State) : exec (.efuseTrip t cause) s = execEfuseTrip t cause s := rfl
@[simp] theorem exec_throttleEvaluation (s : State) : exec (.throttleEvaluation) s = execThrottleEvaluation s := rfl
@[simp] theorem exec_fanFailure (n : FanId) (s : State) : exec (.fanFailure n) s = execFanFailure n s := rfl
@[simp] theorem exec_fanLatchOpen (n : FanId) (s : State) : exec (.fanLatchOpen n) s = execFanLatchOpen n s := rfl
@[simp] theorem exec_fanInsert (n : FanId) (s : State) : exec (.fanInsert n) s = execFanInsert n s := rfl
@[simp] theorem exec_coolingDegraded (s : State) : exec (.coolingDegraded) s = execCoolingDegraded s := rfl
@[simp] theorem exec_coolingClear (s : State) : exec (.coolingClear) s = execCoolingClear s := rfl
@[simp] theorem exec_setPowerLimits (l : PowerLimits) (s : State) : exec (.setPowerLimits l) s = execSetPowerLimits l s := rfl
@[simp] theorem exec_clearPowerLimits (s : State) : exec (.clearPowerLimits) s = execClearPowerLimits s := rfl
@[simp] theorem exec_standbyPowerApplied (s : State) : exec (.standbyPowerApplied) s = execStandbyPowerApplied s := rfl
@[simp] theorem exec_grantPermission (mgr : Fin 2) (s : State) : exec (.grantPermission mgr) s = execGrantPermission mgr s := rfl
@[simp] theorem exec_revokePermission (mgr : Fin 2) (s : State) : exec (.revokePermission mgr) s = execRevokePermission mgr s := rfl
@[simp] theorem exec_waveComplete (r : List TileTest) (s : State) : exec (.waveComplete r) s = execWaveComplete r s := rfl
@[simp] theorem exec_calibrationComplete (failed : Option TileId) (s : State) : exec (.calibrationComplete failed) s = execCalibrationComplete failed s := rfl
@[simp] theorem exec_drainAction (s : State) : exec (.drainAction) s = execDrainAction s := rfl
@[simp] theorem exec_resumeAction (s : State) : exec (.resumeAction) s = execResumeAction s := rfl
@[simp] theorem exec_coldRestart (s : State) : exec (.coldRestart) s = execColdRestart s := rfl
@[simp] theorem exec_powerOff (s : State) : exec (.powerOff) s = execPowerOff s := rfl
@[simp] theorem exec_forceOff (s : State) : exec (.forceOff) s = execForceOff s := rfl
@[simp] theorem exec_powerDownWave (s : State) : exec (.powerDownWave) s = execPowerDownWave s := rfl
@[simp] theorem exec_stageConfiguration (bank : List Byte) (mode : StageMode) (s : State) : exec (.stageConfiguration bank mode) s = execStageConfiguration bank mode s := rfl
@[simp] theorem exec_firmwareStage (b : Bundle) (s : State) : exec (.firmwareStage b) s = execFirmwareStage b s := rfl
@[simp] theorem exec_firmwareActivate (mode : StageMode) (s : State) : exec (.firmwareActivate mode) s = execFirmwareActivate mode s := rfl
@[simp] theorem exec_fwComponentReady (k : FwComponent) (s : State) : exec (.fwComponentReady k) s = execFwComponentReady k s := rfl
@[simp] theorem exec_fwActivate (k : FwComponent) (s : State) : exec (.fwActivate k) s = execFwActivate k s := rfl
@[simp] theorem exec_darningColumnTestDone (ci : ClusterId) (row : Fin 8) (pass : Bool) (s : State) : exec (.darningColumnTestDone ci row pass) s = execDarningColumnTestDone ci row pass s := rfl
@[simp] theorem exec_darningTileTestDone (d : Fin 2) (r : TileTest) (s : State) : exec (.darningTileTestDone d r) s = execDarningTileTestDone d r s := rfl
@[simp] theorem exec_imageRereadDone (t : TileId) (bytes : List Byte) (s : State) : exec (.imageRereadDone t bytes) s = execImageRereadDone t bytes s := rfl
@[simp] theorem exec_efuseRestoreTimer (t : PhysTile) (s : State) : exec (.efuseRestoreTimer t) s = execEfuseRestoreTimer t s := rfl
@[simp] theorem exec_loupeWatchdogExpire (s : State) : exec (.loupeWatchdogExpire) s = execLoupeWatchdogExpire s := rfl
@[simp] theorem exec_loupeRecoveryTimeout (s : State) : exec (.loupeRecoveryTimeout) s = execLoupeRecoveryTimeout s := rfl
@[simp] theorem exec_earlyBreak (s : State) : exec (.earlyBreak) s = execEarlyBreak s := rfl
@[simp] theorem exec_earlyBreakPowerOff (s : State) : exec (.earlyBreakPowerOff) s = execEarlyBreakPowerOff s := rfl
@[simp] theorem exec_seatedOpen (s : State) : exec (.seatedOpen) s = execSeatedOpen s := rfl
@[simp] theorem exec_leverClose (openMs : Nat) (seated : Bool) (s : State) : exec (.leverClose openMs seated) s = execLeverClose openMs seated s := rfl
@[simp] theorem exec_cartridgeInsert (c : Cartridge) (s : State) : exec (.cartridgeInsert c) s = execCartridgeInsert c s := rfl
@[simp] theorem exec_locatePress (s : State) : exec (.locatePress) s = execLocatePress s := rfl
@[simp] theorem exec_locateHold (s : State) : exec (.locateHold) s = execLocateHold s := rfl
@[simp] theorem exec_drainPress (s : State) : exec (.drainPress) s = execDrainPress s := rfl
@[simp] theorem exec_drainHold (s : State) : exec (.drainHold) s = execDrainHold s := rfl
@[simp] theorem exec_presenceWindowExpire (s : State) : exec (.presenceWindowExpire) s = execPresenceWindowExpire s := rfl
@[simp] theorem exec_enrollKey (slot : BitVec 8) (pub : List Byte) (s : State) : exec (.enrollKey slot pub) s = execEnrollKey slot pub s := rfl
@[simp] theorem exec_revokeKey (slot : BitVec 8) (s : State) : exec (.revokeKey slot) s = execRevokeKey slot s := rfl
@[simp] theorem exec_raiseObjectVersion (v : Nat) (s : State) : exec (.raiseObjectVersion v) s = execRaiseObjectVersion v s := rfl
@[simp] theorem exec_setPanelLock (v : Patch ChassisSet) (s : State) : exec (.setPanelLock v) s = execSetPanelLock v s := rfl
@[simp] theorem exec_clockSet (time : Patch Nat) (s : State) : exec (.clockSet time) s = execClockSet time s := rfl
@[simp] theorem exec_clientConnect (c : Client) (s : State) : exec (.clientConnect c) s = execClientConnect c s := rfl
@[simp] theorem exec_eventPushRetry (sub : PushOf) (delivered : Bool) (s : State) : exec (.eventPushRetry sub delivered) s = execEventPushRetry sub delivered s := rfl
@[simp] theorem exec_stitchBankLoaded (n : MeshNode) (s : State) : exec (.stitchBankLoaded n) s = execStitchBankLoaded n s := rfl
@[simp] theorem exec_syncUnitSend (c : CoreId) (s : State) : exec (.syncUnitSend c) s = execSyncUnitSend c s := rfl
@[simp] theorem exec_cartridgeRemove (s : State) : exec (.cartridgeRemove) s = execCartridgeRemove s := rfl
@[simp] theorem exec_hostDieLost (s : State) : exec (.hostDieLost) s = execHostDieLost s := rfl
@[simp] theorem exec_loupeRestartDone (s : State) : exec (.loupeRestartDone) s = execLoupeRestartDone s := rfl
@[simp] theorem exec_mbxDataRead (m : MbxId) (ack : Bool) (s : State) : exec (.mbxDataRead m ack) s = execMbxDataRead m ack s := rfl
@[simp] theorem exec_installCertificate (k : CertItem) (s : State) : exec (.installCertificate k) s = execInstallCertificate k s := rfl
@[simp] theorem exec_eventSubscription (create : Bool) (sub : Nat) (s : State) : exec (.eventSubscription create sub) s = execEventSubscription create sub s := rfl

end Sys2Proof.Machine
end

