-- ==== Sys2Proof/Laws/Issue.lean ====
section
/-! SUPPORT. What the shared operation of every core instruction can do: an attempt that changes nothing, a fault, or an issue. -/

namespace Sys2Proof.Machine

open Sys2Proof

/-- An attempt to issue always answers a next state. -/
theorem issue_next (c : CoreId) (ss vs : List Reg) (f : State → Core → Act) (s : State) : ∃ t, issue c ss vs f s = .next t := by
  unfold issue
  dsimp only
  split
  · exact ⟨_, rfl⟩
  · split
    · exact ⟨_, rfl⟩
    · split <;> exact ⟨_, rfl⟩

/-- A core that can issue passes the guard. -/
theorem guard_open {s : State} {c : CoreId} {ss vs : List Reg} (h : CanIssue s c ss vs) :
    ((s.core c).run != .running || (s.core c).units.wait.isSome || ss.any (busyS (s.core c).units)
      || vs.any (busyV (s.core c).units)) = false
    ∧ ¬ (s.core c).text.length ≤ (s.core c).regs.pc.toNat := by
  obtain ⟨hr, hw, hs, hv, hp⟩ := h
  refine ⟨?_, by omega⟩
  have a1 : ss.any (busyS (s.core c).units) = false := by simpa [List.any_eq_false] using hs
  have a2 : vs.any (busyV (s.core c).units) = false := by simpa [List.any_eq_false] using hv
  simp [hr, hw, a1, a2]

/-- A stall leaves the state as it is. -/
theorem issue_stall {s : State} {c : CoreId} {ss vs : List Reg} {f : State → Core → Act} (h : CanIssue s c ss vs)
    (hf : f s (s.core c) = .stall) : issue c ss vs f s = .next s := by
  obtain ⟨a, b⟩ := guard_open h
  simp [issue, a, b, hf]

/-- A fault stops the core with its record. -/
theorem issue_fault {s : State} {c : CoreId} {ss vs : List Reg} {f : State → Core → Act} {unit : Nat} {code : BitVec 16}
    {addr : Nat} (h : CanIssue s c ss vs) (hf : f s (s.core c) = .fault unit code addr) :
    issue c ss vs f s = .next (coreFault c unit code (s.core c).regs.pc addr s) := by
  obtain ⟨a, b⟩ := guard_open h
  simp [issue, a, b, hf]

/-- An instruction that issues, with no parity error and with its next PC in the program or its core no longer running. -/
theorem issue_go {s : State} {c : CoreId} {ss vs : List Reg} {f : State → Core → Act} {k : Core} {pc cost used : Nat}
    (h : CanIssue s c ss vs) (hf : f s (s.core c) = .go k pc cost used false)
    (hp : k.run ≠ .running ∨ pc < (s.core c).text.length) :
    ∃ t, issue c ss vs f s = .next t ∧ Issued s c k pc t := by
  obtain ⟨a, b⟩ := guard_open h
  have hn : ¬ (k.run = .running ∧ (s.core c).text.length ≤ pc) := by
    rintro ⟨x, y⟩
    rcases hp with hp | hp
    · exact hp x
    · omega
  refine ⟨(s.setCore c { k with
      regs := { k.regs with pc := BitVec.ofNat 11 pc },
      cnt := { k.cnt with cycle := k.cnt.cycle + BitVec.ofNat 64 (cost + Config.freeCycles (s.free + used)),
                          instret := k.cnt.instret + 1 } }).took (used + 1), ?_, rfl, ?_,
    ⟨k.cnt.cycle + BitVec.ofNat 64 (cost + Config.freeCycles (s.free + used)), ?_⟩⟩
  · unfold issue
    simp only [a, b, hf, Bool.false_eq_true, if_false]
    rw [if_neg (by simpa using hn)]
  · intro c' hc
    rw [State.core_took, State.core_setCore_other _ _ hc]
  · rw [State.core_took, State.core_setCore_same]

end Sys2Proof.Machine
end

