-- ==== Sys2Proof/Laws/Memory.lean ====
section
/-! SUPPORT. The laws of memory: a read after a write, the bytes that a write leaves alone, and the canonical form, which
every operation on stacked memory keeps. -/

namespace Sys2Proof.Machine

open Sys2Proof

/-! ### Reading cells -/

theorem cellGet_append (l m : List Host.Cell) (a : Nat) :
    cellGet (l ++ m) a = match cellGet l a with | some b => some b | none => cellGet m a := by
  induction l with
  | nil => rfl
  | cons e t ih =>
    obtain ⟨x, b⟩ := e
    by_cases h : a = x
    · simp [cellGet, h]
    · simp [cellGet, h, ih]

/-- A filter that keeps every cell of an address does not change what is read there. -/
theorem cellGet_filter_keep (cs : List Host.Cell) (p : Host.Cell → Bool) (a : Nat) (h : ∀ b, p (a, b) = true) :
    cellGet (cs.filter p) a = cellGet cs a := by
  induction cs with
  | nil => rfl
  | cons e t ih =>
    obtain ⟨x, b⟩ := e
    by_cases hx : a = x
    · subst hx
      simp [h, cellGet]
    · by_cases hp : p (x, b) = true
      · simp [hp, cellGet, hx, ih]
      · simp [hp, cellGet, hx, ih]

/-- A filter that drops every cell of an address leaves none there. -/
theorem cellGet_filter_drop (cs : List Host.Cell) (p : Host.Cell → Bool) (a : Nat) (h : ∀ b, p (a, b) = false) :
    cellGet (cs.filter p) a = none := by
  induction cs with
  | nil => rfl
  | cons e t ih =>
    obtain ⟨x, b⟩ := e
    by_cases hx : a = x
    · subst hx
      simp [h, ih]
    · by_cases hp : p (x, b) = true
      · simp [hp, cellGet, hx, ih]
      · simp [hp, ih]

/-- Bytes laid out from an address read back. -/
theorem cellGet_cellsOf (bs : List Byte) (a i : Nat) (h : i < bs.length) : cellGet (cellsOf a bs) (a + i) = some bs[i] := by
  induction bs generalizing a i with
  | nil => simp at h
  | cons b t ih =>
    cases i with
    | zero => simp [cellsOf, cellGet]
    | succ j =>
      have hj : j < t.length := by simpa using h
      have e : a + (j + 1) = (a + 1) + j := by omega
      have n : ¬ a + (j + 1) = a := by omega
      simp only [cellsOf, cellGet, n, if_false]
      rw [e, ih (a + 1) j hj]
      rfl

/-- Nothing is laid out outside their range. -/
theorem cellGet_cellsOf_out (bs : List Byte) (a x : Nat) (h : x < a ∨ a + bs.length ≤ x) : cellGet (cellsOf a bs) x = none := by
  induction bs generalizing a with
  | nil => rfl
  | cons b t ih =>
    have n : ¬ x = a := by
      simp only [List.length_cons] at h
      omega
    simp only [cellsOf, cellGet, n, if_false]
    apply ih
    simp only [List.length_cons] at h
    omega

/-- Within its range a splice reads the new cells. -/
theorem cellGet_splice_in (cs new : List Host.Cell) {lo hi a : Nat} (h1 : lo ≤ a) (h2 : a < hi) :
    cellGet (cellSplice cs lo hi new) a = cellGet new a := by
  have d1 : cellGet (cs.filter fun c => decide (c.1 < lo)) a = none :=
    cellGet_filter_drop _ _ _ fun b => by simp; omega
  have d2 : cellGet (cs.filter fun c => decide (hi ≤ c.1)) a = none :=
    cellGet_filter_drop _ _ _ fun b => by simp; omega
  simp only [cellSplice, cellGet_append, d1, d2]
  cases cellGet new a <;> rfl

/-- Outside it a splice whose new cells lie within it reads as before. -/
theorem cellGet_splice_out (cs new : List Host.Cell) {lo hi a : Nat} (h : a < lo ∨ hi ≤ a) (hl : lo ≤ hi)
    (hn : cellGet new a = none) : cellGet (cellSplice cs lo hi new) a = cellGet cs a := by
  rcases h with h | h
  · have k1 : cellGet (cs.filter fun c => decide (c.1 < lo)) a = cellGet cs a :=
      cellGet_filter_keep _ _ _ fun b => by simp [h]
    have d2 : cellGet (cs.filter fun c => decide (hi ≤ c.1)) a = none :=
      cellGet_filter_drop _ _ _ fun b => by simp; omega
    simp only [cellSplice, cellGet_append, k1, d2, hn]
    cases cellGet cs a <;> rfl
  · have d1 : cellGet (cs.filter fun c => decide (c.1 < lo)) a = none :=
      cellGet_filter_drop _ _ _ fun b => by simp; omega
    have k2 : cellGet (cs.filter fun c => decide (hi ≤ c.1)) a = cellGet cs a :=
      cellGet_filter_keep _ _ _ fun b => by simp [h]
    simp only [cellSplice, cellGet_append, d1, k2, hn]

/-- Bytes that are all listed are read with no free value. -/
theorem readBytes_listed (look : Nat → Option Byte) (bs : List Byte) (a f : Nat)
    (h : ∀ i (hi : i < bs.length), look (a + i) = some bs[i]) : readBytes look a bs.length f = (bs, f) := by
  induction bs generalizing a with
  | nil => rfl
  | cons b t ih =>
    have h0 : look a = some b := h 0 (by simp)
    have ht : readBytes look (a + 1) t.length f = (t, f) := by
      apply ih
      intro i hi
      have := h (i + 1) (by simpa using hi)
      rw [show a + 1 + i = a + (i + 1) by omega]
      simpa using this
    simp [readBytes, h0, ht]

/-! ### The scratchpad -/

/-- A byte written reads back. -/
theorem spadPut_in (k : Core) (a : Nat) (bs : List Byte) (i : Nat) (h : i < bs.length) :
    cellGet (k.spadPut a bs).spad.cells (a + i) = some bs[i] := by
  simp only [Core.spadPut]
  rw [cellGet_splice_in _ _ (by omega) (by omega), cellGet_cellsOf _ _ _ h]

/-- Every other byte is as before. -/
theorem spadPut_out (k : Core) (a : Nat) (bs : List Byte) (x : Nat) (h : x < a ∨ a + bs.length ≤ x) :
    cellGet (k.spadPut a bs).spad.cells x = cellGet k.spad.cells x := by
  simp only [Core.spadPut]
  exact cellGet_splice_out _ _ h (by omega) (cellGet_cellsOf_out _ _ _ h)

/-- With no word upset, no read finds a parity error. -/
theorem parity_clean (k : Core) (unit lo hi : Nat) (h : k.spad.upset = []) : k.parity unit lo hi = (k, false) := by
  simp [Core.parity, h]

/-- Reading bytes that are all written, with no word upset. -/
theorem spadGet_listed (k : Core) (unit a f : Nat) (bs : List Byte) (hu : k.spad.upset = [])
    (h : ∀ i (hi : i < bs.length), cellGet k.spad.cells (a + i) = some bs[i]) :
    k.spadGet unit a bs.length f = ⟨bs, k, f, false⟩ := by
  have r := readBytes_listed (cellGet k.spad.cells) bs a f h
  simp only [Core.spadGet, r]
  split <;> simp [parity_clean k _ _ _ hu]

@[simp] theorem leBytes_length (n v : Nat) : (leBytes n v).length = n := by
  induction n generalizing v with
  | zero => rfl
  | succ n ih => simp [leBytes, ih]

/-! ### The canonical form of stacked memory -/

theorem rise_cons (c : Host.Cell) (t : List Host.Cell) :
    cellsRise (c :: t) = true ↔ (∀ d ∈ t, c.1 < d.1) ∧ cellsRise t = true := by
  induction t generalizing c with
  | nil => simp [cellsRise]
  | cons d t ih =>
    obtain ⟨a, b⟩ := c
    obtain ⟨x, y⟩ := d
    have e : cellsRise ((a, b) :: (x, y) :: t) = (decide (a < x) && cellsRise ((x, y) :: t)) := rfl
    rw [e]
    simp only [Bool.and_eq_true, decide_eq_true_eq]
    constructor
    · rintro ⟨h1, h2⟩
      refine ⟨?_, h2⟩
      intro z hz
      rcases List.mem_cons.mp hz with rfl | hz
      · exact h1
      · have := ((ih (x, y)).mp h2).1 z hz
        simp only at this ⊢
        omega
    · rintro ⟨h1, h2⟩
      exact ⟨h1 (x, y) (by simp), h2⟩

theorem rise_filter (p : Host.Cell → Bool) (l : List Host.Cell) (h : cellsRise l = true) : cellsRise (l.filter p) = true := by
  induction l with
  | nil => rfl
  | cons c t ih =>
    obtain ⟨h1, h2⟩ := (rise_cons c t).mp h
    by_cases hp : p c = true
    · simp only [List.filter_cons, hp, if_true]
      refine (rise_cons _ _).mpr ⟨fun d hd => h1 d (List.mem_filter.mp hd).1, ih h2⟩
    · simpa [List.filter_cons, hp] using ih h2

theorem rise_append (l m : List Host.Cell) (hl : cellsRise l = true) (hm : cellsRise m = true)
    (h : ∀ c ∈ l, ∀ d ∈ m, c.1 < d.1) : cellsRise (l ++ m) = true := by
  induction l with
  | nil => simpa using hm
  | cons c t ih =>
    obtain ⟨h1, h2⟩ := (rise_cons c t).mp hl
    refine (rise_cons _ _).mpr ⟨?_, ih h2 fun x hx d hd => h x (by simp [hx]) d hd⟩
    intro d hd
    rcases List.mem_append.mp hd with hd | hd
    · exact h1 d hd
    · exact h c (by simp) d hd

theorem mem_cellsOf (bs : List Byte) (a : Nat) (c : Host.Cell) (h : c ∈ cellsOf a bs) : a ≤ c.1 ∧ c.1 < a + bs.length := by
  induction bs generalizing a with
  | nil => simp [cellsOf] at h
  | cons b t ih =>
    rcases List.mem_cons.mp h with rfl | h
    · simp
    · have := ih (a + 1) h
      simp only [List.length_cons]
      omega

theorem rise_cellsOf (bs : List Byte) (a : Nat) : cellsRise (cellsOf a bs) = true := by
  induction bs generalizing a with
  | nil => rfl
  | cons b t ih =>
    refine (rise_cons _ _).mpr ⟨fun d hd => ?_, ih (a + 1)⟩
    have := mem_cellsOf t (a + 1) d hd
    simp only
    omega

/-- A splice of rising cells that lie within its range rises. -/
theorem rise_splice (cs new : List Host.Cell) (lo hi : Nat) (hc : cellsRise cs = true) (hn : cellsRise new = true)
    (hl : lo ≤ hi) (hb : ∀ c ∈ new, lo ≤ c.1 ∧ c.1 < hi) : cellsRise (cellSplice cs lo hi new) = true := by
  unfold cellSplice
  refine rise_append _ _ (rise_append _ _ (rise_filter _ _ hc) hn ?_) (rise_filter _ _ hc) ?_
  · intro c h d hd
    have h1 : c.1 < lo := by simpa using (List.mem_filter.mp h).2
    have := hb d hd
    omega
  · intro c h d hd
    have hd2 : hi ≤ d.1 := by simpa using (List.mem_filter.mp hd).2
    rcases List.mem_append.mp h with h | h
    · have h1 : c.1 < lo := by simpa using (List.mem_filter.mp h).2
      omega
    · have := hb c h
      omega

/-- Whether an address lies in one of some ranges. -/
theorem any_cut (lo hi x : Nat) (rs : List (Nat × Nat)) (h : x < lo ∨ hi ≤ x)
    (ha : rs.any (fun r => decide (r.1 ≤ x) && decide (x < r.2)) = true) :
    (cutRanges lo hi rs).any (fun r => decide (r.1 ≤ x) && decide (x < r.2)) = true := by
  induction rs with
  | nil => simp at ha
  | cons r t ih =>
    obtain ⟨a, b⟩ := r
    simp only [List.any_cons, Bool.or_eq_true, Bool.and_eq_true, decide_eq_true_eq] at ha
    simp only [cutRanges, List.any_append, Bool.or_eq_true]
    rcases ha with ⟨h1, h2⟩ | ha
    · left
      rcases h with h | h
      · left
        rw [if_pos (by omega)]
        simp
        omega
      · right
        rw [if_pos (by omega)]
        simp
        omega
    · exact .inr (ih ha)

/-- The two parts of the canonical form. -/
theorem wf_iff (m : StackMem) : Memory.wf m = true ↔ cellsRise m.cells = true ∧ ∀ c ∈ m.cells,
    (c.2 ≠ 0 ∨ m.lost.any (fun r => decide (r.1 ≤ c.1) && decide (c.1 < r.2)) = true) := by
  simp [Memory.wf, List.all_eq_true]

/-- The cells that a splice keeps are listed with reason after its range has been cut out of the lost ones. -/
theorem kept_reason (m : StackMem) (lo hi : Nat) (h : Memory.wf m = true) (c : Host.Cell)
    (hc : c ∈ m.cells) (ho : c.1 < lo ∨ hi ≤ c.1) :
    c.2 ≠ 0 ∨ (cutRanges lo hi m.lost).any (fun r => decide (r.1 ≤ c.1) && decide (c.1 < r.2)) = true := by
  rcases ((wf_iff m).mp h).2 c hc with h1 | h1
  · exact .inl h1
  · exact .inr (any_cut lo hi c.1 m.lost ho h1)

/-- A write keeps the canonical form. -/
theorem put_wf (m : StackMem) (a : Nat) (bs : List Byte) (h : Memory.wf m = true) : Memory.wf (m.put a bs) = true := by
  rw [wf_iff]
  have hb : ∀ c ∈ (cellsOf a bs).filter fun c => c.2 != 0, a ≤ c.1 ∧ c.1 < a + bs.length :=
    fun c hc => mem_cellsOf bs a c (List.mem_filter.mp hc).1
  refine ⟨rise_splice _ _ _ _ ((wf_iff m).mp h).1 (rise_filter _ _ (rise_cellsOf bs a)) (by omega) hb, ?_⟩
  intro c hc
  simp only [StackMem.put, cellSplice, List.mem_append, List.mem_filter] at hc
  rcases hc with (⟨h1, h2⟩ | ⟨h1, h2⟩) | ⟨h1, h2⟩
  · exact kept_reason m a (a + bs.length) h c h1 (.inl (by simpa using h2))
  · exact .inl (by simpa using h2)
  · exact kept_reason m a (a + bs.length) h c h1 (.inr (by simpa using h2))

/-- Zeroing a range keeps the canonical form. -/
theorem zero_wf (m : StackMem) (lo hi : Nat) (hl : lo ≤ hi) (h : Memory.wf m = true) : Memory.wf (m.zero lo hi) = true := by
  rw [wf_iff]
  refine ⟨rise_splice _ _ _ _ ((wf_iff m).mp h).1 rfl hl (by simp), ?_⟩
  intro c hc
  simp only [StackMem.zero, cellSplice, List.mem_append, List.mem_filter, List.not_mem_nil, or_false] at hc
  rcases hc with ⟨h1, h2⟩ | ⟨h1, h2⟩
  · exact kept_reason m lo hi h c h1 (.inl (by simpa using h2))
  · exact kept_reason m lo hi h c h1 (.inr (by simpa using h2))

/-- A range emptied of cells, with more ranges called lost beside those outside it, keeps the canonical form. -/
theorem splice_lost_wf (m : StackMem) (lo hi : Nat) (more : List (Nat × Nat)) (hl : lo ≤ hi) (h : Memory.wf m = true) (w : List (Nat × Nat)) :
    Memory.wf { m with cells := cellSplice m.cells lo hi [], lost := cutRanges lo hi m.lost ++ more, written := w } = true := by
  rw [wf_iff]
  refine ⟨rise_splice _ _ _ _ ((wf_iff m).mp h).1 rfl hl (by simp), ?_⟩
  intro c hc
  simp only [cellSplice, List.mem_append, List.mem_filter, List.not_mem_nil, or_false] at hc
  simp only [List.any_append, Bool.or_eq_true]
  rcases hc with ⟨h1, h2⟩ | ⟨h1, h2⟩
  · exact (kept_reason m lo hi h c h1 (.inl (by simpa using h2))).imp id .inl
  · exact (kept_reason m lo hi h c h1 (.inr (by simpa using h2))).imp id .inl

/-- Undefined contents of a range keep the canonical form. -/
theorem lose_wf (m : StackMem) (lo hi : Nat) (h : Memory.wf m = true) : Memory.wf (m.lose lo hi) = true := by
  unfold StackMem.lose
  split
  · rename_i hl
    simpa only [addRange, hl, if_true] using splice_lost_wf m lo hi [(lo, hi)] (by omega) h _
  · exact h

/-- The loss of a range keeps the canonical form. -/
theorem drop_wf (m : StackMem) (lo hi : Nat) (h : Memory.wf m = true) : Memory.wf (m.drop lo hi) = true := by
  unfold StackMem.drop
  split
  · exact splice_lost_wf m lo hi _ (by omega) h m.written
  · exact h

/-- A filter finds no cell where there is none. -/
theorem cellGet_filter_none (cs : List Host.Cell) (p : Host.Cell → Bool) (a : Nat) (h : cellGet cs a = none) :
    cellGet (cs.filter p) a = none := by
  induction cs with
  | nil => rfl
  | cons e t ih =>
    obtain ⟨x, b⟩ := e
    by_cases hx : a = x
    · simp [cellGet, hx] at h
    · have ht : cellGet t a = none := by simpa [cellGet, hx] using h
      by_cases hp : p (x, b) = true
      · simp [hp, cellGet, hx, ih ht]
      · simp [hp, ih ht]

/-- Of the bytes laid out the cells that are not zero. -/
theorem cellGet_nonzero (bs : List Byte) (a i : Nat) (h : i < bs.length) :
    cellGet ((cellsOf a bs).filter fun c => c.2 != 0) (a + i) = if bs[i] = 0 then none else some bs[i] := by
  induction bs generalizing a i with
  | nil => simp at h
  | cons b t ih =>
    cases i with
    | zero =>
      by_cases hz : b = 0
      · have n : cellGet (cellsOf (a + 1) t) a = none := cellGet_cellsOf_out t (a + 1) a (by omega)
        simp only [cellsOf, List.filter_cons, hz, bne_self_eq_false, Bool.false_eq_true, if_false, Nat.add_zero,
          List.getElem_cons_zero, if_true]
        exact cellGet_filter_none _ _ _ n
      · have p : (b != 0) = true := by simpa using hz
        simp only [cellsOf, List.filter_cons, p, if_true, cellGet, Nat.add_zero, List.getElem_cons_zero, hz, if_false]
    | succ j =>
      have hj : j < t.length := by simpa using h
      have e : a + (j + 1) = (a + 1) + j := by omega
      have n : ¬ a + 1 + j = a := by omega
      rw [e]
      simp only [List.getElem_cons_succ]
      rw [← ih (a + 1) j hj]
      by_cases hz : b = 0
      · simp [cellsOf, hz]
      · have p : (b != 0) = true := by simpa using hz
        simp only [cellsOf, List.filter_cons, p, if_true, cellGet, n, if_false]

/-- A byte of stacked memory that has been written reads so. -/
theorem memLook_put_in (m : StackMem) (a : Nat) (bs : List Byte) (i : Nat) (h : i < bs.length) :
    memLook (m.put a bs) (a + i) = some bs[i] := by
  unfold memLook
  have e : cellGet (m.put a bs).cells (a + i) = cellGet ((cellsOf a bs).filter fun c => c.2 != 0) (a + i) := by
    simp only [StackMem.put]
    exact cellGet_splice_in _ _ (by omega) (by omega)
  have nolost : (m.put a bs).lost.any (fun r => decide (r.1 ≤ a + i) && decide (a + i < r.2)) = false := by
    simp only [StackMem.put]
    have : ∀ rs : List (Nat × Nat), (cutRanges a (a + bs.length) rs).any
        (fun r => decide (r.1 ≤ a + i) && decide (a + i < r.2)) = false := by
      intro rs
      induction rs with
      | nil => rfl
      | cons r t ih =>
        obtain ⟨x, y⟩ := r
        simp only [cutRanges, List.any_append, ih, Bool.or_false, Bool.or_eq_false_iff]
        constructor
        · split
          · simp <;> omega
          · rfl
        · split
          · simp <;> omega
          · rfl
    exact this _
  rw [e, cellGet_nonzero bs a i h]
  by_cases hz : bs[i] = 0
  · rw [if_pos hz]
    simp only [nolost, Bool.false_eq_true, if_false, hz]
  · rw [if_neg hz]

end Sys2Proof.Machine
end

