-- ==== Sys2Proof/Laws/Rebuild.lean ====
section
/-! SUPPORT. A change of layout keeps the canonical form of stacked memory, and reset has it. -/

namespace Sys2Proof.Machine

open Sys2Proof

/-- Parts at rising new addresses that do not overlap. -/
abbrev PartsRise (ps : List MemPart) : Prop := ps.Pairwise fun p q => p.new + p.len ≤ q.new

/-- The cells of a part at their new addresses. -/
theorem rise_moved (cs : List Host.Cell) (p : MemPart) (h : cellsRise cs = true) :
    cellsRise ((cs.filter fun c => decide (p.old ≤ c.1) && decide (c.1 < p.old + p.len)).map
      fun c => (c.1 - p.old + p.new, c.2)) = true := by
  induction cs with
  | nil => rfl
  | cons c t ih =>
    obtain ⟨h1, h2⟩ := (rise_cons c t).mp h
    by_cases hc : (decide (p.old ≤ c.1) && decide (c.1 < p.old + p.len)) = true
    · simp only [List.filter_cons, hc, if_true, List.map_cons]
      refine (rise_cons _ _).mpr ⟨?_, ih h2⟩
      intro d hd
      obtain ⟨e, he, rfl⟩ := List.mem_map.mp hd
      have l1 := h1 e (List.mem_filter.mp he).1
      simp only [Bool.and_eq_true, decide_eq_true_eq] at hc
      simp only
      omega
    · simp only [List.filter_cons, hc]
      exact ih h2

/-- A change of layout keeps the canonical form. -/
theorem rebuild_wf (m : StackMem) (ps : List MemPart) (hp : PartsRise ps) (h : Memory.wf m = true) :
    Memory.wf (m.rebuild ps) = true := by
  obtain ⟨h1, h2⟩ := (wf_iff m).mp h
  rw [wf_iff]
  constructor
  · simp only [StackMem.rebuild]
    induction ps with
    | nil => rfl
    | cons p t ih =>
      obtain ⟨a, b⟩ := List.pairwise_cons.mp hp
      simp only [List.flatMap_cons]
      refine rise_append _ _ (rise_moved m.cells p h1) (ih b) ?_
      intro c hc d hd
      obtain ⟨e, he, rfl⟩ := List.mem_map.mp hc
      obtain ⟨q, hq, hd⟩ := List.mem_flatMap.mp hd
      obtain ⟨f, hf, rfl⟩ := List.mem_map.mp hd
      have x := (List.mem_filter.mp he).2
      have y := (List.mem_filter.mp hf).2
      have z := a q hq
      simp only [Bool.and_eq_true, decide_eq_true_eq] at x y
      simp only
      omega
  · intro c hc
    simp only [StackMem.rebuild] at hc ⊢
    obtain ⟨p, hpm, hc⟩ := List.mem_flatMap.mp hc
    obtain ⟨e, he, rfl⟩ := List.mem_map.mp hc
    obtain ⟨hm, hr⟩ := List.mem_filter.mp he
    simp only [Bool.and_eq_true, decide_eq_true_eq] at hr
    rcases h2 e hm with hz | hl
    · exact .inl hz
    · right
      obtain ⟨r, hrm, hr2⟩ := List.any_eq_true.mp hl
      simp only [Bool.and_eq_true, decide_eq_true_eq] at hr2
      refine List.any_eq_true.mpr ⟨(max r.1 p.old - p.old + p.new, min r.2 (p.old + p.len) - p.old + p.new), ?_, ?_⟩
      · refine List.mem_append.mpr (.inr (List.mem_flatMap.mpr ⟨p, hpm, List.mem_filterMap.mpr ⟨r, hrm, ?_⟩⟩))
        rw [if_pos (by omega)]
      · simp only [Bool.and_eq_true, decide_eq_true_eq]
        omega

/-- The regions that keep their contents are given by rising new address. -/
theorem keptParts_rise (c1 c2 : Cfg) (l1 l2 : Layout) (ci : Nat) (keep : Nat → Bool) (slots : Fin 2 → Option Nat) :
    PartsRise (keptParts c1 c2 l1 l2 ci keep slots) := by
  have key : ∀ n, ((List.range n).flatMap fun r =>
        if keep r && decide (0 < min (regionMib c1 l1 ci r) (regionMib c2 l2 ci r) * mib) then
          [(⟨regionsBelow c1 l1 ci r * mib, regionsBelow c2 l2 ci r * mib,
            min (regionMib c1 l1 ci r) (regionMib c2 l2 ci r) * mib⟩ : MemPart)] else []).Pairwise
        (fun p q => p.new + p.len ≤ q.new) ∧
      ∀ p ∈ (List.range n).flatMap fun r =>
        if keep r && decide (0 < min (regionMib c1 l1 ci r) (regionMib c2 l2 ci r) * mib) then
          [(⟨regionsBelow c1 l1 ci r * mib, regionsBelow c2 l2 ci r * mib,
            min (regionMib c1 l1 ci r) (regionMib c2 l2 ci r) * mib⟩ : MemPart)] else [],
        p.new + p.len ≤ regionsBelow c2 l2 ci n * mib := by
    intro n
    induction n with
    | zero => simp
    | succ n ih =>
      obtain ⟨a, b⟩ := ih
      simp only [List.range_succ, List.flatMap_append, List.flatMap_cons, List.flatMap_nil, List.append_nil]
      have e : regionsBelow c2 l2 ci (n + 1) = regionsBelow c2 l2 ci n + regionMib c2 l2 ci n := rfl
      constructor
      · refine List.pairwise_append.mpr ⟨a, ?_, ?_⟩
        · split <;> simp
        · intro p hp q hq
          have := b p hp
          split at hq
          · simp only [List.mem_singleton] at hq
            subst hq
            exact this
          · simp at hq
      · intro p hp
        rcases List.mem_append.mp hp with hp | hp
        · have := b p hp
          rw [e, Nat.add_mul]
          exact Nat.le_trans this (Nat.le_add_right _ _)
        · split at hp
          · simp only [List.mem_singleton] at hp
            subst hp
            rw [e, Nat.add_mul]
            exact Nat.add_le_add_left (Nat.mul_le_mul_right _ (Nat.min_le_right _ _)) _
          · simp at hp
  simp only [keptParts]
  refine List.pairwise_append.mpr ⟨(key 6).1, ?_, ?_⟩
  · refine List.pairwise_append.mpr ⟨?_, ?_, ?_⟩
    · split
      · simp
      · split <;> simp
    · split
      · simp
      · split <;> simp
    · intro p hp q hq
      split at hp
      · simp at hp
      · split at hp
        · split at hq
          · simp at hq
          · split at hq
            · simp only [List.mem_singleton] at hp hq
              subst hp hq
              show (regionsBelow c2 l2 ci 6 + 0 * regionMib c2 l2 ci 6) * mib + min (regionMib c1 l1 ci 6) (regionMib c2 l2 ci 6) * mib
                ≤ (regionsBelow c2 l2 ci 6 + 1 * regionMib c2 l2 ci 6) * mib
              rw [← Nat.add_mul]
              exact Nat.mul_le_mul_right _ (by omega)
            · first | omega | simp at hq
        · simp at hp
  · intro p hp q hq
    have hb := (key 6).2 p hp
    have low : ∀ n : Nat, regionsBelow c2 l2 ci 6 * mib ≤ (regionsBelow c2 l2 ci 6 + n * regionMib c2 l2 ci 6) * mib :=
      fun n => Nat.mul_le_mul_right _ (Nat.le_add_right _ _)
    rcases List.mem_append.mp hq with hq | hq
    · split at hq
      · simp at hq
      · split at hq
        · simp only [List.mem_singleton] at hq
          subst hq
          exact Nat.le_trans hb (low _)
        · simp at hq
    · split at hq
      · simp at hq
      · split at hq
        · simp only [List.mem_singleton] at hq
          subst hq
          exact Nat.le_trans hb (low _)
        · simp at hq

/-- Every cluster's memory has the canonical form at reset. -/
theorem reset_memory_wf (ci : ClusterId) : Memory.wf (State.reset.cluster ci).mem = true := rfl

end Sys2Proof.Machine
end

