-- ==== Sys2Proof/Laws/Window.lean ====
section
/-! SUPPORT. The laws of COPY and FILL over the window, and of register reads. -/

namespace Sys2Proof.Machine

open Sys2Proof

/-- With every unit passing link parity a COPY reads what the window holds. -/
@[simp] theorem garble_nil (bs : List Byte) (free : Nat) : garble [] bs free = (bs, free) := rfl

/-- With every unit passing link parity the bytes are written as they are. -/
@[simp] theorem winWriteBut_nil (h : Nat) (bs : List Byte) (s : State) : winWriteBut [] h bs s = winWrite h bs s := rfl

/-- An aligned 32-bit read answers one word and touches only the latch of its requester, where no cluster-homed object is read between
layer passes. -/
theorem readReg_frame {req : Nat} {off : BitVec 26} {s : State} (h : freeObject off.toNat s = false) :
    ∃ l, readReg req off s =
      { s with host := { s.host with latch := l }, out := .readData (leBytes 4 (wordAt req off s).toNat) :: s.out } := by
  simp [readReg, takeLatch, h, State.emit]

/-- A read takes the word latched for it. -/
theorem wordAt_latched {req : Nat} {off : BitVec 26} {s : State} {w : Word} (h : latched s req off = some w) :
    wordAt req off s = w := by simp [wordAt, h]

/-- With nothing latched a read takes what the register holds. -/
theorem wordAt_fresh {req : Nat} {off : BitVec 26} {s : State} (h : latched s req off = none) :
    wordAt req off s = BitVec.ofNat 32 (regRead s off.toNat) := by simp [wordAt, h]

end Sys2Proof.Machine
end

