-- ==== Sys2Proof/WellFormed.lean ====
section
/-! DEFINITION. When a term of `Instr` spells an event of its row: the fields of an instruction are ones that R54 allows
in a word, a message has the TYPE of its row, an input exists at its node, and stored data have their size. A meaning is
total all the same: what it does with an ill-formed term is what the spec says of the bad field, where it says something. -/

namespace Sys2Proof

/-- No field of a vector instruction is one that R54 never allows: TY is not 3. -/
def VecF.wf (f : VecF) : Bool := f.ty != 3

/-- VCMP: code 7 is not allowed, and VD names P1 to P7 (R54). -/
def VecF.wfCmp (f : VecF) : Bool := f.ty != 3 && f.ext.toNat % 8 != 7 && decide (1 ≤ f.vd.val) && decide (f.vd.val ≤ 7)

/-- A format code in use (R55). -/
def fmtUsed (c : BitVec 4) : Bool := decide (c.toNat < 12)

/-- A header of 64 bytes has a TYPE at offset 3 (R228, R314, R350, R371). -/
def hdrIs (h : BitVec 512) (ty : Nat) : Bool := h.toNat / 2 ^ 24 % 256 == ty

/-- An input of a node of the stitch mesh: five at a router, the edge links at a port die (R145, R157). -/
def inputAt (n : MeshNode) (inp : Nat) : Bool :=
  match n with
  | .router _ => decide (inp < 5)
  | .die d => decide (inp < if d.val < 2 then 128 else 64)

/-- A copy of the repair record has the sizes of R493. -/
def RepairRecord.wf (r : RepairRecord) : Bool := r.tileMap.length == 48 && r.darn.length == 2 && r.cores.length == 800

/-- A cartridge holds two banks of 4 KiB, and 16 KiB for each copy of the record; bank 1 lies above bank 0 and its copy (R461, R493). -/
def Cartridge.wf (c : Cartridge) : Bool :=
  (c.sfdp.all fun p => decide (0xA000 ≤ p.density)) && c.bank0.length == 4096 && c.bank1.length == 4096 && c.rec0.length == 16384 && c.rec1.length == 16384

/-- A sample reads nine diodes of a tile (R432). -/
def TileSample.wf (t : TileSample) : Bool := t.diodes.length == 9

def Instr.wf (i : Instr) : Bool :=
  match i with
  | .nop _ => true
  | .add _ _ => true
  | .addi _ _ => true
  | .sub _ _ => true
  | .subi _ _ => true
  | .and _ _ => true
  | .andi _ _ => true
  | .or _ _ => true
  | .ori _ _ => true
  | .xor _ _ => true
  | .xori _ _ => true
  | .shl _ _ => true
  | .shli _ _ => true
  | .shr _ _ => true
  | .shri _ _ => true
  | .sar _ _ => true
  | .sari _ _ => true
  | .mul _ _ => true
  | .muli _ _ => true
  | .min _ _ => true
  | .mini _ _ => true
  | .max _ _ => true
  | .maxi _ _ => true
  | .slt _ _ => true
  | .slti _ _ => true
  | .sltu _ _ => true
  | .sltui _ _ => true
  | .lih _ _ => true
  | .ld _ _ => true
  | .ldw _ _ => true
  | .st _ _ => true
  | .stw _ _ => true
  | .beq _ _ => true
  | .bne _ _ => true
  | .blt _ _ => true
  | .bge _ _ => true
  | .bltu _ _ => true
  | .bgeu _ _ => true
  | .jal _ _ => true
  | .jr _ _ => true
  | .csrr _ _ => true
  | .csrw _ _ => true
  | .fence _ imm => decide (imm.toNat < 32)
  | .halt _ => true
  | .haltComplete _ => true
  | .coreIllegalOp _ _ => true
  | .mma _ f => fmtUsed f.fmtA && fmtUsed f.fmtB
  | .accst _ f => fmtUsed f.fmt
  | .accrd _ f => fmtUsed f.fmt
  | .accwr _ f => fmtUsed f.fmt
  | .accz _ f => fmtUsed f.fmt
  | .matrixOpStart _ _ => true
  | .matrixOpComplete _ _ => true
  | .vld _ _ => true
  | .vst _ _ => true
  | .vbcast _ f => f.wf
  | .vmovs _ f => f.wf && decide (f.ext.toNat < 64)
  | .vadd _ f => f.wf
  | .vsub _ f => f.wf
  | .vmul _ f => f.wf
  | .vfma _ f => f.wf
  | .vmax _ f => f.wf
  | .vmin _ f => f.wf
  | .vcmp _ f => f.wfCmp
  | .vsel _ f => f.wf && decide (f.vc.val < 8)
  | .vrcp _ f => f.wf
  | .vrsq _ f => f.wf
  | .vexp2 _ f => f.wf
  | .vlog2 _ f => f.wf
  | .vcvt _ f => f.ty == 0 && f.ext.toNat % 2 ^ 20 == 0 && decide (f.ext.toNat / 2 ^ 26 < 12) && decide (f.ext.toNat / 2 ^ 22 % 16 < 12)
  | .vred _ f => f.wf
  | .vand _ f => f.wf
  | .vor _ f => f.wf
  | .vxor _ f => f.wf
  | .send _ _ => true
  | .sendwait _ _ => true
  | .waitrx _ _ => true
  | .sadd _ f => f.scope == 0
  | .sset _ f => f.scope == 0
  | .stgt _ f => f.scope == 0
  | .sread _ f => f.scope == 0
  | .swait _ f => f.scope == 0
  | .swaitv _ f => f.scope == 0
  | .bar _ f => f.scope != 3
  | .sabort _ f => f.scope == 0
  | .dmard _ _ => true
  | .dmawr _ _ => true
  | .dmard2 _ _ => true
  | .dmawr2 _ _ => true
  | .dmaUnitTransfer _ _ _ => true
  | .dmaComplete _ _ => true
  | .fill _ _ => true
  | .copy _ _ => true
  | .fillCopyComplete _ => true
  | .wopen _ _ => true
  | .wclose _ _ => true
  | .spack _ f => fmtUsed f.fmtA
  | .smma _ f => fmtUsed f.fmtA && fmtUsed f.fmtB
  | .hinit _ _ => true
  | .hadd _ _ => true
  | .hmerge _ _ => true
  | .fmask _ _ => true
  | .fcount _ _ => true
  | .sparseOpComplete _ => true
  | .coreWatchdog _ => true
  | .segmentWakeComplete _ _ => true
  | .messageReceive _ _ => true
  | .stitchFire _ => true
  | .flitArrive n inp _ _ => inputAt n inp
  | .meshBridge n inp => inputAt n inp
  | .startMark m => m.tatError.all fun x => x.2 == 0x0306 || x.2 == 0x0307
  | .settleRequest _ => true
  | .tatAdd _ _ => true
  | .tatSet _ _ => true
  | .tatTarget _ _ => true
  | .tatRead _ _ => true
  | .tatWait _ _ => true
  | .tatWake _ _ => true
  | .tatReadReply _ _ => true
  | .tatArrive _ _ => true
  | .tatRelease _ _ => true
  | .tatAbort _ _ => true
  | .tatAbortAck _ _ => true
  | .tatLock _ _ => true
  | .layerPassClose => true
  | .layerBoundary => true
  | .meshRelock _ => true
  | .passBoundary => true
  | .stepBoundary => true
  | .drainBoundary => true
  | .syncCntWrite _ _ => true
  | .syncTgtWrite _ _ => true
  | .syncAddWrite _ _ => true
  | .dramTempSample _ _ _ => true
  | .refreshRestore _ _ => true
  | .cxlMemRead _ _ => true
  | .cxlMemWrite _ _ _ _ => true
  | .hostPathErrClear _ => true
  | .hostPathWdropClear _ => true
  | .pdMeshErrClear _ _ => true
  | .chunk _ _ m => hdrIs m.hdr 1
  | .manifestPart _ _ m => hdrIs m.hdr 3
  | .nack _ _ h => hdrIs h 4
  | .endMsg _ _ h => hdrIs h 5
  | .chunkReqRetry _ _ => true
  | .weightTimeout _ _ => true
  | .bcastWaitExpire => true
  | .chunkStageComplete _ _ => true
  | .epochRelease _ => true
  | .maskMessage _ _ => true
  | .focusCtlClear => true
  | .intakeMessage _ _ => true
  | .grant _ _ h => hdrIs h 3
  | .refuse _ h => hdrIs h 4
  | .redData _ m => hdrIs m.hdr 1
  | .result _ h => hdrIs h 5
  | .redTimeout _ => true
  | .redShardLost => true
  | .barrier _ _ => true
  | .broadcast _ _ => true
  | .allGather _ _ => true
  | .reduceScatter _ _ => true
  | .bind _ _ => true
  | .unbind _ _ => true
  | .collData _ m => hdrIs m.hdr 1
  | .join _ h => hdrIs h 2
  | .ready _ h => hdrIs h 3
  | .commit _ h => hdrIs h 4
  | .collAbortFrame _ h => hdrIs h 5
  | .collAbortAck _ h => hdrIs h 6
  | .dispose _ h => hdrIs h 7
  | .already _ h => hdrIs h 8
  | .escalate _ h => hdrIs h 9
  | .syncUpdate _ h => hdrIs h 10
  | .collTimeout _ => true
  | .collHalfTimeout _ => true
  | .collAbortedTimeout _ => true
  | .leaderSilenceTimeout _ => true
  | .collAbort _ => true
  | .portPresent _ _ => true
  | .portRemoved _ => true
  | .modulePowered _ => true
  | .linkModule _ => true
  | .trainLock _ _ _ => true
  | .trainTimeout _ => true
  | .hello _ h => hdrIs h 1
  | .helloResend _ => true
  | .helloTimeout _ => true
  | .lockLost _ _ => true
  | .retrainTimeout _ => true
  | .downRetry _ => true
  | .laneSerWindow _ _ => true
  | .flitReceive _ _ _ => true
  | .flitTransmit _ => true
  | .replayTimeout _ => true
  | .leave _ h => hdrIs h 2
  | .unreach _ h => hdrIs h 3
  | .reach _ h => hdrIs h 4
  | .azCtlWiden _ => true
  | .azCtlRetrain _ => true
  | .azCtlDisable _ _ => true
  | .azCtlLocate _ _ => true
  | .leaveTimeout _ => true
  | .loadProgram _ => true
  | .imageValidationDone _ => true
  | .runPass _ table => table.length % 16 == 0
  | .signalSyncAdd _ => true
  | .signalSyncSet _ => true
  | .signalSyncTarget _ => true
  | .waitSync _ => true
  | .waitTimeout _ => true
  | .copyDesc _ => true
  | .fillDesc _ => true
  | .copyFillDone _ _ _ => true
  | .epochSwitch _ => true
  | .epochSwitchAdapter _ => true
  | .descriptorFetch _ _ => true
  | .qTailWrite _ _ => true
  | .queueEnable _ _ => true
  | .queueDisable _ _ => true
  | .abiSelWrite _ => true
  | .mbxDataWrite _ _ => true
  | .mailboxTake _ _ => true
  | .mailboxPost _ _ => true
  | .mbxFullClear _ => true
  | .mbxRejClear _ _ => true
  | .mailboxDomainOff _ => true
  | .ping _ => true
  | .queueReset _ => true
  | .drain _ => true
  | .resume _ => true
  | .abortPass _ => true
  | .loupePing => true
  | .attest => true
  | .getCert => true
  | .stageConfig bank => bank.length == 4096
  | .locate => true
  | .cxlReset => true
  | .cxlLinkDown => true
  | .msixUnmask _ => true
  | .unsupportedAccess off size _ => !((size == 4 || size == 8) && off.toNat % size == 0)
  | .lowWordRead _ r => r.off.toNat % (if r.wide then 8 else 4) == 0
  | .rcCounterRead _ off n => off.toNat % (if n.high.isSome then 8 else 4) == 0
  | .registerWrite off v => off.toNat % (if v.high.isSome then 8 else 4) == 0
  | .loupeTick t => t.tiles.all TileSample.wf
  | .dutyLastResort => true
  | .feedVoltageChange _ _ => true
  | .feedQualified _ => true
  | .pwrStageFault _ => true
  | .stageLatchOpen _ => true
  | .stageJoin _ => true
  | .efuseTrip _ _ => true
  | .throttleEvaluation => true
  | .fanFailure _ => true
  | .fanLatchOpen _ => true
  | .fanInsert _ => true
  | .coolingDegraded => true
  | .coolingClear => true
  | .setPowerLimits _ => true
  | .clearPowerLimits => true
  | .standbyPowerApplied => true
  | .grantPermission _ => true
  | .revokePermission _ => true
  | .waveComplete _ => true
  | .calibrationComplete _ => true
  | .drainAction => true
  | .resumeAction => true
  | .coldRestart => true
  | .powerOff => true
  | .forceOff => true
  | .powerDownWave => true
  | .stageConfiguration bank _ => bank.length == 4096
  | .firmwareStage b => decide (256 ≤ b.bytes.length)
  | .firmwareActivate _ => true
  | .fwComponentReady _ => true
  | .fwActivate _ => true
  | .darningColumnTestDone _ _ _ => true
  | .darningTileTestDone _ _ => true
  | .imageRereadDone _ _ => true
  | .efuseRestoreTimer _ => true
  | .loupeWatchdogExpire => true
  | .loupeRecoveryTimeout => true
  | .earlyBreak => true
  | .earlyBreakPowerOff => true
  | .seatedOpen => true
  | .leverClose _ _ => true
  | .cartridgeInsert x => x.wf
  | .locatePress => true
  | .locateHold => true
  | .drainPress => true
  | .drainHold => true
  | .presenceWindowExpire => true
  | .enrollKey _ pub => pub.length == 96
  | .revokeKey _ => true
  | .raiseObjectVersion _ => true
  | .setPanelLock _ => true
  | .clockSet _ => true
  | .clientConnect _ => true
  | .eventPushRetry _ _ => true
  | .stitchBankLoaded _ => true
  | .syncUnitSend _ => true
  | .cartridgeRemove => true
  | .hostDieLost => true
  | .loupeRestartDone => true
  | .mbxDataRead _ _ => true
  | .installCertificate _ => true
  | .eventSubscription _ _ => true

end Sys2Proof
end

