-- ==== Sys2Proof/Tests/Slice0.lean ====
section
/-! SUPPORT. The model's own tests: ill-formed terms, single commands with results from the spec, and for each statement of
Obligations.lean states and operands that meet the hypotheses of its clauses. -/

namespace Sys2Proof.Tests

open Sys2Proof.Machine Sys2Proof.Claims

/- One theorem after another: each waits for the kernel's answer on the one before it. -/
set_option Elab.async false

/-! ### Small states -/

/-- A running core with eight words of text and every segment ON, and S registers 1, 2, … as given. -/
def coreS (l : List (BitVec 64)) : Core :=
  { run := .running
    ibuf0 := List.replicate 8 0
    task := { seg := 0xFF }
    regs := { s := Vector.ofFn fun i => if i.val = 0 then 0 else l.getD (i.val - 1) 0 }
    spad := { segs := Vector.replicate 8 .on } }

/-- The state of reset with core 0 as given. -/
def stK (k : Core) : State := ({} : State).setCore 0 k

/-- Bytes that count up from 1. -/
def bytesN (n : Nat) : List Byte := (List.range n).map fun i => BitVec.ofNat 8 (i + 1)

/-- The core with bytes in its scratchpad. -/
def withSpad (k : Core) (a : Nat) (bs : List Byte) : Core := { k with spad := { k.spad with cells := cellsOf a bs } }

/-- An image of one layer with a watchdog, 1 MiB each of regions 3 and 4 in cluster 0, and no program. -/
def image1 : Image :=
  { format := 1, minAbi := 0x100, places := 1, training := false, span := [], buildId := 0, tableDigest := [], size := 0
    layers := [{ wdog := 1 }], progs := [], plans := [], layouts := [(0, { act := 1, resid := 1 })], consts := []
    focus := [] }

/-- A plan of layer entry 0 with no stitch. -/
def plan1 : Plan :=
  { place := 0, index := 0, period := 64, flows := [], routers := [], edges := [], total := 0, maxDelivery := 0 }

theorem core_stK (k : Core) : (stK k).core 0 = k := rfl

/-- The bytes of `withSpad` are in the scratchpad. -/
theorem holds_bytes (k : Core) (a : Nat) (bs : List Byte) : Holds ((stK (withSpad k a bs)).core 0) a bs := by
  rw [core_stK]; exact fun i h => cellGet_cellsOf bs a i h

/-- A shorter run of one byte is in it too. -/
theorem holds_run (k : Core) (a n m : Nat) (v : Byte) (h : m ≤ n) :
    Holds ((stK (withSpad k a (List.replicate n v))).core 0) a (List.replicate m v) := by
  rw [core_stK]
  intro i hi
  have e := cellGet_cellsOf (List.replicate n v) a i (by simp at hi ⊢; omega)
  simpa [withSpad] using e

/-- A pass of layer entry 0. -/
def pass1 : Pass := { q := 0, ticket := 0, desc := 0, epoch := 1, placement := 0, todo := [0] }

/-- An empty manifest of epoch 1. -/
def man1 : Manifest :=
  { version := 3, kind := 0, number := 1, baseEpoch := 0, buildId := 0, layers := [], chunks := [], pieces := [], slots := []
    scale := none, focus := [] }

/-- The load of epoch 2 by queue 0. -/
def load1 : Load :=
  { q := 0, ticket := 0, adapter := false, number := 2, role := 0, shard := 0, group := 0, bcastMs := 1000, st := .fetching
    parts := [], size := 0, man := none, slot := some 1, loaded := [], relayed := [], ended := false }


/-- A load of an epoch whose manifest is whole. -/
def loadM (m : Manifest) : Load := { load1 with man := some m }

/-- Every port the same, with one role. -/
def portS (role : BitVec 64) (x : Port) : State :=
  { eng := { cfg := { portRole := role } }, ports := Vector.replicate 32 x }

/-- Switch ports in service everywhere, one request of port die 0 for a chunk or manifest part, and a load. -/
def wtS (r : ChunkReq) (l : Load) : State :=
  { portS 0x5555555555555555 { st := .active } with
    wts := { load := some l }
    dies := ({} : State).dies.set 0 { reqs := [r] } }

/-- A request for item `i` of epoch 2. -/
def req1 (i : BitVec 32) (part : Bool) (fails : Nat) (waiting : Bool) : ChunkReq :=
  ⟨0, 2, false, i, part, 0, 0, none, fails, waiting⟩

/-- A mesh header of a window with an offset, a length and a layer pass. -/
def meshH (win off len lp : Nat) : BitVec 256 :=
  BitVec.ofNat 256 (win * 2 ^ 32 + off * 2 ^ 64 + len * 2 ^ 96 + lp * 2 ^ 160)

/-- A manifest of epoch 1 with one chunk that writes a region, and one that streams. -/
def man2 : Manifest :=
  { man1 with chunks := [⟨0, 2, 1, 0, 0, 0, 0, 0, 0, 0⟩, ⟨0, 0, 0, 0, 0, 0, 1, 0, 0, 0⟩]
              pieces := [⟨0, 0, 0, 0, 0, 0, 1, 0, 0, 0, 0, 0⟩] }

/-- A focus header of entry 0 with one row group and two messages for each mask. -/
def focus1 : FocusHdr :=
  ⟨0, 0, 0, 0, 0, 0, 0, 0, List.replicate 8 2, List.replicate 8 2, [⟨0, 0, 0, 0, 0⟩], [0]⟩

/-- A masked layer pass of entry 0 under epoch 1. -/
def maskS : State :=
  { eng := { pass := some pass1, lp := some { kind := .work, entry := 0, number := 5, started := true, masked := true } }
    wts := { current := some ⟨1, some 0, { man1 with focus := [focus1] }⟩ } }

/-- A packet of which the first beat fails PAR. -/
def badP : RxPacket := ⟨(RxPacket.of 0).beats.set 0 ((RxPacket.of 0).beats[0] ^^^ 1)⟩

/-- A header of 32 bytes for window 0 that signals object 0. -/
def sigH : BitVec 256 := BitVec.ofNat 256 (32 * 2 ^ 96 + 2 ^ 35)

/-- An accumulator with its table at 0 and nothing spilled. -/
def hash0 : HashAcc := ⟨0, 0, 64, 0, [], 0⟩

/-- A strip of FP32 with one block, of which element 0 is 1.0; a free entry of a table follows it. -/
def strip1 : List Byte :=
  [1, 0, 0, 0, 1, 0, 10, 0] ++ List.replicate 24 0 ++ [1, 0, 0, 0] ++ List.replicate 28 0 ++ [0, 0, 0x80, 0x3F] ++
    List.replicate 28 0

theorem splitBits_length (w n v : Nat) : (splitBits w n v).length = n := by
  induction n generalizing v with
  | zero => rfl
  | succ n ih => simp [splitBits, ih]

/-- The records that some bytes hold fill no more than those bytes. -/
theorem records_le (bs : List Byte) (p : Nat × Nat → Bool) (n : Nat) (h : bs.length ≤ n) :
    8 * ((recordsOf bs).filter p).length ≤ n := by
  have a := List.length_filter_le p (recordsOf bs)
  have b : (recordsOf bs).length = bs.length / 8 := by simp [recordsOf, splitBits_length]
  omega

/-- A descriptor of fields given by offset, size and value. -/
def dsc (l : List (Nat × Nat × Nat)) : BitVec 1024 :=
  BitVec.ofNat 1024 (l.foldl (fun a x => a + x.2.2 * 2 ^ (8 * x.1)) 0)

/-- A host that is up, with ABI 1.4 and queue 0 ACTIVE with descriptors that wait and that run. -/
def qS (w r : List Fetched) : State :=
  { host := { linkUp := true, abi := 0x104
              queues := ({} : State).host.queues.set 0 { st := .active, log2 := 4, waiting := w, running := r } } }

/-- A sketch of one element in a step, and a step of that sketch. -/
def ent1 : SketchEntry := ⟨0, 0, 0, 0, 0, 1, 1, 0, 0, 0, 0, 1⟩

def step1 : RedStep := { step := 0, epoch := 0, table := ⟨0, 1, 0, 0, [(0, 0), (1, 0)], [ent1]⟩, policy := 0 }

/-- A step with one sketch. -/
def redS (st : RedStep) (k : Sketch) : State := { red := { steps := [st], sketches := [k] } }

/-- One collective instance. -/
def collS (k : Inst) : State := { coll := { insts := [k] } }

/-- A flit of the highest class that starts and ends a frame of one byte, with its check. -/
def flitC (c : Word) : BitVec 2176 := BitVec.ofNat 2176 (15 + c.toNat * 2 ^ (8 * 268))

/-- A flit to send. -/
def tx1 : TxFlit := ⟨0, 4, true, true, 0, 0, 0⟩

/-- A copy or fill job of queue 0. -/
def job1 (fill : Bool) (dir : Nat) : CopyJob := ⟨0, 0, fill, dir, 64, 0, 0, 0⟩

/-- A state with that job, of a descriptor. -/
def jobS (j : CopyJob) (d : BitVec 1024) : State := { qS [] [⟨0, 0, d⟩] with eng := { copies := [j], cfg := { window := true } } }

/-- A RUN_PASS alone at the head of queue 0 under `image1`, with tile 1 unserved, no rotation and no deferral. -/
def passF : Fetched := ⟨0, 0, dsc [(0, 1, 2), (0x40, 4, 32)]⟩

def passS (lost : Bool) : State :=
  { qS [passF] [] with
    eng := { image := some image1, imageLost := lost, cfg := { rotate := false, deferMax := 0 } }
    wts := { current := some ⟨1, some 0, man1⟩ }
    boot := { inService := 1 }, pwr := { fans := Vector.replicate 8 { st := .running } }
    flt := { tileMap := ({} : State).flt.tileMap.set 1 0xFF } }

/-- The queue chosen, with none deferred. -/
theorem chosen_of (o : Option (QueueId × Option Cand)) (q : QueueId)
    (h : (match o with | some (r, none) => r == q | _ => false) = true) : o = some (q, none) := by
  match o, h with
  | some (r, none), h => simp at h; rw [h]

/-- The low bits of a sum with a multiple of 2ⁿ. -/
theorem bits_low (a k n hi lo : Nat) (h : hi < n) (hl : lo ≤ hi) : bits (a + k * 2 ^ n) hi lo = bits a hi lo := by
  obtain ⟨r, rfl⟩ : ∃ r, n = lo + (hi + 1 - lo) + r := ⟨n - (hi + 1), by omega⟩
  have e : k * 2 ^ (lo + (hi + 1 - lo) + r) = 2 ^ lo * (2 ^ (hi + 1 - lo) * (2 ^ r * k)) := by
    rw [Nat.pow_add, Nat.pow_add]; ac_rfl
  unfold bits
  rw [Nat.shiftRight_eq_div_pow, Nat.shiftRight_eq_div_pow, e, Nat.add_mul_div_left _ _ (Nat.two_pow_pos lo), Nat.add_mul_mod_self_left]

theorem leBytes_low (n a k : Nat) : leBytes n (a + k * 2 ^ (8 * n)) = leBytes n a := by
  induction n generalizing a k with
  | zero => rfl
  | succ n ih =>
    have e : k * 2 ^ (8 * (n + 1)) = 256 * (k * 2 ^ (8 * n)) := by
      rw [Nat.mul_add, Nat.pow_add]; ac_rfl
    simp only [leBytes]
    rw [e, Nat.add_mul_div_left _ _ (by decide : 0 < 256), ih]
    congr 1
    apply BitVec.eq_of_toNat_eq
    simp [Nat.add_mul_mod_self_left]

theorem bitOf_low (a k n i : Nat) (h : i < n) : bitOf (a + k * 2 ^ n) i = bitOf a i := by
  have e := bits_low a k n i i h (Nat.le_refl i)
  unfold bits at e
  rw [Nat.shiftRight_eq_div_pow, Nat.shiftRight_eq_div_pow, Nat.add_sub_cancel_left] at e
  have e1 : (a + k * 2 ^ n) / 2 ^ i % 2 = a / 2 ^ i % 2 := e
  simp only [bitOf, Nat.testBit_eq_decide_div_mod_eq, e1]

theorem sum_lt (x c n : Nat) (hx : x < 2 ^ n) (hc : c < 2 ^ 32) : x + c * 2 ^ n < 2 ^ (n + 32) := by
  have h : (c + 1) * 2 ^ n ≤ 2 ^ 32 * 2 ^ n := Nat.mul_le_mul_right _ hc
  rw [← Nat.pow_add, Nat.add_mul, Nat.add_comm 32 n] at h
  omega

theorem small_lt (n : Nat) (h : 4 ≤ n) : 15 < 2 ^ n :=
  Nat.lt_of_lt_of_le (by decide : 15 < 2 ^ 4) (Nat.pow_le_pow_right (by decide) h)

theorem flitC_low (c : Word) : ∃ n, n = 2144 ∧ (flitC c).toNat = 15 + c.toNat * 2 ^ n ∧
    leBytes 268 (flitC c).toNat = leBytes 268 15 := by
  have e : (flitC c).toNat = 15 + c.toNat * 2 ^ (8 * 268) := by
    unfold flitC
    rw [BitVec.toNat_ofNat]
    exact Nat.mod_eq_of_lt (sum_lt 15 c.toNat _ (small_lt _ (by decide)) c.isLt)
  exact ⟨8 * 268, rfl, e, by rw [e, leBytes_low]⟩

theorem flitC_bits (c : Word) (hi lo : Nat) (h : hi < 2144) (hl : lo ≤ hi) :
    bits (flitC c).toNat hi lo = bits 15 hi lo := by
  obtain ⟨n, hn, e, -⟩ := flitC_low c
  rw [e, bits_low 15 _ n hi lo (by omega) hl]

theorem flitC_bit (c : Word) (i : Nat) (h : i < 2144) : bitOf (flitC c).toNat i = bitOf 15 i := by
  obtain ⟨n, hn, e, -⟩ := flitC_low c
  rw [e, bitOf_low 15 _ n i (by omega)]

theorem flitC_seq (c : Word) : BitVec.ofNat 16 (bits (flitC c).toNat 31 16) = 0 := by
  rw [flitC_bits c 31 16 (by decide) (by decide)]
  decide

theorem flitC_check (c : Word) : bits (flitC c).toNat 2175 2144 = c.toNat := by
  obtain ⟨n, hn, e, -⟩ := flitC_low c
  have hx := small_lt n (by omega)
  have hc := c.isLt
  rw [e]
  unfold bits
  rw [Nat.shiftRight_eq_div_pow, ← hn, Nat.add_mul_div_right _ _ (Nat.two_pow_pos _), Nat.div_eq_of_lt hx, Nat.zero_add,
    show 2175 + 1 - n = 32 by omega]
  exact Nat.mod_eq_of_lt hc

theorem flitC_crc (c : Word) (h : c = crc32c (leBytes 268 15)) :
    bits (flitC c).toNat 2175 2144 = (crc32c (leBytes 268 (flitC c).toNat)).toNat := by
  obtain ⟨_, _, _, l⟩ := flitC_low c
  rw [l, ← h, flitC_check]

theorem flitC_role (bs : List Byte) :
    roleCarries (rolePlayed (portS 0x5555555555555555 { st := .active }) 0) (frameHdr bs) = true := by
  rw [show rolePlayed (portS 0x5555555555555555 { st := .active }) 0 = 1 by decide +kernel]
  rfl

/-- A sample of the sensors with no fan and no tile. -/
def tick0 : TickSample :=
  { powerA := 0, powerB := 0, voltA := 0, voltB := 0, rest := 0, inlet := 0, outlet := 0, sink := 0, fans := [], tiles := [] }

/-- Loupe in service, and the host with it. -/
def upS : State := { boot := { standby := true, phase := 8 }, host := { linkUp := true } }

/-- Mailbox 32 with a word for a shuttle. -/
def shuttleS (cmd arg : Nat) : State :=
  { upS with host := { linkUp := true, mbx := ({} : State).host.mbx.set 32 { data := BitVec.ofNat 32 (cmd * 2 ^ 24 + arg), full := true } } }

/-- Mailbox 0 with a command word for Loupe, and zeros in the mailboxes of its arguments. -/
def loupeS (cmd n tag : Nat) : State :=
  { upS with host := { linkUp := true, mbx := Vector.ofFn fun i =>
      if i.val = 0 then { data := BitVec.ofNat 32 (cmd * 2 ^ 24 + n * 2 ^ 16 + tag), full := true }
      else if i.val < 16 then { full := true } else {} } }

/-- A format 2 bank of defaults with a SEQ: its CRC is computed over the 128 bytes with the CRC field zero. -/
def bankHead (seq crc : Nat) : List Byte :=
  [0x43, 0x51, 0x43, 0x46, 2, 0, 0x80, 0] ++ leBytes 4 seq ++ leBytes 4 crc ++ [0x46, 0]

/-- The bytes that the CRC of a bank of SEQ 1 covers. -/
def bankBody : List Byte := bankHead 1 0 ++ List.replicate 110 0

/-- A valid bank of SEQ 1. -/
def bank2 : List Byte := bankHead 1 0x4a3a8d25 ++ List.replicate 4078 0

theorem crcRun_append (c : Word) (a b : List Byte) : crcRun c (a ++ b) = crcRun (crcRun c a) b := by
  induction a generalizing c with
  | nil => rfl
  | cons x t ih => exact ih _

theorem bank_crc : crc32c bankBody = 0x4a3a8d25 := by
  have e : bankBody = bankHead 1 0 ++
      (List.replicate 14 0 ++ (List.replicate 32 0 ++ (List.replicate 32 0 ++ List.replicate 32 0))) := by
    decide +kernel
  have a : crcRun 0xFFFFFFFF#32 (bankHead 1 0) = 0x4A077BBE := by decide +kernel
  have b : crcRun 0x4A077BBE (List.replicate 14 0) = 0x835F1EC7 := by decide +kernel
  have c : crcRun 0x835F1EC7 (List.replicate 32 0) = 0xB4E13614 := by decide +kernel
  have d : crcRun 0xB4E13614 (List.replicate 32 0) = 0xF4264EF0 := by decide +kernel
  have f : crcRun 0xF4264EF0 (List.replicate 32 0) = 0xB5C572DA := by decide +kernel
  rw [crc32c, e, crcRun_append, crcRun_append, crcRun_append, crcRun_append, a, b, c, d, f]
  decide

theorem bank2_valid : bankValid bank2 = true := by
  have e : (bank2.take (fieldAt bank2 6 2)).take 0xC ++ List.replicate 4 0 ++
      (bank2.take (fieldAt bank2 6 2)).drop 0x10 = bankBody := by
    decide +kernel
  unfold bankValid
  simp only [e, bank_crc]
  decide +kernel

theorem choose_first (c : Cartridge) (hr : cartReads c = true) (h0 : bankValid c.bank0 = true) (h1 : bankValid c.bank1 = false) :
    chooseBank c = some false := by
  unfold chooseBank
  rw [hr, h0, h1]
  rfl

/-- A cartridge of that bank, and one of an empty flash. -/
def cart2 : Cartridge := { bank0 := bank2, bank1 := [], rec0 := [], rec1 := [] }

def cart0 : Cartridge := { bank0 := [], bank1 := [], rec0 := [], rec1 := [] }

theorem bank2_chosen : chooseBank cart2 = some false :=
  choose_first cart2 rfl bank2_valid (by decide +kernel)

/-- A firmware image that verifies at ROM boot, and one that does not. -/
def slotS (ok : Bool) : Slot := ⟨⟨0, [], [], [], []⟩, 0, false, ok⟩

/-- A certificate that signs itself, and a client that offers what is supported, with no certificate and no request. -/
def cert0 : Cert := ⟨7, 7, true, 0, 0⟩

def client0 : Client := ⟨1, .redfish, true, true, true, true, [], []⟩
/-! ### Well-formed and ill-formed terms: one refused for each check of `Instr.wf` -/

theorem test_wf_accepts :
    (Instr.fence 0 31).wf = true ∧ (Instr.mma 0 ⟨1, 4, 4, 5, 6, 7, true, 8⟩).wf = true ∧
    (Instr.vadd 0 ⟨1, 2, 3, 0, 0, 2, false, 0⟩).wf = true ∧ (Instr.vcmp 0 ⟨7, 2, 3, 0, 0, 0, false, 6⟩).wf = true ∧
    (Instr.bar 0 ⟨0, 0, 0, 2, 1⟩).wf = true ∧ (Instr.flitArrive (.die 0) 127 0 0).wf = true ∧
    (Instr.enrollKey 0 (bytesN 96)).wf = true := by decide

theorem test_wf_refuses_fence : (Instr.fence 0 32).wf = false := by decide
theorem test_wf_refuses_format :
    (Instr.mma 0 ⟨1, 12, 4, 5, 6, 7, true, 8⟩).wf = false ∧ (Instr.mma 0 ⟨1, 4, 12, 5, 6, 7, true, 8⟩).wf = false ∧
    (Instr.accst 0 ⟨1, 15, 5, 6, 7⟩).wf = false ∧ (Instr.accrd 0 ⟨1, 12, 5, 6, 7⟩).wf = false ∧
    (Instr.accwr 0 ⟨1, 13, 5, 6, 7⟩).wf = false ∧ (Instr.accz 0 ⟨1, 14, 5, 6, 7⟩).wf = false ∧
    (Instr.spack 0 ⟨0, 1, 2, 3, 12, 0, 0, false, false, 1⟩).wf = false ∧
    (Instr.smma 0 ⟨0, 1, 2, 3, 4, 12, 0, false, false, 1⟩).wf = false := by decide
theorem test_wf_refuses_lane_type :
    (Instr.vadd 0 ⟨1, 2, 3, 0, 0, 3, false, 0⟩).wf = false ∧ (Instr.vmovs 0 ⟨1, 2, 3, 0, 0, 0, false, 64⟩).wf = false ∧
    (Instr.vcvt 0 ⟨1, 2, 0, 0, 0, 1, false, 0⟩).wf = false ∧ (Instr.vcvt 0 ⟨1, 2, 0, 0, 0, 0, false, 1⟩).wf = false := by
  decide
theorem test_wf_refuses_predicate :
    (Instr.vcmp 0 ⟨0, 2, 3, 0, 0, 0, false, 0⟩).wf = false ∧ (Instr.vcmp 0 ⟨8, 2, 3, 0, 0, 0, false, 0⟩).wf = false ∧
    (Instr.vcmp 0 ⟨1, 2, 3, 0, 0, 0, false, 7⟩).wf = false ∧ (Instr.vsel 0 ⟨1, 2, 3, 8, 0, 0, false, 0⟩).wf = false := by
  decide
theorem test_wf_refuses_scope :
    (Instr.sadd 0 ⟨0, 0, 0, 1, 1⟩).wf = false ∧ (Instr.swait 0 ⟨0, 0, 0, 2, 1⟩).wf = false ∧
    (Instr.bar 0 ⟨0, 0, 0, 3, 1⟩).wf = false := by decide
theorem test_wf_refuses_input :
    (Instr.flitArrive (.router 0) 5 0 0).wf = false ∧ (Instr.meshBridge (.die 2) 64).wf = false := by decide
theorem test_wf_refuses_weight_and_sketch_type :
    (Instr.chunk 0 0 ⟨0, []⟩).wf = false ∧ (Instr.manifestPart 0 0 ⟨0, []⟩).wf = false ∧ (Instr.nack 0 0 0).wf = false ∧
    (Instr.endMsg 0 0 0).wf = false ∧ (Instr.grant 0 0 0).wf = false ∧ (Instr.refuse 0 0).wf = false ∧
    (Instr.redData 0 ⟨0, []⟩).wf = false ∧ (Instr.result 0 0).wf = false := by
  decide +kernel
theorem test_wf_refuses_collective_type :
    (Instr.collData 0 ⟨0, []⟩).wf = false ∧ (Instr.join 0 0).wf = false ∧ (Instr.ready 0 0).wf = false ∧
    (Instr.commit 0 0).wf = false ∧ (Instr.collAbortFrame 0 0).wf = false ∧ (Instr.collAbortAck 0 0).wf = false ∧
    (Instr.dispose 0 0).wf = false ∧ (Instr.already 0 0).wf = false ∧ (Instr.escalate 0 0).wf = false ∧
    (Instr.syncUpdate 0 0).wf = false := by
  decide +kernel
theorem test_wf_refuses_port_type :
    (Instr.hello 0 0).wf = false ∧ (Instr.leave 0 0).wf = false ∧ (Instr.unreach 0 0).wf = false ∧
    (Instr.reach 0 0).wf = false := by
  decide +kernel
theorem test_wf_refuses_size :
    (Instr.runPass 0 [0]).wf = false ∧ (Instr.stageConfig []).wf = false ∧ (Instr.enrollKey 0 []).wf = false ∧
    (Instr.firmwareStage ⟨0, [], [], [], []⟩).wf = false ∧ (Instr.cartridgeInsert cart0).wf = false ∧
    (Instr.startMark ⟨some (.root, 0x0305), []⟩).wf = false ∧ (Instr.stageConfiguration [] .stage).wf = false ∧ (Instr.loupeTick { tick0 with tiles := [
      ⟨0, [], ⟨none, none, none, none⟩, ⟨none, none, none, none⟩, 0, 0, 0⟩] }).wf = false ∧
    ({ seq := 0, tileMap := [], darn := [], edge := 0, cores := [] } : RepairRecord).wf = false := by
  decide
theorem test_wf_refuses_offset :
    (Instr.unsupportedAccess 4 4 false).wf = false ∧ (Instr.lowWordRead 0 ⟨2, false⟩).wf = false ∧
    (Instr.lowWordRead 0 ⟨4, true⟩).wf = false ∧ (Instr.rcCounterRead 0 4 ⟨0, some 0⟩).wf = false ∧
    (Instr.registerWrite 6 ⟨0, 0, none⟩).wf = false ∧ (Instr.registerWrite 4 ⟨0, 0, some (0, 0)⟩).wf = false := by
  decide

/-! ### Single commands, with results from the tables and worked examples of the spec -/

/-- A property of the next state of a command. -/
def after (i : Instr) (s : State) (p : State → Bool) : Bool :=
  match exec i s with
  | .next t => p t
  | _ => false

/-- A property of core 0 after a command. -/
def afterK (i : Instr) (k : Core) (p : Core → Bool) : Bool := after i (stK k) fun t => p (t.core 0)

/-! R54, the scalar rows. -/

theorem test_add_wraps : afterK (.add 0 ⟨1, 2, 3, 0⟩) (coreS [0, 0xFFFFFFFFFFFFFFFF, 1]) (fun k => k.sreg 1 == 0) = true := by
  decide +kernel
theorem test_add_to_s0 : afterK (.add 0 ⟨0, 2, 3, 0⟩) (coreS [0, 5, 1]) (fun k => k.sreg 0 == 0) = true := by decide +kernel
theorem test_addi_sign_extends :
    afterK (.addi 0 ⟨1, 2, 0, 0xFFFFFFFF⟩) (coreS [0, 5]) (fun k => k.sreg 1 == 4) = true := by decide +kernel
theorem test_sub_own_source :
    afterK (.sub 0 ⟨2, 2, 3, 0⟩) (coreS [0, 5, 7]) (fun k => k.sreg 2 == 0xFFFFFFFFFFFFFFFE) = true := by decide +kernel
theorem test_shl_six_bits : afterK (.shl 0 ⟨1, 2, 3, 0⟩) (coreS [0, 3, 65]) (fun k => k.sreg 1 == 6) = true := by
  decide +kernel
theorem test_shr_zeros :
    afterK (.shri 0 ⟨1, 2, 0, 63⟩) (coreS [0, 0x8000000000000000]) (fun k => k.sreg 1 == 1) = true := by decide +kernel
theorem test_sar_sign :
    afterK (.sari 0 ⟨1, 2, 0, 63⟩) (coreS [0, 0x8000000000000000]) (fun k => k.sreg 1 == 0xFFFFFFFFFFFFFFFF) = true := by
  decide +kernel
theorem test_mul_low : afterK (.muli 0 ⟨1, 2, 0, 2⟩) (coreS [0, 0x8000000000000001]) (fun k => k.sreg 1 == 2) = true := by
  decide +kernel
theorem test_min_signed :
    afterK (.min 0 ⟨1, 2, 3, 0⟩) (coreS [0, 0xFFFFFFFFFFFFFFFF, 1]) (fun k => k.sreg 1 == 0xFFFFFFFFFFFFFFFF) = true := by
  decide +kernel
theorem test_slt_signed :
    afterK (.slt 0 ⟨1, 2, 3, 0⟩) (coreS [0, 0xFFFFFFFFFFFFFFFF, 1]) (fun k => k.sreg 1 == 1) = true := by decide +kernel
theorem test_sltu_unsigned :
    afterK (.sltu 0 ⟨1, 2, 3, 0⟩) (coreS [0, 0xFFFFFFFFFFFFFFFF, 1]) (fun k => k.sreg 1 == 0) = true := by decide +kernel
theorem test_lih :
    afterK (.lih 0 ⟨1, 2, 0, 0xABCD⟩) (coreS [0, 0x1123456789]) (fun k => k.sreg 1 == 0x0000ABCD23456789) = true := by
  decide +kernel
theorem test_ldw_zero_extends :
    afterK (.ldw 0 ⟨1, 2, 4⟩) (withSpad (coreS [0, 0x1000]) 0x1004 [1, 2, 3, 0xFF]) (fun k => k.sreg 1 == 0xFF030201) = true := by
  decide +kernel
theorem test_st_little_endian :
    afterK (.st 0 ⟨1, 2, 0⟩) (coreS [0x0807060504030201, 0x1000])
      (fun k => cellGet k.spad.cells 0x1000 == some 1 && cellGet k.spad.cells 0x1007 == some 8) = true := by decide +kernel
theorem test_beq_taken : afterK (.beq 0 ⟨2, 3, 9⟩) (coreS [0, 5, 5]) (fun k => k.regs.pc == 9) = true := by decide +kernel
theorem test_bne_falls_through : afterK (.bne 0 ⟨2, 3, 9⟩) (coreS [0, 5, 5]) (fun k => k.regs.pc == 1) = true := by
  decide +kernel
theorem test_jal_links :
    afterK (.jal 0 ⟨2, 0, 9⟩) (coreS []) (fun k => k.sreg 2 == 1 && k.regs.pc == 9) = true := by decide +kernel

/-! R61: lanes of FP32, 1 + 2 and an unordered comparison. -/

def lanesK (a b : BitVec 1024) : Core :=
  { coreS [] with regs := { v := ((Vector.replicate 32 0).set 2 a).set 3 b } }

theorem test_vadd_one_two :
    afterK (.vadd 0 ⟨1, 2, 3, 0, 0, 0, false, 0⟩) (lanesK 0x3F800000 0x40000000) (fun k => k.vreg 1 == 0x40400000) = true := by
  decide +kernel
theorem test_vcmp_unordered :
    afterK (.vcmp 0 ⟨1, 2, 3, 0, 0, 0, false, 6⟩) (lanesK 0x7FC00000 0) (fun k => k.regs.p[1].getLsbD 0 && !k.regs.p[1].getLsbD 1)
      = true := by decide +kernel

/-! Worked examples. -/

/-- "One row stored as MXFP8 (E4M3)" (R99). -/
theorem test_mxfp8_row :
    mxRow .e4m3 (([0x3F333333, 0x3C4985F0, 0x3727C5AC] ++ List.replicate 29 0).map Fmt.fp32.decode)
      = ([0x7B, 0x4D, 0x03] ++ List.replicate 29 0, 0x76, 0) := by decide +kernel

/-- "A group that sequential FP32 addition would lose" (R100). -/
theorem test_group_sum_exact :
    accAdd true 0 (groupSum ([(0x68, 0x68), (0x08, 0x08), (0xE8, 0x68)].map fun p =>
      (scaled 0x8B (Fmt.e4m3.decode p.1), scaled 0x7F (Fmt.e4m3.decode p.2)))) = (0x3F800000, 0) := by decide +kernel

/-- The core of the example under R6. -/
theorem test_core_place :
    coreAt 211 141 = some 36307 ∧ ptOf 36307 = 38 ∧ ciOf 36307 = 614 ∧ homeOf 0x9980 = .cluster 614 ∧
    homeOf 0x99BF = .cluster 614 := by decide +kernel

/-- "An input byte and the DMA that reads it" (R208). -/
theorem test_window_place : winCluster 0x001234560 = 52 ∧ winAddr 0x001234560 = 0x24560 := by decide +kernel

/-- Key 1,000 under R277. -/
theorem test_hash_home : hashHome 1000 = 278 := by decide +kernel

/-- "One element through two levels": the codes at E = −10 (R106). -/
theorem test_sketch_codes :
    ([0x3D17F62B, 0xBC4CCCCD, 0x3D4CCCCD, 0x3C2F4F0E].map (encodeElem (-10))) =
      [some (38, false), some (-13, false), some (51, false), some (11, false)] := by decide +kernel

/-- Q_cap of R438, in mW. -/
theorem test_q_cap : qCap 7 560 = 18000000 ∧ qCap 7 640 = 13263157 ∧ qCap 6 640 = 11368421 := by decide +kernel

/-- The order of epochs (R253). -/
theorem test_epoch_order : newer 1 65535 = true ∧ newer 65535 1 = false ∧ newer 32768 1 = true ∧ newer 32769 1 = false := by
  decide +kernel

/-- "A command sent before its predecessor was acknowledged" (R410): the second word is dropped. -/
theorem test_mailbox_refusal :
    after (.mbxDataWrite 35 7) { upS with host := { linkUp := true, mbx := ({} : State).host.mbx.set 35 { data := 5, full := true, mode := false } } }
      (fun t => (t.host.mbx[35]).data == 5 && (t.host.mbx[35]).rej && t.host.mbxErr == 0x80230101) = true := by decide +kernel


/-! Words of a core, written out from R53, R131 and R60. -/

/-- "One MMA and its store" (R60). -/
theorem test_word_mma : decodeCore 0 0x40510A63C1000000 = some (.mma 0 ⟨1, 4, 4, 5, 6, 7, true, 8⟩) := by decide +kernel

/-- ADD with SD 1, SA 2, SB 3 (R53), COPY with SD 1, SA 2, SL 3 and WOPEN with W 7, SA 1, SB 2 (R131); 0x9C is no opcode. -/
theorem test_words :
    decodeCore 0 (BitVec.ofNat 64 (0x10 * 2 ^ 56 + 1 * 2 ^ 51 + 2 * 2 ^ 46 + 3 * 2 ^ 41)) = some (.add 0 ⟨1, 2, 3, 0⟩) ∧
    decodeCore 0 (BitVec.ofNat 64 (0x99 * 2 ^ 56 + 1 * 2 ^ 51 + 2 * 2 ^ 46 + 3 * 2 ^ 41)) = some (.copy 0 ⟨1, 2, 3, 0⟩) ∧
    decodeCore 0 (BitVec.ofNat 64 (0x9A * 2 ^ 56 + 7 * 2 ^ 53 + 1 * 2 ^ 48 + 2 * 2 ^ 43)) = some (.wopen 0 ⟨7, 1, 2⟩) ∧
    decodeCore 0 (BitVec.ofNat 64 (0x9C * 2 ^ 56)) = none := by decide +kernel

/-! Accesses of registers. -/

/-- A PATCH whose If-Match is not the ETag changes nothing (R501). -/
theorem test_patch_refused :
    after (.setPanelLock ⟨⟨some true, none⟩, some 1⟩) upS (fun t => !t.mgmt.panelLock && t.out == [.redfish false]) = true := by decide +kernel

/-- A 64-bit write is made to both registers, and an RW1C bit that an event sets at once stays set (R9, R13). -/
theorem test_wide_write :
    after (.registerWrite 0x201000 ⟨3, 2, some (5, 0)⟩) { upS with host := { linkUp := true, dbStat := 7 } }
      (fun t => t.host.dbStat == 6 && t.host.dbMask == 5) = true := by decide +kernel

/-- The PERST# of HOST1 is ignored where CXL_WIDTH is 1, and resets the link otherwise (R532). -/
theorem test_perst_host1 :
    ([(1, 0x104), (0, 0)].all fun w =>
      after (.loupeTick { tick0 with perst1 := true })
        { upS with host := { linkUp := true, abi := 0x104 }, eng := { cfg := { cxlWidth := w.1 } } }
        (fun t => t.host.abi == w.2)) = true := by decide +kernel

theorem witness_StepRunsFrontCommand :
    (∃ (i : Instr) (rest : List Instr) (s : State), s.pending = i :: rest) ∧
    (∃ (s : State), s.pending = []) :=
  ⟨⟨.nop 0, [.halt 0], { pending := [.nop 0, .halt 0] }, rfl⟩,
   ⟨{}, rfl⟩⟩

theorem witness_ScalarArithmetic :
    (∃ (r : Reg), r ≠ 0) ∧
    (∃ (c : CoreId) (f : ScalarF) (s : State), CanGoOn s c (if true then [f.sa, f.sd] else [f.sa, f.sb, f.sd]) []) :=
  ⟨⟨31, by decide⟩,
   ⟨0, ⟨1, 2, 3, 5⟩, stK (coreS []), by decide⟩⟩

theorem witness_BranchTargets :
    (∃ (c : CoreId) (f : BranchF) (s : State) (pc : Nat), CanIssue s c [f.sa, f.sb] [] ∧ pc < (s.core c).text.length
      ∧ (pc : Int) = (s.core c).regs.pc.toNat + (if decide (((s.core c).sreg f.sa) = (s.core c).sreg f.sb) then
      f.imm.toInt else 1)) ∧
    (∃ (c : CoreId) (f : BranchF) (s : State) (pc : Nat), CanIssue s c [f.sa] [] ∧ pc < (s.core c).text.length ∧ (pc
      : Int) = (s.core c).regs.pc.toNat + f.imm.toInt) ∧
    (∃ (c : CoreId) (f : BranchF) (s : State), CanIssue s c [f.sa] [] ∧ ((s.core c).sreg f.sa).toNat % 2048 <
      (s.core c).text.length) :=
  ⟨⟨0, ⟨1, 2, 7⟩, stK (coreS []), 7, by decide⟩,
   ⟨0, ⟨1, 0, 0⟩, stK (coreS []), 0, by decide⟩,
   ⟨0, ⟨1, 0, 0⟩, stK (coreS [2048 + 7]), by decide⟩⟩

theorem witness_ScratchpadAccess :
    (∃ (c : CoreId) (f : LoadF) (s : State) (bs : List Byte), CanGoOn s c [f.sa, f.d] [] ∧ (s.core c).spad.upset =
      [] ∧ bs.length = 8 ∧ Reaches (s.core c) (effAddr (s.core c) f) 8 8 ∧ Holds (s.core c) (effAddr (s.core c) f)
      bs) ∧
    (∃ (c : CoreId) (f : LoadF) (s : State) (bs : List Byte), CanGoOn s c [f.sa] [f.d] ∧ (s.core c).spad.upset = []
      ∧ bs.length = 128 ∧ Reaches (s.core c) (effAddr (s.core c) f) 128 32 ∧ Holds (s.core c) (effAddr (s.core c) f)
      bs) ∧
    (∃ (c : CoreId) (f : LoadF) (s : State), CanGoOn s c [f.sa, f.d] [] ∧ Reaches (s.core c) (effAddr (s.core c) f)
      4 4) ∧
    (∃ (c : CoreId) (f : LoadF) (s : State), CanGoOn s c [f.sa] [f.d] ∧ Reaches (s.core c) (effAddr (s.core c) f)
      128 32) :=
  ⟨⟨0, ⟨1, 2, 8⟩, stK (withSpad (coreS [0, 0x1000]) 0x1008 (bytesN 8)), bytesN 8, by decide⟩,
   ⟨0, ⟨1, 2, 0⟩, stK (withSpad (coreS [0, 0xFFF80]) 0xFFF80 (bytesN 128)), bytesN 128, by decide, rfl, rfl,
     by decide, holds_bytes _ _ _⟩,
   ⟨0, ⟨1, 2, 4⟩, stK (coreS [0, 0xFFFF8]), by decide⟩,
   ⟨0, ⟨1, 2, 32⟩, stK (coreS [0, 0x1000]), by decide⟩⟩

theorem witness_CsrAccess :
    (∃ (c : CoreId) (f : CsrF) (s : State), CanGoOn s c [f.sd] [] ∧ f.csr = (0x004 : BitVec 12) ∧ tabFind (s.core
      c).latch (0x004 : BitVec 12).toNat = none) ∧
    (∃ (c : CoreId) (f : CsrF) (s : State), CanGoOn s c [f.sa] [] ∧ csrAssigned f.csr.toNat = true) :=
  ⟨⟨0, ⟨1, 0, 0x004, 0⟩, stK (coreS []), by decide⟩,
   ⟨0, ⟨0, 1, 0x203, 0⟩, stK (coreS []), by decide⟩⟩

theorem witness_FenceAndHalt :
    (∃ (c : CoreId) (imm : BitVec 32) (s : State), CanGoOn s c [] [] ∧ imm.toNat < 32 ∧ FenceMet (s.core c).units
      imm) ∧
    (∃ (c : CoreId) (imm : BitVec 32) (s : State), CanIssue s c [] [] ∧ imm.toNat < 32 ∧ ¬ FenceMet (s.core c).units
      imm) ∧
    (∃ (c : CoreId) (imm : BitVec 32) (s : State), CanIssue s c [] [] ∧ (s.core c).recs.fault = 0 ∧ 32 ≤ imm.toNat) ∧
    (∃ (c : CoreId) (s : State), (s.core c).run = .halting ∧ UnitsIdle (s.core c).units) :=
  ⟨⟨0, 31, stK (coreS []), by decide⟩,
   ⟨0, 1, stK { coreS [] with units := { mxQ := [.accz ⟨0, 0, 0, 0, 0⟩] } }, by decide⟩,
   ⟨0, 32, stK (coreS []), by decide⟩,
   ⟨0, stK { coreS [] with run := .halting }, by decide⟩⟩

theorem witness_ProgramFaults :
    (∃ (c : CoreId) (f : LoadF) (s : State), CanIssue s c ([f.sa, f.d]) ([]) ∧ (s.core c).recs.fault = 0 ∧ ¬ Reaches
      (s.core c) (effAddr (s.core c) f) 8 8) ∧
    (∃ (c : CoreId) (w : BitVec 64) (s : State), CanIssue s c [] [] ∧ (s.core c).recs.fault = 0 ∧ decodable w =
      false) ∧
    (∃ (c : CoreId) (s : State) (e : LayerEntry), (s.core c).run = .running ∧ (s.core c).recs.fault = 0 ∧
      runningEntry s = some e ∧ e.wdog ≠ 0) ∧
    (∃ (c : CoreId) (f : SyncF) (s : State), CanIssue s c [f.sb] [] ∧ (s.core c).recs.fault = 0 ∧ f.scope = 0) :=
  ⟨⟨0, ⟨1, 2, 4⟩, stK (coreS []), by decide⟩,
   ⟨0, 0, stK (coreS []), by decide⟩,
   ⟨0,
     { stK (coreS []) with eng := { image := some image1, lp := some { kind := .work, entry := 0, number := 1 } } },
     { wdog := 1 }, by decide⟩,
   ⟨0, ⟨0, 0, 1, 0, 0⟩, stK (coreS []), by decide⟩⟩

theorem witness_VectorLanes :
    (∃ (c : CoreId) (f : VecF) (s : State), f.ty ≠ 3 ∧ CanGoOn s c [] [f.va, f.vb, f.vc, f.vd]) ∧
    (∃ (ty : BitVec 2) (a b : Nat), ty ≠ 2 ∧ ((laneFmt ty).decode a = .nan ∨ (laneFmt ty).decode b = .nan)) ∧
    (∃ (ty : BitVec 2) (a b c : Nat), ty ≠ 2 ∧ ((laneFmt ty).decode a = .nan ∨ (laneFmt ty).decode b = .nan ∨
      (laneFmt ty).decode c = .nan)) :=
  ⟨⟨0, ⟨1, 2, 3, 4, 0, 1, false, 0⟩, stK (coreS []), by decide⟩,
   ⟨0, 0x7F800001, 0, by decide⟩,
   ⟨0, 0, 0, 0x7F800001, by decide⟩⟩

theorem witness_IntegerLanesWrap :
    (∃ (c : CoreId) (f : VecF) (s : State), f.ty = 2 ∧ CanGoOn s c [] [f.va, f.vb, f.vc, f.vd]) ∧
    (∃ (c : CoreId) (f : VecF) (s : State), f.ty = 2 ∧ f.ext.toNat % 8 ≠ 7 ∧ 1 ≤ f.vd.val ∧ f.vd.val ≤ 7 ∧ CanGoOn s
      c [] [f.va, f.vb]) ∧
    (∃ (c : CoreId) (f : VecF) (s : State), f.ty = 2 ∧ CanGoOn s c [] [f.va, f.vd]) :=
  ⟨⟨0, ⟨1, 2, 3, 4, 0, 2, false, 0⟩, stK (coreS []), by decide⟩,
   ⟨0, ⟨7, 2, 3, 0, 0, 2, false, 6⟩, stK (coreS []), by decide⟩,
   ⟨0, ⟨1, 2, 3, 4, 0, 2, false, 0⟩, stK (coreS []), by decide⟩⟩

theorem witness_VectorMoves :
    (∃ (c : CoreId) (f : VecF) (s : State), f.ty ≠ 3 ∧ f.ty ≠ 2 ∧ CanGoOn s c [] [f.va, f.vd]) ∧
    (∃ (c : CoreId) (f : VecF) (s : State), f.ty = 2 ∧ CanIssue s c [] [f.va, f.vd] ∧ (s.core c).recs.fault = 0) ∧
    (∃ (c : CoreId) (f : VecF) (s : State), f.ty ≠ 3 ∧ CanGoOn s c [f.va] [f.vd]) ∧
    (∃ (c : CoreId) (f : VecF) (s : State), f.ty ≠ 3 ∧ f.ext.toNat < laneCount f.ty ∧ CanGoOn s c [f.vd] [f.va]) ∧
    (∃ (c : CoreId) (f : VecF) (s : State), f.ty ≠ 3 ∧ f.vc.val < 8 ∧ CanGoOn s c [] [f.va, f.vb, f.vd]) ∧
    (∃ (c : CoreId) (f : VecF) (s : State), f.ty ≠ 3 ∧ f.ext.toNat % 8 ≠ 7 ∧ 1 ≤ f.vd.val ∧ f.vd.val ≤ 7 ∧ CanGoOn s
      c [] [f.va, f.vb]) :=
  ⟨⟨0, ⟨1, 2, 3, 4, 0, 0, false, 0⟩, stK (coreS []), by decide⟩,
   ⟨0, ⟨1, 2, 3, 4, 0, 2, false, 0⟩, stK (coreS []), by decide⟩,
   ⟨0, ⟨1, 2, 3, 4, 0, 0, false, 0⟩, stK (coreS []), by decide⟩,
   ⟨0, ⟨1, 2, 3, 4, 0, 1, false, 63⟩, stK (coreS []), by decide⟩,
   ⟨0, ⟨1, 2, 3, 7, 0, 0, false, 0⟩, stK (coreS []), by decide⟩,
   ⟨0, ⟨1, 2, 3, 0, 0, 0, false, 6⟩, stK (coreS []), by decide⟩⟩

theorem witness_ConvertAndReduce :
    (∃ (f : VecF) (s : State) (c : CoreId) (a b sz rz sp rp : Nat), f.ty = 0 ∧ f.ext.toNat = a * 2 ^ 26 + b * 2 ^ 22
      + (if rz < sz then rp else sp) * 2 ^ 20 ∧ a < 12 ∧ b < 12 ∧ cvtSize a = some sz ∧ cvtSize b = some rz ∧ (sz =
      1 ∨ sz = 2 ∨ sz = 4) ∧ (if rz < sz then sp = 0 ∧ rp < 4 / rz else if sz < rz then rp = 0 ∧ sp < 4 / sz else sp
      = rp ∧ sp < 4 / sz) ∧ CanGoOn s c [] [f.va, f.vd]) ∧
    (∃ (c : CoreId) (f : VecF) (s : State), f.ty ≠ 3 ∧ CanGoOn s c [] [f.va, f.vd]) :=
  ⟨⟨⟨1, 2, 0, 0, 0, 0, false, BitVec.ofNat 30 (10 * 2 ^ 26 + 2 * 2 ^ 22 + 3 * 2 ^ 20)⟩, stK (coreS []), 0, 10, 2, 4,
     1, 0, 3, by decide⟩,
   ⟨0, ⟨1, 2, 3, 4, 0, 1, false, 0⟩, stK (coreS []), by decide⟩⟩

theorem witness_MatrixUnit :
    (∃ (c : CoreId) (f : MmaF) (s : State), CanGoOn s c [f.sa, f.sb, f.ss] [] ∧ (s.core c).units.mxQ.length < 4 ∧
      f.fmtA.toNat < 12 ∧ f.fmtB.toNat < 12 ∧ f.kg ≠ 0 ∧ (pairCycles f.fmtA f.fmtB).isSome = true ∧ Reaches (s.core
      c) ((s.core c).sreg f.sa).toNat (16 * f.kg.toNat * rowBytes f.fmtA) 32 ∧ Reaches (s.core c) ((s.core c).sreg
      f.sb).toNat (32 * f.kg.toNat * rowBytes f.fmtB) 32 ∧ (hasScale f.fmtA = true → Reaches (s.core c) (((s.core
      c).sreg f.ss).toNat % 2 ^ 20) (16 * f.kg.toNat) 16) ∧ (hasScale f.fmtB = true → Reaches (s.core c) (((s.core
      c).sreg f.ss).toNat / 2 ^ 32 % 2 ^ 20) (32 * f.kg.toNat) 16)) ∧
    (∃ (c : CoreId) (f : SparseF) (s : State), CanGoOn s c [f.sa, f.sb, f.ss] [] ∧ (s.core c).units.mxQ.length < 4 ∧
      f.sd = 0 ∧ f.fmtA.toNat < 12 ∧ f.fmtB.toNat < 12 ∧ f.kg ≠ 0 ∧ smmaPair f.fmtA.toNat f.fmtB.toNat = true ∧
      spadIn (s.core c).task.seg ((s.core c).sreg f.sa).toNat 64 = true ∧ Reaches (s.core c) ((s.core c).sreg
      f.sb).toNat (if f.bsp then 32 else 32 * f.kg.toNat * rowBytes f.fmtB) 32 ∧ (f.bsp = false → hasScale f.fmtB =
      true → Reaches (s.core c) (((s.core c).sreg f.ss).toNat / 2 ^ 32 % 2 ^ 20) (32 * f.kg.toNat) 16)) ∧
    (∃ (c : CoreId) (f : AccF) (s : State), CanGoOn s c [f.sa] [] ∧ (s.core c).units.mxQ.length < 4 ∧ (f.fmt.toNat ≤
      5 ∨ f.fmt = 10 ∨ f.fmt = 11) ∧ Reaches (s.core c) ((s.core c).sreg f.sa).toNat (accstBytes f.fmt) 32) ∧
    (∃ (c : CoreId) (f : AccF) (s : State), CanGoOn s c [] (if true then [f.vx] else []) ∧ f.fmt.toNat < 12 ∧
      (s.core c).units.mxQ.length < 4) ∧
    (∃ (c : CoreId) (f : MmaF) (s : State), CanIssue s c [f.sa, f.sb, f.ss] [] ∧ (s.core c).units.mxQ.length = 4) ∧
    (∃ (c : CoreId) (s : State) (f : MmaF) (a b sa sb : Nat) (pc : BitVec 11) (rest : List MxOp) (bsA bsB bsSA bsSB
      : List Byte), (s.core c).units.mxQ = MxOp.mma f a b sa sb pc :: rest ∧ (s.core c).units.mac = none ∧ (∀ o,
      (s.core c).units.move = some o → accOf o ≠ f.acc) ∧ (s.core c).spad.upset = [] ∧ bsA.length = 16 * f.kg.toNat
      * rowBytes f.fmtA ∧ Holds (s.core c) a bsA ∧ bsB.length = 32 * f.kg.toNat * rowBytes f.fmtB ∧ Holds (s.core c)
      b bsB ∧ bsSA.length = (if hasScale f.fmtA then 16 * f.kg.toNat else 0) ∧ Holds (s.core c) sa bsSA ∧
      bsSB.length = (if hasScale f.fmtB then 32 * f.kg.toNat else 0) ∧ Holds (s.core c) sb bsSB) ∧
    (∃ (c : CoreId) (s : State) (o : MxOp) (rest : List MxOp), (s.core c).units.mxQ = o :: rest ∧ onMac o = false ∧
      (s.core c).units.move = none ∧ (∀ m, (s.core c).units.mac = some m → accOf m.op ≠ accOf o)) ∧
    (∃ (c : CoreId) (s : State) (m : MacRun) (f : MmaF) (a b sa sb : Nat) (pc : BitVec 11), (s.core c).units.mac =
      some m ∧ m.op = .mma f a b sa sb pc) ∧
    (∃ (c : CoreId) (s : State) (m : MacRun) (f : SparseF) (a b sb : Nat) (pc : BitVec 11) (ord : BitVec 64),
      (s.core c).units.mac = some m ∧ m.op = .smma f a b sb pc ord) ∧
    (∃ (c : CoreId) (s : State) (o : MxOp) (row : BitVec 1024) (vx : Reg), (s.core c).units.move = some o ∧ (∃ f, o
      = .accrd f ∧ vx = f.vx ∧ row = ((s.core c).regs.acc[f.acc.val])[f.row.val])) ∧
    (∃ (c : CoreId) (s : State) (f : AccF) (a : Nat) (pc : BitVec 11), (s.core c).units.move = some (.accst f a pc)) :=
  ⟨⟨0, ⟨0, 8, 8, 1, 2, 3, true, 1⟩, stK (coreS [0x1000, 0x2000, 0x4000 * 2 ^ 32 + 0x3000]), by decide⟩,
   ⟨0, ⟨0, 1, 2, 3, 2, 2, 0, true, false, 1⟩, stK (coreS [0x1000, 0x2000, 0]), by decide⟩,
   ⟨0, ⟨3, 10, 1, 0, 15⟩, stK (coreS [0x1000]), by decide⟩,
   ⟨0, ⟨3, 0, 1, 31, 15⟩, stK (coreS []), by decide⟩,
   ⟨0, ⟨0, 2, 2, 1, 2, 0, true, 1⟩,
     stK { coreS [] with units := { mxQ := List.replicate 4 (.accz ⟨0, 0, 0, 0, 0⟩) } }, by decide⟩,
   ⟨0,
     stK (withSpad { coreS [] with units := { mxQ := [.mma ⟨0, 2, 2, 1, 2, 0, true, 1⟩ 0 0 0 0 0] } } 0 (List.replicate 1024 1)),
     ⟨0, 2, 2, 1, 2, 0, true, 1⟩, 0, 0, 0, 0, 0, [], List.replicate 512 1, List.replicate 1024 1, [], [], rfl, rfl,
     (fun _ h => nomatch h), rfl, List.length_replicate.trans (by decide), holds_run _ _ _ _ _ (by decide),
     List.length_replicate.trans (by decide), holds_run _ _ _ _ _ (by decide), by decide, (fun _ h => nomatch h),
     by decide, (fun _ h => nomatch h)⟩,
   ⟨0, stK { coreS [] with units := { mxQ := [.accz ⟨3, 0, 0, 0, 0⟩] } }, .accz ⟨3, 0, 0, 0, 0⟩, [], rfl, rfl, rfl,
     (fun _ h => nomatch h)⟩,
   ⟨0, stK { coreS [] with units := { mac := some ⟨.mma ⟨0, 2, 2, 1, 2, 0, true, 1⟩ 0 0 0 0 0, [], [], [], []⟩ } },
     _, ⟨0, 2, 2, 1, 2, 0, true, 1⟩, 0, 0, 0, 0, 0, rfl, rfl⟩,
   ⟨0,
     stK { coreS [] with units := { mac := some ⟨.smma ⟨0, 1, 2, 3, 2, 2, 0, true, false, 1⟩ 0 0 0 0 0, [], [], [], []⟩ } },
     _, _, 0, 0, 0, 0, 0, rfl, rfl⟩,
   ⟨0, stK { coreS [] with units := { move := some (.accrd ⟨3, 0, 0, 31, 15⟩) } }, _, 0, 31, rfl, _, rfl, rfl, rfl⟩,
   ⟨0, stK { coreS [] with units := { move := some (.accst ⟨3, 10, 0, 0, 0⟩ 0 0) } }, _, _, _, rfl⟩⟩

theorem witness_MessageAndSyncIssue :
    (∃ (c : CoreId) (f : SendF) (s : State), CanGoOn s c [f.sa, f.sl, f.so, f.sy] [] ∧ (s.core c).units.sendQ.length
      < 8 ∧ f.stream.toNat < (s.core c).task.streams.length ∧ ((s.core c).sreg f.sl).toNat ≠ 0 ∧ ((s.core c).sreg
      f.sl).toNat ≤ 0x100000 ∧ ((s.core c).sreg f.sl).toNat % 32 = 0 ∧ Reaches (s.core c) ((s.core c).sreg
      f.sa).toNat ((s.core c).sreg f.sl).toNat 32) ∧
    (∃ (c : CoreId) (s : State), CanGoOn s c [] [] ∧ (s.core c).units.sendQ = [] ∧ (s.core c).units.sending = []) ∧
    (∃ (c : CoreId) (s : State), CanIssue s c [] [] ∧ (s.core c).units.sending ≠ []) ∧
    (∃ (c : CoreId) (f : SendF) (s : State), CanGoOn s c [f.sl] [] ∧ ∃ h : f.stream.toNat < 8, 0 ≤ ((s.core
      c).wins[f.stream.toNat].rx - ((s.core c).sreg f.sl).setWidth 32).toInt) ∧
    (∃ (c : CoreId) (f : SendF) (s : State), CanIssue s c [f.sl] [] ∧ ∃ h : f.stream.toNat < 8, ((s.core
      c).wins[f.stream.toNat].rx - ((s.core c).sreg f.sl).setWidth 32).toInt < 0) ∧
    (∃ (c : CoreId) (f : SyncF) (s : State), CanGoOn s c [f.sa, f.sb] [] ∧ f.scope = 0 ∧ (s.core
      c).units.syncQ.length < 8 ∧ (2 = 1 ∨ ((s.core c).sreg f.sa + f.imm.setWidth 64).toNat % 2 ^ 16 < 0xC000)) ∧
    (∃ (c : CoreId) (f : SyncF) (s : State), CanGoOn s c [f.sa, f.sb, f.sd] [] ∧ f.scope = 0 ∧ (s.core
      c).units.syncQ.length < 8) ∧
    (∃ (c : CoreId) (f : SyncF) (s : State), CanGoOn s c [] [] ∧ f.scope.toNat < 3 ∧ (s.core c).units.syncQ.length <
      8) ∧
    (∃ (c : CoreId) (s : State) (p : BitVec 96) (rest : List SyncItem), (s.core c).units.syncQ = .pkt p :: rest ∧
      (s.core c).units.readDue = false) ∧
    (∃ (c : CoreId) (s : State) (p : BitVec 96) (rest : List SyncItem) (id : BitVec 16) (w : Word), (s.core
      c).units.syncQ = .pkt p :: rest ∧ (s.core c).units.readDue = true ∧ (s.core c).units.wait = some (.swaitv id
      w)) :=
  ⟨⟨0, ⟨0, 1, 2, 3, 4, false⟩, stK { coreS [0x1000, 0x20] with task := { seg := 0xFF, streams := [⟨5, 1, 1, 0⟩] } },
     by decide⟩,
   ⟨0, stK (coreS []), by decide⟩,
   ⟨0, stK { coreS [] with units := { sending := [⟨⟨0, 0, 32, 0, 0, 0, false⟩, 0, 0⟩] } }, by decide⟩,
   ⟨0, ⟨7, 0, 1, 0, 0, false⟩, stK (coreS [0]), by decide⟩,
   ⟨0, ⟨7, 0, 1, 0, 0, false⟩, stK (coreS [1]), by decide⟩,
   ⟨0, ⟨0, 1, 2, 0, 0⟩, stK (coreS [0xBFFF, 1]), by decide⟩,
   ⟨0, ⟨3, 1, 2, 0, 0⟩, stK (coreS [0xFFFF, 1]), by decide⟩,
   ⟨0, ⟨0, 0, 0, 2, 0⟩, stK (coreS []), by decide⟩,
   ⟨0, stK { coreS [] with units := { syncQ := [.pkt 1] } }, 1, [], by decide⟩,
   ⟨0, stK { coreS [] with units := { syncQ := [.pkt 1], readDue := true, wait := some (.swaitv 5 9) } }, 1, [], 5,
     9, by decide⟩⟩

theorem witness_DmaOperations :
    (∃ (c : CoreId) (f : DmaF) (s : State), CanGoOn s c [f.sp, f.sm, f.sl, f.sr] [] ∧ (s.core c).units.dmaQ.length <
      8 ∧ (false = false → f.sr = 0) ∧ dmaFault s c (s.core c) true false ((s.core c).sreg f.sp).toNat ((s.core
      c).sreg f.sm).toNat ((s.core c).sreg f.sl).toNat ((s.core c).sreg f.sr).toNat = none) ∧
    (∃ (k : Core) (sp len off : Nat) (region : Nat), sp % 64 = 0 ∧ off % 64 = 0 ∧ len % 64 = 0 ∧ len ≠ 0 ∧ len ≤
      0x100000 ∧ off < 2 ^ 32 ∧ region < 16 ∧ spadIn k.task.seg sp len = true) ∧
    (∃ (c : CoreId) (s : State) (o : DmaOp) (rest : List DmaOp) (bs : List Byte), (s.core c).units.dmaRun = o ::
      rest ∧ o.write = false ∧ o.region ≠ 7 ∧ o.next < dmaUnits o ∧ unitBad s (ciOf c) o.region (unitOff o o.next) =
      false ∧ bs.length = 64 ∧ (∀ i (h : i < bs.length), memLook (s.cluster (ciOf c)).mem (regionBase s (ciOf c)
      o.region + unitOff o o.next + i) = some bs[i])) ∧
    (∃ (c : CoreId) (s : State) (o : DmaOp) (rest : List DmaOp) (bs : List Byte), (s.core c).units.dmaRun = o ::
      rest ∧ o.write = true ∧ o.next < dmaUnits o ∧ (s.core c).spad.upset = [] ∧ bs.length = 64 ∧ Holds (s.core c)
      (o.sp + 64 * o.next) bs) ∧
    (∃ (c : CoreId) (s : State) (o : DmaOp) (rest : List DmaOp) (bs : List Byte), (s.core c).units.dmaRun = o ::
      rest ∧ o.write = false ∧ o.region ≠ 7 ∧ o.next < dmaUnits o ∧ unitBad s (ciOf c) o.region (unitOff o o.next) =
      true ∧ bs.length = 64 ∧ (s.core c).recs.memErr = 0 ∧ (∀ i (h : i < bs.length), memLook (s.cluster (ciOf
      c)).mem (regionBase s (ciOf c) o.region + unitOff o o.next + i) = some bs[i])) ∧
    (∃ (c : CoreId) (s : State) (o : DmaOp) (rest : List DmaOp), (s.core c).units.dmaRun = o :: rest ∧ o.write =
      false ∧ o.next < dmaUnits o ∧ (s.core c).recs.memErr = 0) ∧
    (∃ (c : CoreId) (s : State) (o : DmaOp) (rest : List DmaOp) (bs : List Byte), (s.core c).units.dmaRun = o ::
      rest ∧ o.write = true ∧ o.next < dmaUnits o ∧ (s.core c).spad.upset = [] ∧ bs.length = 64 ∧ Holds (s.core c)
      (o.sp + 64 * o.next) bs ∧ (s.core c).recs.memErr = 0) ∧
    (∃ (c : CoreId) (s : State) (o : DmaOp) (rest : List DmaOp), (s.core c).units.dmaRun = o :: rest ∧ dmaUnits o ≤
      o.next) :=
  ⟨⟨0, ⟨1, 2, 3, 0⟩, { stK (coreS [0, 3 * 2 ^ 32 + (2 ^ 20 - 64), 64]) with eng := { image := some image1 } },
     by decide⟩,
   ⟨coreS [], 0, 0x100000, 2 ^ 32 - 64, 15, by decide⟩,
   ⟨0, stK { coreS [] with units := { dmaRun := [⟨false, 0, 1, 0, 64, 1, 0, 0⟩] } }, ⟨false, 0, 1, 0, 64, 1, 0, 0⟩,
     [], List.replicate 64 0, by decide +kernel⟩,
   ⟨0, stK (withSpad { coreS [] with units := { dmaRun := [⟨true, 0, 1, 0, 64, 1, 0, 0⟩] } } 0 (bytesN 64)),
     ⟨true, 0, 1, 0, 64, 1, 0, 0⟩, [], bytesN 64, rfl, rfl, by decide, rfl, by decide, holds_bytes _ _ _⟩,
   ⟨0,
     { stK { coreS [] with units := { dmaRun := [⟨false, 0, 1, 0, 64, 1, 0, 0⟩] } } with clusters := [(0, { mem := { bad := [0x100000] } })] },
     ⟨false, 0, 1, 0, 64, 1, 0, 0⟩, [], List.replicate 64 0, by decide +kernel⟩,
   ⟨0, stK { coreS [] with units := { dmaRun := [⟨false, 0, 1, 0, 64, 1, 0, 0⟩] } }, ⟨false, 0, 1, 0, 64, 1, 0, 0⟩,
     [], by decide +kernel⟩,
   ⟨0, stK (withSpad { coreS [] with units := { dmaRun := [⟨true, 0, 1, 0, 64, 1, 0, 0⟩] } } 0 (bytesN 64)),
     ⟨true, 0, 1, 0, 64, 1, 0, 0⟩, [], bytesN 64, rfl, rfl, by decide, rfl, by decide, holds_bytes _ _ _, rfl⟩,
   ⟨0, stK { coreS [] with units := { dmaRun := [⟨true, 0, 1, 0, 64, 1, 0, 1⟩] } }, ⟨true, 0, 1, 0, 64, 1, 0, 1⟩,
     [], by decide⟩⟩

theorem witness_FillAndCopy :
    (∃ (c : CoreId) (f : FillF) (s : State), CanGoOn s c [f.sa, f.sl, f.sv] [] ∧ fcFault (s.core c).task.seg
      [((s.core c).sreg f.sa).toNat] ((s.core c).sreg f.sl).toNat = none ∧ (s.core c).units.fcRun = none) ∧
    (∃ (c : CoreId) (f : FillF) (s : State), CanGoOn s c [f.sd, f.sa, f.sl] [] ∧ fcFault (s.core c).task.seg
      [((s.core c).sreg f.sd).toNat, ((s.core c).sreg f.sa).toNat] ((s.core c).sreg f.sl).toNat = none ∧ (s.core
      c).units.fcRun ≠ none ∧ (s.core c).units.fcQ.length < 4) ∧
    (∃ (c : CoreId) (s : State) (a l : Nat) (pat : Word), (s.core c).units.fcRun = some (.fill a l pat)) ∧
    (∃ (c : CoreId) (s : State) (d a : Nat) (bs : List Byte), (s.core c).units.fcRun = some (.copy d a bs.length) ∧
      (s.core c).spad.upset = [] ∧ Holds (s.core c) a bs) :=
  ⟨⟨0, ⟨0, 1, 2, 3⟩, stK (coreS [0, 0x100000, 5]), by decide⟩,
   ⟨0, ⟨1, 2, 3, 0⟩, stK { coreS [0x1000, 0x2000, 32] with units := { fcRun := some (.fill 0 32 0) } }, by decide⟩,
   ⟨0, stK { coreS [] with units := { fcRun := some (.fill 0 32 0) } }, 0, 32, 0, by decide⟩,
   ⟨0, stK (withSpad { coreS [] with units := { fcRun := some (.copy 64 0 32) } } 0 (bytesN 32)), 64, 0, bytesN 32,
     rfl, rfl, holds_bytes _ _ _⟩⟩

theorem witness_SparseUnit :
    (∃ (c : CoreId) (f : SparseF) (s : State), CanGoOn s c [f.sd, f.sa, f.sb, f.ss] [] ∧ (s.core c).units.spRun =
      none ∧ sparseUnused f true true true false true false = true ∧ (f.fmtA = 0 ∨ f.fmtA = 2 ∨ f.fmtA = 3 ∨ f.fmtA
      = 10) ∧ 1 ≤ ((s.core c).sreg f.sb).toNat % 2 ^ 32 ∧ ((s.core c).sreg f.sb).toNat % 2 ^ 32 ≤ 2048 ∧ Reaches
      (s.core c) ((s.core c).sreg f.sa).toNat (32 * (((s.core c).sreg f.sb).toNat % 2 ^ 32) * stripElem
      f.fmtA.toNat) 32 ∧ Reaches (s.core c) ((s.core c).sreg f.sd).toNat 32 32) ∧
    (∃ (c : CoreId) (f : SparseF) (s : State), CanGoOn s c [f.sa, f.sb] [] ∧ (s.core c).units.spRun = none ∧
      sparseUnused f false true true false false false = true ∧ ((s.core c).sreg f.sb).toNat % 2 ^ 32 % 64 = 0 ∧
      ((s.core c).sreg f.sb).toNat / 2 ^ 32 % 64 = 0 ∧ ((s.core c).sreg f.sb).toNat / 2 ^ 32 ≤ 0x1000000 ∧ Reaches
      (s.core c) ((s.core c).sreg f.sa).toNat 65536 32) ∧
    (∃ (c : CoreId) (f : SparseF) (s : State), CanGoOn s c [f.sa] [] ∧ (s.core c).units.spRun = none ∧ sparseUnused
      f false true false false false false = true ∧ Reaches (s.core c) ((s.core c).sreg f.sa).toNat 32 32) ∧
    (∃ (c : CoreId) (f : SparseF) (s : State), CanGoOn s c [f.sd, f.sa, f.sb] [] ∧ (s.core c).units.spRun = none ∧
      sparseUnused f true true true false false false = true ∧ ((s.core c).sreg f.sa).toNat % 64 = 0 ∧ (((s.core
      c).sreg f.sa).toNat / 2 ^ 32 = 1 ∨ ((s.core c).sreg f.sa).toNat / 2 ^ 32 = 3 ∨ ((s.core c).sreg f.sa).toNat /
      2 ^ 32 = 4 ∨ ((s.core c).sreg f.sa).toNat / 2 ^ 32 = 5)) ∧
    (∃ (c : CoreId) (f : SparseF) (s : State), CanGoOn s c [f.sd, f.sa, f.sb, f.ss] [] ∧ (s.core c).units.spRun =
      none ∧ sparseUnused f true true true true false false = true ∧ Reaches (s.core c) ((s.core c).sreg f.sa).toNat
      128 32 ∧ Reaches (s.core c) ((s.core c).sreg f.sb).toNat 16 16) ∧
    (∃ (c : CoreId) (f : SparseF) (s : State), CanGoOn s c [f.sa, f.sb] [] ∧ sparseUnused f false true true false
      false false = true ∧ (s.core c).units.syncQ.length < 8) ∧
    (∃ (c : CoreId) (s : State) (o : SpOp), (s.core c).units.spRun = some o ∧ o.kind = .hinit) ∧
    (∃ (c : CoreId) (s : State) (o : SpOp) (bs : List Byte), (s.core c).units.spRun = some o ∧ o.kind = .spack ∧
      (s.core c).spad.upset = [] ∧ bs.length = 32 * (o.b.toNat % 4096) * stripElem o.f.fmtA.toNat ∧ Holds (s.core c)
      o.a.toNat bs ∧ spadIn (s.core c).task.seg o.d.toNat (packStrip o.f.fmtA.toNat (o.b.toNat % 4096) (o.b.toNat /
      2 ^ 32) (splitBits (8 * stripElem o.f.fmtA.toNat) (32 * (o.b.toNat % 4096)) (leNat bs))).length = true) ∧
    (∃ (c : CoreId) (s : State) (o : SpOp) (zs cs : List Byte), (s.core c).units.spRun = some o ∧ o.kind = .fmask ∧
      (s.core c).spad.upset = [] ∧ o.f.sd ≠ 0 ∧ zs.length = 128 ∧ Holds (s.core c) o.a.toNat zs ∧ cs.length = 16 ∧
      Holds (s.core c) o.b.toNat cs) ∧
    (∃ (x : SpDone) (h : HashAcc) (key v w n : Nat), x.k.spad.upset = [] ∧ n < 8 ∧ key < 0xFFFFFFFF ∧ v < 2 ^ 32 ∧ w
      < 2 ^ 32 ∧ Passed x.k h.table key n ∧ Entry x.k h.table ((key * 0x9E3779B1 % 2 ^ 32 / 2 ^ 19 + n) % 8192) key
      w) ∧
    (∃ (x : SpDone) (h : HashAcc) (key v w n : Nat), x.k.spad.upset = [] ∧ n < 8 ∧ key < 0xFFFFFFFF ∧ v < 2 ^ 32 ∧ w
      < 2 ^ 32 ∧ Passed x.k h.table key n ∧ Entry x.k h.table ((key * 0x9E3779B1 % 2 ^ 32 / 2 ^ 19 + n) % 8192)
      0xFFFFFFFF w) ∧
    (∃ (x : SpDone) (h : HashAcc) (key v : Nat), x.k.spad.upset = [] ∧ key < 0xFFFFFFFF ∧ v < 2 ^ 32 ∧ Passed x.k
      h.table key 8) ∧
    (∃ (c : CoreId) (s : State) (o : SpOp) (h : HashAcc) (bs : List Byte), (s.core c).units.spRun = some o ∧ o.kind
      = .hadd ∧ (s.core c).units.hash = some h ∧ (s.core c).spad.upset = [] ∧ Reaches (s.core c) o.a.toNat bs.length
      32 ∧ Holds (s.core c) o.a.toNat bs ∧ bs.length = stripLen bs ∧ stripOk bs none none = true ∧ fieldAt bs 8 4 +
      32 * fieldAt bs 4 2 ≤ 0xFFFFFFFF ∧ (fieldAt bs 6 1 = 0 ∨ fieldAt bs 6 1 = 10) ∧ (haddAll (fieldAt bs 8 4) (if
      fieldAt bs 6 1 = 0 then .bf16 else .fp32) (stripElems bs)
      { k := withUnits (s.core c) { (s.core c).units with spRun := none }, free := s.free } h).1.fault = none) ∧
    (∃ (c : CoreId) (s : State) (o : SpOp) (h : HashAcc) (tb sp : List Byte), (s.core c).units.spRun = some o ∧
      o.kind = .hmerge ∧ (s.core c).units.hash = some h ∧ (s.core c).spad.upset = [] ∧ o.f.sd ≠ 0 ∧ tb.length =
      65536 ∧ Holds (s.core c) h.table tb ∧ sp.length = 64 * (h.spilled / 8) ∧ (∀ i < h.spilled / 8, unitBad s (ciOf
      c) 5 (h.spillOff + 64 * i) = false) ∧ (∀ i (hi : i < sp.length), memLook (s.cluster (ciOf c)).mem (regionBase
      s (ciOf c) 5 + h.spillOff + i) = some sp[i]) ∧ 8 * ((recordsOf tb).filter (·.1 ≠ 0xFFFFFFFF)).length ≤
      o.b.toNat ∧ 8 * ((recordsOf tb).filter (·.1 ≠ 0xFFFFFFFF)).length ≤ regionBytes s (ciOf c) 3 ∧ h.pend = [] ∧
      o.a.toNat = 3 * 2 ^ 32) :=
  ⟨⟨0, ⟨1, 2, 3, 0, 2, 0, 0, false, false, 0⟩, stK (coreS [0x20000, 0, 2048, 0]), by decide⟩,
   ⟨0, ⟨0, 1, 2, 0, 0, 0, 0, false, false, 0⟩, stK (coreS [0, 0x1000000 * 2 ^ 32]), by decide⟩,
   ⟨0, ⟨0, 1, 0, 0, 0, 0, 0, false, false, 0⟩, stK (coreS [0x40]), by decide⟩,
   ⟨0, ⟨1, 2, 3, 0, 0, 0, 0, false, false, 0⟩, stK (coreS [0, 3 * 2 ^ 32, 0]), by decide⟩,
   ⟨0, ⟨1, 2, 3, 4, 0, 0, 0, false, false, 0⟩, stK (coreS [0, 0, 128, 0]), by decide⟩,
   ⟨0, ⟨0, 1, 2, 0, 0, 0, 0, false, false, 0⟩, stK (coreS []), by decide⟩,
   ⟨0,
     stK { coreS [] with units := { spRun := some ⟨.hinit, ⟨0, 1, 2, 0, 0, 0, 0, false, false, 0⟩, 0, 0, 64 * 2 ^ 32, 0, 0, 0⟩ } },
     ⟨.hinit, ⟨0, 1, 2, 0, 0, 0, 0, false, false, 0⟩, 0, 0, 64 * 2 ^ 32, 0, 0, 0⟩, by decide⟩,
   ⟨0,
     stK (withSpad { coreS [] with units := { spRun := some ⟨.spack, ⟨1, 2, 3, 4, 2, 0, 0, false, false, 0⟩, 0x1000, 0, 1, 0, 0, 0⟩ } } 0 (bytesN 32)),
     ⟨.spack, ⟨1, 2, 3, 4, 2, 0, 0, false, false, 0⟩, 0x1000, 0, 1, 0, 0, 0⟩, bytesN 32, rfl, rfl, rfl, by decide,
     holds_bytes _ _ _, by decide +kernel⟩,
   ⟨0,
     stK (withSpad { coreS [] with units := { spRun := some ⟨.fmask, ⟨1, 2, 3, 4, 0, 0, 0, false, false, 0⟩, 0, 0, 0, 0, 0, 0⟩ } } 0 (List.replicate 128 0)),
     ⟨.fmask, ⟨1, 2, 3, 4, 0, 0, 0, false, false, 0⟩, 0, 0, 0, 0, 0, 0⟩, List.replicate 128 0, List.replicate 16 0,
     rfl, rfl, rfl, by decide, List.length_replicate, holds_run _ _ _ _ _ (by decide), List.length_replicate,
     holds_run _ _ _ _ _ (by decide)⟩,
   ⟨{ k := withSpad (coreS []) 0 (List.replicate 8 0), free := 0 }, hash0, 0, 1, 0, 0, rfl, by decide, by decide,
     by decide, by decide, (fun j hj => absurd hj (Nat.not_lt_zero j)), by decide +kernel⟩,
   ⟨{ k := withSpad (coreS []) 0 (List.replicate 8 0xFF), free := 0 }, hash0, 0, 1, 0xFFFFFFFF, 0, rfl, by decide,
     by decide, by decide, by decide, (fun j hj => absurd hj (Nat.not_lt_zero j)), by decide +kernel⟩,
   ⟨{ k := withSpad (coreS []) 0 (List.replicate 64 1), free := 0 }, hash0, 0, 1, rfl, by decide, by decide,
     (by intro j hj; exact ⟨0x01010101, 0x01010101, by decide, by decide, by decide, by revert hj; revert j; decide +kernel⟩)⟩,
   ⟨0,
     stK (withSpad { coreS [] with units := { spRun := some ⟨.hadd, ⟨0, 1, 0, 0, 0, 0, 0, false, false, 0⟩, 0, 0, 0, 0, 0, 0⟩, hash := some { hash0 with table := 96 } } } 0 (strip1 ++ List.replicate 8 0xFF)),
     ⟨.hadd, ⟨0, 1, 0, 0, 0, 0, 0, false, false, 0⟩, 0, 0, 0, 0, 0, 0⟩, { hash0 with table := 96 }, strip1,
     by decide +kernel⟩,
   ⟨0,
     { stK (withSpad { coreS [] with units := { spRun := some ⟨.hmerge, ⟨1, 2, 3, 0, 0, 0, 0, false, false, 0⟩, 0, 3 * 2 ^ 32, 65536, 0, 0, 0⟩, hash := some hash0 } } 0 (List.replicate 65536 0xFF)) with eng := { image := some image1 } },
     ⟨.hmerge, ⟨1, 2, 3, 0, 0, 0, 0, false, false, 0⟩, 0, 3 * 2 ^ 32, 65536, 0, 0, 0⟩, hash0,
     List.replicate 65536 0xFF, [], rfl, rfl, rfl, rfl, by decide, List.length_replicate,
     holds_run _ _ _ _ _ (Nat.le_refl _), rfl, by decide, by decide,
     (records_le _ _ _ (Nat.le_of_eq List.length_replicate)),
     (Nat.le_trans (records_le _ _ 65536 (Nat.le_of_eq List.length_replicate)) (by decide +kernel)), rfl, rfl⟩⟩

theorem witness_WindowsAndMessages :
    (∃ (c : CoreId) (f : WinF) (s : State), CanGoOn s c [f.sa, f.sb] [] ∧ WindowOk (s.core c).task.seg ((s.core
      c).sreg f.sa).toNat ((s.core c).sreg f.sb).toNat ∧ windowBusy (s.core c) f.w.val = false) ∧
    (∃ (c : CoreId) (f : WinF) (s : State), CanIssue s c [f.sa, f.sb] [] ∧ WindowOk (s.core c).task.seg ((s.core
      c).sreg f.sa).toNat ((s.core c).sreg f.sb).toNat ∧ windowBusy (s.core c) f.w.val = true) ∧
    (∃ (c : CoreId) (f : WinF) (s : State), CanIssue s c [] [] ∧ windowBusy (s.core c) f.w.val = true) ∧
    (∃ (c : CoreId) (seg : Fin 8) (s : State), (s.core c).spad.segs[seg.val] = .waking) ∧
    (∃ (c : CoreId) (flow : BitVec 16) (s : State) (h : BitVec 256) (pay : List (BitVec 256)) (rest : List (BitVec
      16 × BitVec 256)) (w : Fin 8), tabFind (s.core c).accepts flow.toNat = none ∧ takeMessage flow (s.core c).rx =
      some (h, pay, rest) ∧ hdrLpass h = (s.core c).task.lpass.toNat ∧ hdrWin h = w.val ∧ windowReason (s.core
      c).wins[w.val] h = none ∧ hdrSig h = false) ∧
    (∃ (c : CoreId) (flow : BitVec 16) (s : State) (h : BitVec 256) (pay : List (BitVec 256)) (rest : List (BitVec
      16 × BitVec 256)), tabFind (s.core c).accepts flow.toNat = none ∧ takeMessage flow (s.core c).rx = some (h,
      pay, rest) ∧ hdrLpass h ≠ (s.core c).task.lpass.toNat) ∧
    (∃ (c : CoreId) (flow : BitVec 16) (s : State) (h : BitVec 256) (pay : List (BitVec 256)) (rest : List (BitVec
      16 × BitVec 256)) (w : Fin 8), tabFind (s.core c).accepts flow.toNat = none ∧ takeMessage flow (s.core c).rx =
      some (h, pay, rest) ∧ 1 ≤ hdrLength h ∧ hdrLpass h = (s.core c).task.lpass.toNat ∧ hdrWin h = w.val ∧
      windowReason (s.core c).wins[w.val] h = none ∧ hdrSig h = true) ∧
    (∃ (c : CoreId) (flow : BitVec 16) (s : State) (h : BitVec 256) (pay : List (BitVec 256)) (w : Fin 8) (reason :
      Nat), tabFind (s.core c).accepts flow.toNat = none ∧ ((s.core c).rx.filter fun x => x.1 == flow).map Prod.snd
      = h :: pay ∧ hdrLpass h = (s.core c).task.lpass.toNat ∧ hdrWin h = w.val ∧ windowReason (s.core c).wins[w.val]
      h = some reason ∧ (s.core c).recs.winFault = 0 ∧ (s.core c).recs.fault = 0) ∧
    (∃ (c : CoreId) (flow : BitVec 16) (s : State) (h : BitVec 256) (pay : List (BitVec 256)) (w : Fin 8) (reason :
      Nat), tabFind (s.core c).accepts flow.toNat = none ∧ ((s.core c).rx.filter fun x => x.1 == flow).map Prod.snd
      = h :: pay ∧ hdrLpass h = (s.core c).task.lpass.toNat ∧ hdrWin h = w.val ∧ windowReason (s.core c).wins[w.val]
      h = some reason ∧ (s.core c).recs.winFault.getLsbD 31 = true) ∧
    (∃ (c : CoreId) (flow : BitVec 16) (s : State) (h : BitVec 256) (pay : List (BitVec 256)) (w : Fin 8), tabFind
      (s.core c).accepts flow.toNat = none ∧ ((s.core c).rx.filter fun x => x.1 == flow).map Prod.snd = h :: pay ∧
      pay.length < (hdrLength h + 31) / 32 ∧ hdrLpass h = (s.core c).task.lpass.toNat ∧ hdrWin h = w.val ∧
      windowReason (s.core c).wins[w.val] h = none) :=
  ⟨⟨0, ⟨7, 1, 2⟩, stK (coreS [0x100000 * 2 ^ 32, 2 ^ 32]), by decide⟩,
   ⟨0, ⟨7, 1, 2⟩,
     stK { coreS [0x100000 * 2 ^ 32, 2 ^ 32] with accepts := [(3, ⟨BitVec.ofNat 256 (32 * 2 ^ 96 + 7 * 2 ^ 32), true, 0, 0, 1⟩)] },
     by decide⟩,
   ⟨0, ⟨7, 1, 2⟩,
     stK { coreS [] with accepts := [(3, ⟨BitVec.ofNat 256 (32 * 2 ^ 96 + 7 * 2 ^ 32), true, 0, 0, 1⟩)] },
     by decide⟩,
   ⟨0, 7, stK { coreS [] with spad := { segs := Vector.replicate 8 .waking } }, by decide⟩,
   ⟨0, 3,
     stK { coreS [] with wins := Vector.replicate 8 { opened := true, srcAny := true, base := 0x1000, limit := 0x1020 }, rx := [(3, (BitVec.ofNat 256 (32 * 2 ^ 96))), (4, 9), (3, 7)] },
     (BitVec.ofNat 256 (32 * 2 ^ 96)), [7], [(4, 9)], 0, by decide⟩,
   ⟨0, 3, stK { coreS [] with task := { lpass := 1 }, rx := [(3, (BitVec.ofNat 256 (32 * 2 ^ 96))), (3, 7)] },
     (BitVec.ofNat 256 (32 * 2 ^ 96)), [7], [], by decide⟩,
   ⟨0, 3,
     stK { coreS [] with wins := Vector.replicate 8 { opened := true, srcAny := true, base := 0x1000, limit := 0x1020 }, rx := [(3, sigH), (4, 9), (3, 7)] },
     sigH, [7], [(4, 9)], 0, by decide +kernel⟩,
   ⟨0, 3, stK { coreS [] with rx := [(3, (BitVec.ofNat 256 (32 * 2 ^ 96))), (3, 7)] },
     (BitVec.ofNat 256 (32 * 2 ^ 96)), [7], 0, 0, by decide +kernel⟩,
   ⟨0, 3,
     stK { coreS [] with rx := [(3, (BitVec.ofNat 256 (32 * 2 ^ 96))), (3, 7)], recs := { winFault := 0x80000000 } },
     (BitVec.ofNat 256 (32 * 2 ^ 96)), [7], 0, 0, by decide +kernel⟩,
   ⟨0, 3,
     stK { coreS [] with wins := Vector.replicate 8 { opened := true, srcAny := true, base := 0x1000, limit := 0x1020 }, rx := [(3, (BitVec.ofNat 256 (32 * 2 ^ 96))), (4, 9)] },
     (BitVec.ofNat 256 (32 * 2 ^ 96)), [], 0, by decide⟩⟩

theorem witness_MeshSlots :
    (∃ (c : CoreId) (s : State), (s.core c).router.running = true ∧ (∀ i : Fin 5, (s.core c).router.hold[i.val] =
      []) ∧ (s.core c).router.table.filter (fun w => firesAt w ((s.core c).router.slot % periodOf s)) = []) ∧
    (∃ (c : CoreId) (s : State) (w : BitVec 64) (inp o : Fin 4) (h : Held) (rest : List Held) (dst : MeshNode) (inp'
      allow : Nat), (s.core c).router.running = true ∧ (s.core c).router.table.filter (fun w => firesAt w ((s.core
      c).router.slot % periodOf s)) = [w] ∧ stIn w = inp.val ∧ (∀ o' : Fin 5, stOut w o'.val = decide (o'.val =
      o.val)) ∧ (∀ i : Fin 5, i.val ≠ inp.val → (s.core c).router.hold[i.val] = []) ∧ (s.core
      c).router.hold[inp.val] = h :: rest ∧ h.tag.toNat = (s.core c).router.slot % 64 ∧ neighbour c o.val = some
      (dst, inp', allow)) ∧
    (∃ (c : CoreId) (s : State) (w : BitVec 64) (inp : Fin 4) (h : Held) (rest : List Held), (s.core
      c).router.running = true ∧ (s.core c).router.table.filter (fun w => firesAt w ((s.core c).router.slot %
      periodOf s)) = [w] ∧ stIn w = inp.val ∧ (∀ o' : Fin 5, stOut w o'.val = decide (o'.val = 4)) ∧ (∀ i : Fin 5,
      i.val ≠ inp.val → (s.core c).router.hold[i.val] = []) ∧ (s.core c).router.hold[inp.val] = h :: rest ∧
      h.tag.toNat = (s.core c).router.slot % 64) ∧
    (∃ (c : CoreId) (s : State) (inp : Fin 5) (h : Held) (rest : List Held), (s.core c).router.running = true ∧
      (s.core c).recs.meshErr = 0 ∧ (s.core c).router.table.filter (fun w => firesAt w ((s.core c).router.slot %
      periodOf s)) = [] ∧ (∀ i : Fin 5, i ≠ inp → (s.core c).router.hold[i.val] = []) ∧ (s.core
      c).router.hold[inp.val] = h :: rest ∧ (h.tag.toNat = (s.core c).router.slot % 64 ∨ 32 < (h.tag.toNat + 64 -
      (s.core c).router.slot % 64) % 64)) ∧
    (∃ (d : DieId) (s : State) (w : BitVec 64) (c : CoreId) (inp : Nat) (f : BitVec 256) (rest : List Inject),
      (s.dies[d.val]).running = true ∧ (s.dies[d.val]).hold = [] ∧ (s.dies[d.val]).table.filter (fun w => firesAt w
      ((s.dies[d.val]).slot % periodOf s)) = [w] ∧ edgeOutbound w = false ∧ edgeRouter d (edgeLinkOf w) = some (c,
      inp) ∧ injectFlit (stFlow w) (s.dies[d.val]).inject = some (f, rest)) ∧
    (∃ (c : CoreId) (s : State) (w : BitVec 64) (inp o : Fin 4) (h : Held) (rest : List Held) (dst : MeshNode) (inp'
      allow : Nat), (s.core c).router.running = true ∧ (s.core c).recs.meshErr = 0 ∧ (s.core c).router.table.filter
      (fun w => firesAt w ((s.core c).router.slot % periodOf s)) = [w] ∧ stIn w = inp.val ∧ (∀ o' : Fin 5, stOut w
      o'.val = decide (o'.val = o.val)) ∧ (∀ i : Fin 5, i.val ≠ inp.val → (s.core c).router.hold[i.val] = []) ∧
      (s.core c).router.hold[inp.val] = h :: rest ∧ 32 < (h.tag.toNat + 64 - (s.core c).router.slot % 64) % 64 ∧
      neighbour c o.val = some (dst, inp', allow)) ∧
    (∃ (s : State) (p : Plan), (comingEntry s).bind (planOf s) = some p) :=
  ⟨⟨0,
     stK { coreS [] with router := { running := true, table := [BitVec.ofNat 64 (0 * 2 ^ 36 + 2 * 2 ^ 39 + 5 * 2 ^ 48)], slot := 1 } },
     by decide⟩,
   ⟨257,
     ({} : State).setCore 257 { coreS [] with router := { running := true, table := [BitVec.ofNat 64 (3 * 2 ^ 36 + 2 * 2 ^ 39 + 5 * 2 ^ 48)], hold := (Vector.replicate 5 []).set 3 [⟨0, 9⟩] } },
     BitVec.ofNat 64 (3 * 2 ^ 36 + 2 * 2 ^ 39 + 5 * 2 ^ 48), 3, 1, ⟨0, 9⟩, [], .router 258, 3,
     (neighbour 257 1).elim 0 (·.2.2), by decide⟩,
   ⟨0,
     stK { coreS [] with router := { running := true, table := [BitVec.ofNat 64 (0 * 2 ^ 36 + 16 * 2 ^ 39 + 5 * 2 ^ 48)], hold := (Vector.replicate 5 []).set 0 [⟨0, 9⟩] } },
     BitVec.ofNat 64 (0 * 2 ^ 36 + 16 * 2 ^ 39 + 5 * 2 ^ 48), 0, ⟨0, 9⟩, [], by decide⟩,
   ⟨0, stK { coreS [] with router := { running := true, hold := (Vector.replicate 5 []).set 4 [⟨0, 9⟩] } }, 4,
     ⟨0, 9⟩, [], by decide⟩,
   ⟨0,
     { dies := (Vector.replicate 8 {}).set 0 { running := true, table := [BitVec.ofNat 64 (127 * 2 ^ 36 + 5 * 2 ^ 48)], inject := [⟨5, none, [9]⟩] } },
     BitVec.ofNat 64 (127 * 2 ^ 36 + 5 * 2 ^ 48), 191 * 256 + 127, 2, 9, [], by decide⟩,
   ⟨257,
     ({} : State).setCore 257 { coreS [] with router := { running := true, table := [BitVec.ofNat 64 (3 * 2 ^ 36 + 2 * 2 ^ 39 + 5 * 2 ^ 48)], hold := (Vector.replicate 5 []).set 3 [⟨33, 9⟩] } },
     BitVec.ofNat 64 (3 * 2 ^ 36 + 2 * 2 ^ 39 + 5 * 2 ^ 48), 3, 1, ⟨33, 9⟩, [], .router 258, 3,
     (neighbour 257 1).elim 0 (·.2.2), by decide⟩,
   ⟨{ eng := { image := some { image1 with plans := [plan1] }, pass := some pass1 } }, plan1, by decide⟩⟩

theorem witness_MeshArrivals :
    (∃ (c : CoreId) (inp : Fin 5) (sb : BitVec 16) (flit : BitVec 256) (s : State), (s.core c).router.running = true
      ∧ sbOk sb flit = true ∧ sbValid sb = true ∧ (s.core c).router.hold[inp.val].length < 24) ∧
    (∃ (c : CoreId) (inp : Fin 5) (sb : BitVec 16) (flit : BitVec 256) (s : State), (s.core c).router.running = true
      ∧ sbOk sb flit = true ∧ sbValid sb = true ∧ 24 ≤ (s.core c).router.hold[inp.val].length ∧ (s.core
      c).recs.meshErr = 0) ∧
    (∃ (c : CoreId) (inp : Fin 5) (sb : BitVec 16) (flit : BitVec 256) (s : State), (s.core c).router.running = true
      ∧ sbOk sb flit = false ∧ sbValid sb = true ∧ (s.core c).router.hold[inp.val].length < 24 ∧ (s.core
      c).recs.meshErr = 0) ∧
    (∃ (c : CoreId) (sb : BitVec 16) (flit : BitVec 256) (s : State), (s.core c).router.running = true ∧ sbOk sb
      flit = true ∧ sbValid sb = false) ∧
    (∃ (c : CoreId) (sb : BitVec 16) (flit : BitVec 256) (s : State), (s.core c).router.running = true ∧ sbOk sb
      flit = false ∧ sbValid sb = false ∧ (s.core c).recs.meshErr = 0) ∧
    (∃ (n : MeshNode) (inp : Nat) (sb : BitVec 16) (flit : BitVec 256) (before : List Wire) (w : Wire), (sbOk sb
      flit = true → sbValid sb = true) ∧ w.dst = n ∧ w.inp = inp ∧ (∀ x ∈ before, x.dst = n → x.inp ≠ inp)) ∧
    (∃ (d : DieId) (link : Nat) (sb : BitVec 16) (flit : BitVec 256) (s : State), (s.dies[d.val]).running = true ∧
      sbOk sb flit = true ∧ sbValid sb = true ∧ (tabGet [] (s.dies[d.val]).hold link).length < 24) ∧
    (∃ (d : DieId) (link : Nat) (s : State), (s.dies[d.val]).running = true ∧ link < 128 ∧ (s.dies[d.val]).meshErr =
      0) :=
  ⟨⟨0, 4, sideband true 5 9, 9,
     stK { coreS [] with router := { running := true, hold := Vector.replicate 5 (List.replicate 23 ⟨0, 0⟩) } },
     by decide⟩,
   ⟨0, 4, sideband true 5 9, 9,
     stK { coreS [] with router := { running := true, hold := Vector.replicate 5 (List.replicate 24 ⟨0, 0⟩) } },
     by decide⟩,
   ⟨0, 4, sideband true 5 9 ^^^ 0x0100, 9,
     stK { coreS [] with router := { running := true, hold := Vector.replicate 5 (List.replicate 23 ⟨0, 0⟩) } },
     by decide⟩,
   ⟨0, 0, 9, stK { coreS [] with router := { running := true, slot := 0 } }, by decide⟩,
   ⟨0, 0x0100, 9, stK { coreS [] with router := { running := true, slot := 0 } }, by decide⟩,
   ⟨.router 0, 1, sideband true 5 9, 9, [⟨.router 0, 2, 0, 0⟩], ⟨.router 0, 1, sideband true 5 9, 9⟩, by decide⟩,
   ⟨7, 63, sideband true 5 9, 9, { dies := (Vector.replicate 8 {}).set 7 { running := true } }, by decide⟩,
   ⟨7, 127, { dies := (Vector.replicate 8 {}).set 7 { running := true } }, by decide⟩⟩

theorem witness_StartAndSettle :
    (∃ (s : State) (lp : LayerPass) (m : StartMark), s.eng.lp = some lp ∧ lp.started = false ∧ s.eng.pass.bind
      (·.ended) = none ∧ lp.markFails = 0 ∧ (m.tatError ≠ none ∨ s.tat.markErr ≠ none)) ∧
    (∃ (s : State) (lp : LayerPass) (m : StartMark), s.eng.lp = some lp ∧ lp.started = false ∧ s.eng.pass.bind
      (·.ended) = none ∧ lp.markFails = 0 ∧ (m.tatError ≠ none ∨ s.tat.markErr ≠ none)) ∧
    (∃ (s : State) (lp : LayerPass) (m : StartMark) (c : CoreId) (g : CoreProg), s.eng.lp = some lp ∧ lp.started =
      false ∧ s.eng.pass.bind (·.ended) = none ∧ s.tat.markErr = none ∧ m.tatError = none ∧ s.tat.relock = false ∧
      segsReady s lp = true ∧ banksReady s lp = true ∧ progIn (lpProgs s lp) c = some g ∧ g.text ≠ [] ∧ g.wins = []
      ∧ coreUnserved s c = false) ∧
    (∃ (c : CoreId) (s : State), Settles s ∧ inOrder s (.router c) (RxPacket.of (releasePkt s 2 0xFFFF 1)) = true ∧
      (s.core c).router.settled = false ∧ (∀ i : Fin 5, (s.core c).router.hold[i.val] = [])) ∧
    (∃ (c : CoreId) (s : State), (s.core c).router.settled = true) :=
  ⟨⟨{ eng := { lp := some { kind := .work, entry := 0, number := 1 } } },
     { kind := .work, entry := 0, number := 1 }, ⟨some (.tile 0, 0x0306), []⟩, by decide⟩,
   ⟨{ eng := { lp := some { kind := .work, entry := 0, number := 1 } }, tat := { markErr := some (.none, 0x0307) } },
     { kind := .work, entry := 0, number := 1 }, {}, by decide⟩,
   ⟨{ stK (coreS []) with eng := { lp := some { kind := .work, entry := 0, number := 1 }, image := some { image1 with progs := [⟨0, 0, 0, [1], 0xFF, [], []⟩] } }, boot := { inService := BitVec.allOnes 48 } },
     { kind := .work, entry := 0, number := 1 }, {}, 0, ⟨0, 0, 0, [1], 0xFF, [], []⟩, by decide +kernel⟩,
   ⟨0,
     { stK (coreS []) with eng := { lp := some { kind := .work, entry := 0, number := 1, started := true, settling := true } } },
     ⟨_, rfl, by decide⟩, by decide, by decide⟩,
   ⟨0, stK { coreS [] with router := { settled := true } }, by decide⟩⟩

theorem witness_PacketChecks :
    (∃ (c : CoreId) (p : RxPacket) (s : State), inOrder s (.core c) p = true ∧ p.parityOk = false ∧ passOn s = true
      ∧ (s.core c).recs.syncErr = 0) ∧
    (∃ (c : CoreId) (p : RxPacket) (s : State), inOrder s (.core c) p = true ∧ p.parityOk = true ∧ p.valid = true ∧
      (pktType p.bits = 0 ∨ 13 ≤ pktType p.bits ∨ pktRsvd p.bits ≠ 0) ∧ passOn s = true ∧ (s.core c).recs.syncErr =
      0) ∧
    (∃ (c : CoreId) (p : RxPacket) (s : State), inOrder s (.core c) p = true ∧ p.parityOk = false ∧ passOn s = false
      ∧ s.tat.markErr = none) ∧
    (∃ (c : CoreId) (p : RxPacket) (s : State), inOrder s (.core c) p = true ∧ p.parityOk = true ∧ p.valid = true ∧
      pktType p.bits = 12 ∧ pktRsvd p.bits = 0 ∧ pktLpass p.bits ≠ s.lpass % 256) :=
  ⟨⟨0, badP,
     { stK (coreS []) with eng := { lp := some { kind := .work, entry := 0, number := 0, started := true } } },
     by decide +kernel⟩,
   ⟨0, .of (packet 13 0 0 0 0 0 0 0 0),
     { stK (coreS []) with eng := { lp := some { kind := .work, entry := 0, number := 0, started := true } } },
     by decide +kernel⟩,
   ⟨0, badP, stK (coreS []), by decide +kernel⟩,
   ⟨0, .of (packet 12 0 0 0 0 0 0 255 0), stK (coreS []), by decide +kernel⟩⟩

theorem witness_ObjectOperations :
    (∃ (ci : ClusterId) (p : RxPacket) (s : State), Passes s (.cluster ci) 3 p ∧ homeOf (pktId p.bits) = .cluster ci
      ∧ tileUnserved s (tileOfCi ci) = false ∧ pktGy p.bits < 0xD0 ∧ NoWaitSync s) ∧
    (∃ (ci : ClusterId) (p : RxPacket) (s : State), Passes s (.cluster ci) 3 p ∧ homeOf (pktId p.bits) = .cluster ci
      ∧ 0xD0 ≤ pktGy p.bits) ∧
    (∃ (p : RxPacket) (s : State), Passes s .root 1 p ∧ homeOf (pktId p.bits) = .root ∧ 0xD0 ≤ pktGy p.bits ∧
      NoWaitSync s) ∧
    (∃ (p : RxPacket) (s : State) (lp : LayerPass), Passes s .root 1 p ∧ homeOf (pktId p.bits) = .root ∧ pktGy
      p.bits < 0xD0 ∧ s.eng.lp = some lp ∧ lp.started = true ∧ lp.decision = .opened) ∧
    (∃ (p : RxPacket) (s : State), Passes s .root 2 p ∧ homeOf (pktId p.bits) = .root ∧ pktGy p.bits < 0xD0) ∧
    (∃ (ci : ClusterId) (p : RxPacket) (s : State) (f : Flight), Passes s (.cluster ci) 4 p ∧ flightAt s (.cluster
      ci) p = some f ∧ homeOf (pktId p.bits) ≠ .cluster ci) ∧
    (∃ (ci : ClusterId) (p : RxPacket) (s : State), Passes s (.cluster ci) 4 p ∧ homeOf (pktId p.bits) = .cluster ci
      ∧ tileUnserved s (tileOfCi ci) = false) ∧
    (∃ (ci : ClusterId) (p : RxPacket) (s : State), Passes s (.cluster ci) 6 p ∧ homeOf (pktId p.bits) = .cluster ci
      ∧ tileUnserved s (tileOfCi ci) = false) :=
  ⟨⟨767, .of (packet 3 0 0xBFFF 0 0 0 0 0 5), {}, by decide⟩,
   ⟨767, .of (packet 3 0 0xBFFF 0 208 0 0 0 5), {}, by decide⟩,
   ⟨.of (packet 1 0 0xC000 0 208 0 0 0 5), {}, by decide⟩,
   ⟨.of (packet 1 0 0xFFFF 0 207 0 0 0 5),
     { eng := { lp := some { kind := .work, entry := 0, number := 0, started := true } } },
     { kind := .work, entry := 0, number := 0, started := true }, by decide⟩,
   ⟨.of (packet 2 0 0xC000 0 0 0 0 0 5), {}, by decide⟩,
   ⟨0, .of (packet 4 0 64 0 208 0 0 0 0),
     { tat := { flight := [⟨.cluster 0, .tile 0, .root, packet 4 0 64 0 0xD0 0 0 0 0, .none⟩] } },
     ⟨.cluster 0, .tile 0, .root, packet 4 0 64 0 0xD0 0 0 0 0, .none⟩, by decide +kernel⟩,
   ⟨0, .of (packet 4 0 63 0 0 0 0 0 0), {}, by decide⟩,
   ⟨0, .of (packet 6 0 63 0 0 0 0 0 0), {}, by decide⟩⟩

theorem witness_SyncAnswers :
    (∃ (c : CoreId) (p : RxPacket) (s : State) (id : BitVec 16), Passes s (.core c) 7 p ∧ (s.core c).units.wait =
      some (.swait id) ∧ id.toNat = pktId p.bits) ∧
    (∃ (c : CoreId) (p : RxPacket) (s : State), Passes s (.core c) 7 p ∧ (s.core c).units.wait = none ∧ passOn s =
      true ∧ (s.core c).recs.syncErr = 0) ∧
    (∃ (c : CoreId) (p : RxPacket) (s : State) (id : BitVec 16) (sd : Reg), Passes s (.core c) 5 p ∧ (s.core
      c).units.wait = some (.sread id sd) ∧ id.toNat = pktId p.bits) ∧
    (∃ (c : CoreId) (p : RxPacket) (s : State) (id : BitVec 16) (w : Word), Passes s (.core c) 5 p ∧ (s.core
      c).units.wait = some (.swaitv id w) ∧ id.toNat = pktId p.bits ∧ 0 ≤ (BitVec.ofNat 32 (pktValue p.bits) -
      w).toInt) ∧
    (∃ (c : CoreId) (p : RxPacket) (s : State) (id : BitVec 16) (w : Word), Passes s (.core c) 5 p ∧ (s.core
      c).units.wait = some (.swaitv id w) ∧ id.toNat = pktId p.bits ∧ (BitVec.ofNat 32 (pktValue p.bits) - w).toInt
      < 0) ∧
    (∃ (c : CoreId) (p : RxPacket) (s : State) (scope : BitVec 2) (n : BitVec 16), Passes s (.core c) 9 p ∧ (s.core
      c).units.wait = some (.bar scope n) ∧ scope.toNat < 3 ∧ scope.toNat = pktScope p.bits ∧ n.toNat = pktId
      p.bits) :=
  ⟨⟨0, .of (packet 7 0 5 0 0 0 0 0 0), stK { coreS [] with units := { wait := some (.swait 5) } }, 5, by decide⟩,
   ⟨0, .of (packet 7 0 5 0 0 0 0 0 0),
     { stK (coreS []) with eng := { lp := some { kind := .work, entry := 0, number := 0, started := true } } },
     by decide⟩,
   ⟨0, .of (packet 5 0 5 0 0 0 0 0 9), stK { coreS [] with units := { wait := some (.sread 5 31) } }, 5, 31,
     by decide⟩,
   ⟨0, .of (packet 5 0 5 0 0 0 0 0 9), stK { coreS [] with units := { wait := some (.swaitv 5 9) } }, 5, 9,
     by decide⟩,
   ⟨0, .of (packet 5 0 5 0 0 0 0 0 9), stK { coreS [] with units := { wait := some (.swaitv 5 10) } }, 5, 10,
     by decide⟩,
   ⟨0, .of (packet 9 2 1 0 0 0 0 0 0), stK { coreS [] with units := { wait := some (.bar 2 1) } }, 2, 1, by decide⟩⟩

theorem witness_BarriersAndLocks :
    (∃ (c : CoreId) (p : RxPacket) (s : State) (sc : Fin 3), Passes s (.cluster (ciOf c)) 8 p ∧ FromCore s c p ∧
      pktScope p.bits = sc.val ∧ pktId p.bits ≠ 0xFFFF ∧ pktId p.bits = ((s.cluster (ciOf c)).hub.num[sc.val]).toNat
      ∧ hubDone 64 (hubArrived (s.cluster (ciOf c)).hub sc c) sc = false) ∧
    (∃ (c : CoreId) (p : RxPacket) (s : State), Passes s (.cluster (ciOf c)) 8 p ∧ FromCore s c p ∧ pktScope p.bits
      = 0 ∧ pktId p.bits ≠ 0xFFFF ∧ pktId p.bits = ((s.cluster (ciOf c)).hub.num[0]).toNat ∧ hubDone 64 (s.cluster
      (ciOf c)).hub 0 = false ∧ hubDone 64 (hubArrived (s.cluster (ciOf c)).hub 0 c) 0 = true) ∧
    (∃ (c : CoreId) (p : RxPacket) (s : State) (sc : Fin 3), Passes s (.cluster (ciOf c)) 8 p ∧ FromCore s c p ∧
      pktScope p.bits = sc.val ∧ sc ≠ 0 ∧ pktId p.bits ≠ 0xFFFF ∧ pktId p.bits = ((s.cluster (ciOf
      c)).hub.num[sc.val]).toNat ∧ hubDone 64 (s.cluster (ciOf c)).hub sc = false ∧ hubDone 64 (hubArrived
      (s.cluster (ciOf c)).hub sc c) sc = true) ∧
    (∃ (c : CoreId) (p : RxPacket) (s : State) (sc : Fin 3), Passes s (.cluster (ciOf c)) 8 p ∧ FromCore s c p ∧
      pktScope p.bits = sc.val ∧ pktId p.bits ≠ 0xFFFF ∧ pktId p.bits ≠ ((s.cluster (ciOf c)).hub.num[sc.val]).toNat
      ∧ passOn s = true) ∧
    (∃ (pt : TileId) (ci : ClusterId) (p : RxPacket) (s : State) (sc : Fin 3), Passes s (.tile pt) 8 p ∧ FromCluster
      s pt ci p ∧ pktScope p.bits = sc.val ∧ sc ≠ 0 ∧ pktId p.bits ≠ 0xFFFF ∧ pktId p.bits = ((s.tileHub
      pt).num[sc.val]).toNat ∧ hubDone 16 (childArrived (s.tileHub pt) sc (ci.val % 16)) sc = false) ∧
    (∃ (pt : TileId) (ci : ClusterId) (p : RxPacket) (s : State), Passes s (.tile pt) 8 p ∧ FromCluster s pt ci p ∧
      pktScope p.bits = 1 ∧ pktId p.bits ≠ 0xFFFF ∧ pktId p.bits = ((s.tileHub pt).num[1]).toNat ∧ hubDone 16
      (s.tileHub pt) 1 = false ∧ hubDone 16 (childArrived (s.tileHub pt) 1 (ci.val % 16)) 1 = true) ∧
    (∃ (pt : TileId) (ci : ClusterId) (p : RxPacket) (s : State), Passes s (.tile pt) 8 p ∧ FromCluster s pt ci p ∧
      pktScope p.bits = 2 ∧ pktId p.bits ≠ 0xFFFF ∧ pktId p.bits = ((s.tileHub pt).num[2]).toNat ∧ hubDone 16
      (s.tileHub pt) 2 = false ∧ hubDone 16 (childArrived (s.tileHub pt) 2 (ci.val % 16)) 2 = true) ∧
    (∃ (pt : TileId) (ci : ClusterId) (p : RxPacket) (s : State) (sc : Fin 3), Passes s (.tile pt) 8 p ∧ FromCluster
      s pt ci p ∧ pktScope p.bits = sc.val ∧ pktId p.bits ≠ 0xFFFF ∧ (sc = 0 ∨ pktId p.bits ≠ ((s.tileHub
      pt).num[sc.val]).toNat) ∧ passOn s = true) ∧
    (∃ (pt : TileId) (p : RxPacket) (s : State), Passes s .root 8 p ∧ (takeFlight .root p s).1 = some (.tile pt) ∧
      pktScope p.bits = 2 ∧ pktId p.bits ≠ 0xFFFF ∧ pktId p.bits = (s.tat.hub.num[2]).toNat ∧ hubDone 48 s.tat.hub 2
      = false) ∧
    (∃ (pt : TileId) (p : RxPacket) (s : State), Passes s (.tile pt) 9 p ∧ pktId p.bits ≠ 0xFFFF) ∧
    (∃ (ci : ClusterId) (p : RxPacket) (s : State) (sc : Fin 3), Passes s (.cluster ci) 9 p ∧ pktId p.bits ≠ 0xFFFF
      ∧ pktScope p.bits = sc.val) ∧
    (∃ (pt : TileId) (p : RxPacket) (s : State) (lp : LayerPass), Passes s .root 8 p ∧ (takeFlight .root p s).1 =
      some (.tile pt) ∧ pktScope p.bits = 2 ∧ pktId p.bits = 0xFFFF ∧ s.eng.lp = some lp ∧ lp.started = true ∧
      lp.decision = .opened ∧ lp.settling = false ∧ s.tat.hub.arr[2] = 0 ∧ setBit s.tat.hub.halted pt.val = fullMask
      48) ∧
    (∃ (pt : TileId) (p : RxPacket) (s : State) (lp : LayerPass) (x : Pass), LastSettles s lp pt p ∧ lp.slip = false
      ∧ pktValue p.bits ≠ 1 ∧ s.eng.pass = some x ∧ s.coll.insts = [] ∧ s.red.sketches = [] ∧ NoWaitSync s) ∧
    (∃ (pt : TileId) (p : RxPacket) (s : State) (lp : LayerPass), LastSettles s lp pt p ∧ (lp.slip = true ∨ pktValue
      p.bits = 1) ∧ lp.hw = none) ∧
    (∃ (pt : TileId) (p : RxPacket) (s : State), Passes s (.tile pt) 10 p ∧ fromBelow (.tile pt) (takeFlight (.tile
      pt) p s).1 = false) ∧
    (∃ (d : DieId) (p : RxPacket) (s : State), Passes s (.die d) 10 p) ∧
    (∃ (c : CoreId) (p : RxPacket) (s : State), Passes s (.cluster (ciOf c)) 11 p ∧ (takeFlight (.cluster (ciOf c))
      p s).1 = some (.router c) ∧ (s.cluster (ciOf c)).hub.acks = fullMask 64 ∧ (s.cluster (ciOf c)).hub.acksR ≠
      fullMask 64) ∧
    (∃ (pt : TileId) (p : RxPacket) (s : State), Passes s .root 12 p ∧ (takeFlight .root p s).1 = some (.tile pt) ∧
      s.tat.relock = true ∧ setBit s.tat.hub.locks pt.val = fullMask 48 ∧ s.tat.dieLocks = 0xFF) :=
  ⟨⟨0, .of (packet 8 2 0 0 0 0 0 0 0), {}, 2, by decide⟩,
   ⟨0, .of (packet 8 0 0 0 0 0 0 0 0), { clusters := [(0, { hub := { halted := fullMask 64 - 1 } })] }, by decide⟩,
   ⟨0, .of (packet 8 1 0 0 0 0 0 0 0), { clusters := [(0, { hub := { halted := fullMask 64 - 1 } })] }, 1,
     by decide⟩,
   ⟨0, .of (packet 8 1 0xFFFE 0 0 0 0 0 0),
     { eng := { lp := some { kind := .work, entry := 0, number := 0, started := true } } }, 1, by decide⟩,
   ⟨0, 1, .of (packet 8 2 0 0 0 0 0 0 0),
     ({ tat := { flight := [⟨.tile 0, .cluster 1, .cluster 1, packet 8 2 0 0 0 0 0 0 0, .none⟩] } } : State), 2,
     by decide⟩,
   ⟨0, 1, .of (packet 8 1 0 0 0 0 0 0 0),
     ({ tat := { flight := [⟨.tile 0, .cluster 1, .cluster 1, packet 8 1 0 0 0 0 0 0 0, .none⟩], tiles := [(0, { halted := fullMask 16 - 2 })] } } : State),
     by decide⟩,
   ⟨0, 1, .of (packet 8 2 0 0 0 0 0 0 0),
     ({ tat := { flight := [⟨.tile 0, .cluster 1, .cluster 1, packet 8 2 0 0 0 0 0 0 0, .none⟩], tiles := [(0, { halted := fullMask 16 - 2 })] } } : State),
     by decide⟩,
   ⟨0, 1, .of (packet 8 1 1 0 0 0 0 0 0),
     { ({ tat := { flight := [⟨.tile 0, .cluster 1, .cluster 1, packet 8 1 1 0 0 0 0 0 0, .none⟩] } } : State) with eng := { lp := some { kind := .work, entry := 0, number := 0, started := true } } },
     1, by decide⟩,
   ⟨47, .of (packet 8 2 0 0 0 0 0 0 0),
     ({ tat := { flight := [⟨.root, .tile 47, .tile 47, packet 8 2 0 0 0 0 0 0 0, .none⟩] } } : State), by decide⟩,
   ⟨47, .of (packet 9 2 0 0 0 0 0 0 0), {}, by decide⟩,
   ⟨767, .of (packet 9 2 0 0 0 0 0 0 0), {}, 2, by decide⟩,
   ⟨47, .of (packet 8 2 65535 0 0 0 0 0 0),
     { ({ tat := { flight := [⟨.root, .tile 47, .tile 47, packet 8 2 65535 0 0 0 0 0 0, .none⟩], hub := { halted := fullMask 47 } } } : State) with eng := { lp := some { kind := .work, entry := 0, number := 0, started := true } } },
     { kind := .work, entry := 0, number := 0, started := true }, by decide⟩,
   ⟨47, .of (packet 8 2 65535 0 0 0 0 0 0),
     { ({ tat := { flight := [⟨.root, .tile 47, .tile 47, packet 8 2 65535 0 0 0 0 0 0, .none⟩], hub := { settled := fullMask 47 }, dieSettled := 0xFF } } : State) with eng := { lp := some { kind := .work, entry := 0, number := 0, started := true, settling := true }, pass := some pass1 } },
     { kind := .work, entry := 0, number := 0, started := true, settling := true }, pass1, by decide +kernel⟩,
   ⟨47, .of (packet 8 2 65535 0 0 0 0 0 1),
     { ({ tat := { flight := [⟨.root, .tile 47, .tile 47, packet 8 2 65535 0 0 0 0 0 1, .none⟩], hub := { settled := fullMask 47 }, dieSettled := 0xFF } } : State) with eng := { lp := some { kind := .work, entry := 0, number := 0, started := true, settling := true }, pass := some pass1 } },
     { kind := .work, entry := 0, number := 0, started := true, settling := true }, by decide +kernel⟩,
   ⟨47, .of (packet 10 0 0 0 0 0 0 0 0x0301), {}, by decide⟩,
   ⟨7, .of (packet 10 0 0 0 0 0 0 0 0x0301), {}, by decide⟩,
   ⟨0, .of (packet 11 0 0 0 0 0 0 0 0),
     { clusters := [(0, { hub := { acks := fullMask 64, acksR := fullMask 64 - 1 } })], tat := { flight := [⟨.cluster 0, .router 0, .router 0, packet 11 0 0 0 0 0 0 0 0, .none⟩] } },
     by decide⟩,
   ⟨47, .of (packet 12 0 0 0 0 0 0 0 0),
     { tat := { relock := true, dieLocks := 0xFF, hub := { locks := fullMask 47 }, flight := [⟨.root, .tile 47, .tile 47, packet 12 0 0 0 0 0 0 0 0, .none⟩] } },
     by decide⟩⟩

theorem witness_AbortsOfLayerPasses :
    (∃ (p : RxPacket) (s : State) (lp : LayerPass), Passes s .root 10 p ∧ s.eng.lp = some lp ∧ lp.started = true ∧
      lp.decision = .opened ∧ lp.inst = none ∧ lp.hw = none ∧ lp.ext = none ∧ lp.prog = none) ∧
    (∃ (c : CoreId) (p : RxPacket) (s : State), Passes s (.core c) 10 p) ∧
    (∃ (c : CoreId) (p : RxPacket) (s : State), Passes s (.cluster (ciOf c)) 11 p ∧ (takeFlight (.cluster (ciOf c))
      p s).1 = some (.core c) ∧ (s.cluster (ciOf c)).hub.acksR = fullMask 64 ∧ (s.cluster (ciOf c)).hub.acks ≠
      fullMask 64) ∧
    (∃ (s : State) (lp : LayerPass), s.eng.lp = some lp ∧ (lp.decision ≠ .aborted ∨ lp.acked = false ∨
      stagingWritten s = false)) ∧
    (∃ (s : State) (lp : LayerPass) (code : BitVec 16), s.eng.lp = some lp ∧ lp.decision = .aborted ∧ lp.acked =
      true ∧ stagingWritten s = true ∧ lp.kind = .work ∧ lp.inst = none ∧ lp.ext = none ∧ lp.hw = some code ∧
      lp.runs < 4 ∧ againUnits lp = []) :=
  ⟨⟨.of (packet 10 0 0 0 0 0 0 0 0x0301),
     { eng := { lp := some { kind := .work, entry := 0, number := 0, started := true } } },
     { kind := .work, entry := 0, number := 0, started := true }, by decide⟩,
   ⟨0, .of (packet 10 0 0 0 0 0 0 0 0x0301), {}, by decide⟩,
   ⟨0, .of (packet 11 0 0 0 0 0 0 0 0),
     { clusters := [(0, { hub := { acksR := fullMask 64, acks := fullMask 64 - 1 } })], tat := { flight := [⟨.cluster 0, .core 0, .core 0, packet 11 0 0 0 0 0 0 0 0, .none⟩] } },
     by decide⟩,
   ⟨{ eng := { lp := some { kind := .work, entry := 0, number := 0, started := true } } },
     { kind := .work, entry := 0, number := 0, started := true }, by decide⟩,
   ⟨{ eng := { lp := some { kind := .work, entry := 0, number := 0, started := true, decision := .aborted, acked := true, hw := some 0x0301, runs := 3 } } },
     { kind := .work, entry := 0, number := 0, started := true, decision := .aborted, acked := true, hw := some 0x0301, runs := 3 },
     0x0301, by decide +kernel⟩⟩

theorem witness_BoundaryChanges :
    (∃ (s : State) (p : Pass) (entry : Nat) (rest : List Nat) (im : Image) (e : LayerEntry), s.eng.lp = none ∧
      s.eng.parked = none ∧ s.eng.pass = some p ∧ p.ended = none ∧ p.todo = entry :: rest ∧ s.eng.image = some im ∧
      im.layers[entry]? = some e ∧ lfSketch e = false) ∧
    (∃ (s : State) (l : Load) (m : Manifest), atBoundary s = true ∧ s.flt.repairs = [] ∧ s.boot.entering = 0 ∧
      s.wts.refetch = [] ∧ s.wts.load = some l ∧ l.st = .complete ∧ l.adapter = false ∧ l.man = some m ∧
      s.wts.draining = none) ∧
    (∃ (s : State), atBoundary s = false) ∧
    (∃ (s : State), atBoundary s = true ∧ s.eng.training = false) ∧
    (∃ (s : State), s.eng.training = true) ∧
    (∃ (s : State) (l : Load) (m : Manifest), atBoundary s = true ∧ s.eng.training = false ∧ s.flt.repairs = [] ∧
      s.boot.entering = 0 ∧ s.wts.load = some l ∧ l.st = .complete ∧ l.adapter = false ∧ l.man = some m ∧
      s.wts.draining = none) ∧
    (∃ (s : State) (ci : ClusterId) (row : Fin 8) (pcol : Nat), atBoundary s = true ∧ s.eng.training = false ∧
      s.boot.entering = 0 ∧ RecordReady s ∧ s.flt.repairs = [.shift ci row.val pcol true] ∧ pcol < 9) ∧
    (∃ (s : State) (pt : TileId) (d : Fin 2), atBoundary s = true ∧ s.eng.training = false ∧ s.boot.entering = 0 ∧
      RecordReady s ∧ s.flt.repairs = [.relocate pt d true] ∧ (physOf s pt).val ≠ 48 + d.val) ∧
    (∃ (s : State) (bs : List Byte), drainReached s = true ∧ s.flt.repairs = [] ∧ s.eng.imgLoad = none ∧
      s.boot.pendBank = some bs ∧ s.boot.livePending = true ∧ s.boot.pendMode ≠ .stage) ∧
    (∃ (s : State), drainReached s = true ∧ s.flt.repairs = [] ∧ s.eng.imgLoad = none ∧ s.boot.pendMode = .stage) ∧
    (∃ (s : State) (l : ImgLoad) (im : Image), drainReached s = true ∧ s.flt.repairs = [] ∧ s.eng.imgLoad = some l ∧
      l.image = some im) ∧
    (∃ (s : State), s.tat.relock = true) ∧
    (∃ (s : State), s.tat.relock = true) ∧
    (∃ (s : State), s.tat.relock = false) ∧
    (∃ (s : State) (lp : LayerPass), s.eng.lp = some lp ∧ lp.decision = .aborted ∧ lp.acked = true ∧ stagingWritten
      s = true ∧ lp.kind = .work ∧ lp.inst = none ∧ (lp.ext.isSome = true ∨ lp.hw = none)) ∧
    (∃ (s : State) (lp : LayerPass), s.eng.lp = some lp ∧ lp.decision = .aborted ∧ lp.acked = true ∧ stagingWritten
      s = true ∧ lp.kind = .work ∧ lp.inst = none ∧ (lp.ext.isSome = true ∨ lp.hw = none)) :=
  ⟨⟨{ eng := { pass := some pass1, image := some image1 } }, pass1, 0, [], image1, { wdog := 1 }, by decide +kernel⟩,
   ⟨{ wts := { load := some { load1 with st := .complete, man := some man1 } } },
     { load1 with st := .complete, man := some man1 }, man1, by decide⟩,
   ⟨{ eng := { pass := some pass1 } }, by decide⟩,
   ⟨{}, by decide⟩,
   ⟨{ eng := { training := true } }, by decide⟩,
   ⟨{ wts := { load := some { load1 with st := .complete, man := some man1 } } },
     { load1 with st := .complete, man := some man1 }, man1, by decide⟩,
   ⟨{ boot := { cart := some cart0 }, flt := { repairs := [.shift 0 7 8 true] } }, 0, 7, 8, by decide⟩,
   ⟨{ boot := { cart := some cart0 }, flt := { repairs := [.relocate 47 1 true] } }, 47, 1, by decide⟩,
   ⟨{ boot := { pendBank := some [], livePending := true, pendMode := .drain } }, [], by decide⟩,
   ⟨{ boot := { pendMode := .stage } }, by decide⟩,
   ⟨{ eng := { imgLoad := some ⟨0, 0, 0, 0, some image1⟩ } }, ⟨0, 0, 0, 0, some image1⟩, image1, by decide⟩,
   ⟨{ tat := { relock := true } }, by decide⟩,
   ⟨{ tat := { relock := true } }, by decide⟩,
   ⟨{}, by decide⟩,
   ⟨{ eng := { lp := some { kind := .work, entry := 0, number := 0, started := true, decision := .aborted, acked := true, ext := some 0x0804, runs := 3 } } },
     { kind := .work, entry := 0, number := 0, started := true, decision := .aborted, acked := true, ext := some 0x0804, runs := 3 },
     by decide⟩,
   ⟨{ eng := { lp := some { kind := .work, entry := 0, number := 0, started := true, decision := .aborted, acked := true, hw := none, runs := 3 } } },
     { kind := .work, entry := 0, number := 0, started := true, decision := .aborted, acked := true, hw := none, runs := 3 },
     by decide⟩⟩

theorem witness_HostObjectsAndMemory :
    (∃ (obj : BitVec 16) (s : State), hostUp s = true ∧ 0xC000 ≤ obj.toNat ∧ NoWaitSync s) ∧
    (∃ (obj : BitVec 16), obj.toNat < 0xC000) ∧
    (∃ (h : BitVec 512) (s : State), collOk h 10 [] = true ∧ 0xC000 ≤ hf h 0x30 2 ∧ hf h 0x32 1 = 3 ∧ NoWaitSync s) ∧
    (∃ (h : BitVec 512), collOk h 10 [] = true ∧ hf h 0x30 2 < 0xC000) ∧
    (∃ (h : BitVec 36) (s : State) (bs : List Byte), hostUp s = true ∧ s.eng.cfg.window = true ∧ winBad s (unitBase
      h) 64 = false ∧ bs.length = 64 ∧ (∀ i (hi : i < bs.length), winLook s (unitBase h + i) = some bs[i])) ∧
    (∃ (s : State), hostUp s = true ∧ s.eng.cfg.window = true ∧ s.host.path.err = 0) ∧
    (∃ (s : State), hostUp s = true ∧ s.eng.cfg.window = true ∧ s.host.path.wdrop = 0) ∧
    (∃ (s : State), hostUp s = true ∧ s.eng.cfg.window = false) :=
  ⟨⟨0xC000, { host := { linkUp := true } }, by decide⟩,
   ⟨0xBFFF, by decide⟩,
   ⟨hdrOf [(0, 2, magicCl), (2, 1, 1), (3, 1, 10), (0x30, 2, 0xC000), (0x32, 1, 3)], {}, by decide +kernel⟩,
   ⟨hdrOf [(0, 2, magicCl), (2, 1, 1), (3, 1, 10), (0x30, 2, 0xBFFF), (0x32, 1, 1)], by decide +kernel⟩,
   ⟨0xFFFFFFFFF, { host := { linkUp := true }, eng := { cfg := { window := true } } }, List.replicate 64 0, rfl,
     rfl, by decide +kernel, by decide, by decide +kernel⟩,
   ⟨{ host := { linkUp := true }, eng := { cfg := { window := true } } }, by decide⟩,
   ⟨{ host := { linkUp := true }, eng := { cfg := { window := true } } }, by decide⟩,
   ⟨{ host := { linkUp := true } }, by decide⟩⟩

theorem witness_MemoryTemperature :
    (∃ (q : QuadTemp) (a b c d m : Int), Reads q.q0 a ∧ Reads q.q1 b ∧ Reads q.q2 c ∧ Reads q.q3 d ∧ m = max a (max
      b (max c d)) ∧ m < 1680) ∧
    (∃ (t : PhysTile) (s : State) (q : QuadTemp) (a b c d : Int), Reads q.q0 a ∧ Reads q.q1 b ∧ Reads q.q2 c ∧ Reads
      q.q3 d ∧ 1680 ≤ max a (max b (max c d)) ∧ (s.tiles[t.val]).powered = true ∧ (s.tiles[t.val]).opens = []) ∧
    (∃ (t : PhysTile) (l : Fin 2) (s : State) (q : QuadTemp) (a b c d : Int), (dramLayer s.tiles[t.val] l).temp = q
      ∧ Reads q.q0 a ∧ Reads q.q1 b ∧ Reads q.q2 c ∧ Reads q.q3 d ∧ max a (max b (max c d)) < 1312) ∧
    (∃ (t : PhysTile) (l : Fin 2) (s : State) (q : QuadTemp) (a b c d : Int), (dramLayer s.tiles[t.val] l).temp = q
      ∧ Reads q.q0 a ∧ Reads q.q1 b ∧ Reads q.q2 c ∧ Reads q.q3 d ∧ 1312 ≤ max a (max b (max c d))) :=
  ⟨⟨⟨some 1679, some 0, some 0, some 0⟩, 1679, 0, 0, 0, 1679, by decide⟩,
   ⟨49, { tiles := Vector.replicate 50 { powered := true } }, ⟨some 1680, some 0, some 0, some 0⟩, 1680, 0, 0, 0,
     by decide⟩,
   ⟨0, 1,
     { tiles := Vector.replicate 50 { layer1 := { temp := ⟨some 1311, some 0, some 0, some 0⟩, doubled := true } } },
     ⟨some 1311, some 0, some 0, some 0⟩, 1311, 0, 0, 0, by decide⟩,
   ⟨0, 1,
     { tiles := Vector.replicate 50 { layer1 := { temp := ⟨some 1312, some 0, some 0, some 0⟩, doubled := true } } },
     ⟨some 1312, some 0, some 0, some 0⟩, 1312, 0, 0, 0, by decide⟩⟩

theorem witness_WeightIngress :
    (∃ (d : DieId) (m : Msg) (s : State) (r : ChunkReq) (rest : List ChunkReq), wcOk m.hdr 1 m.payload = true ∧
      knownNumber s (wcAdapter m.hdr) (wcNumber m.hdr) = true ∧ bitOf (hf m.hdr 6 1) 2 = false ∧ Asked s d (wcTag
      m.hdr) r rest ∧ r.part = false ∧ r.index = wcIndex m.hdr ∧ r.number = wcNumber m.hdr ∧ Reachable s d) ∧
    (∃ (d : DieId) (m : Msg) (s : State) (r : ChunkReq) (rest : List ChunkReq) (l : Load), wcOk m.hdr 3 m.payload =
      true ∧ m.payload.length ≤ mib ∧ knownNumber s (wcAdapter m.hdr) (wcNumber m.hdr) = true ∧ bitOf (hf m.hdr 6 1)
      2 = false ∧ Asked s d (wcTag m.hdr) r rest ∧ r.part = true ∧ r.number = wcNumber m.hdr ∧ s.wts.load = some l ∧
      l.st = .fetching ∧ l.role = 0 ∧ 1 ≤ (wcIndex m.hdr).toNat ∧ manWhole
      { l with parts := tabSet l.parts (wcIndex m.hdr).toNat m.payload } = false ∧ (∀ e, Reachable s e)) ∧
    (∃ (d : DieId) (h : BitVec 512) (s : State) (r : ChunkReq) (rest : List ChunkReq), wcOk h 4 [] = true ∧
      knownNumber s (wcAdapter h) (wcNumber h) = true ∧ Asked s d (wcTag h) r rest ∧ failsOf s r + 1 < 3) ∧
    (∃ (h : BitVec 512) (s : State) (l : Load), wcOk h 5 [] = true ∧ knownNumber s (wcAdapter h) (wcNumber h) = true
      ∧ castLoad s h = some l ∧ bitOf (hf h 6 1) 2 = true ∧ l.role = 2 ∧ l.ended = false ∧ (∀ e, Reachable s e)) ∧
    (∃ (m : Msg) (s : State), wcOk m.hdr 1 m.payload = true ∧ knownNumber s (wcAdapter m.hdr) (wcNumber m.hdr) =
      false) ∧
    (∃ (m : Msg) (s : State), wcOk m.hdr 3 m.payload = true ∧ m.payload.length ≤ mib ∧ knownNumber s (wcAdapter
      m.hdr) (wcNumber m.hdr) = false) ∧
    (∃ (d : DieId) (tag : BitVec 32) (s : State) (r : ChunkReq) (rest : List ChunkReq), Asked s d tag r rest ∧
      r.waiting = true ∧ Reachable s d) ∧
    (∃ (d : DieId) (tag : BitVec 32) (s : State) (r : ChunkReq) (rest : List ChunkReq), Asked s d tag r rest ∧
      r.waiting = false ∧ failsOf s r + 1 < 3 ∧ Reachable s d) ∧
    (∃ (s : State) (r : ChunkReq), (∀ l, s.wts.load = some l → ofLoad r l = false) ∧ (∀ x ∈ s.wts.refetch, ofAgain r
      x = false)) ∧
    (∃ (s : State) (r : ChunkReq) (l : Load) (n : Nat), s.wts.load = some l ∧ ofLoad r l = true ∧ r.fails ≤ n ∧ (∀ x
      ∈ s.wts.refetch, ofAgain r x = false)) ∧
    (∃ (s : State) (r : ChunkReq) (x : Refetch) (n : Nat), (∀ l, s.wts.load = some l → ofLoad r l = false) ∧
      s.wts.refetch.find? (ofAgain r) = some x ∧ r.fails ≤ n) ∧
    (∃ (d : DieId) (tag : BitVec 32) (s : State) (r : ChunkReq) (rest : List ChunkReq), Asked s d tag r rest ∧
      r.waiting = false ∧ r.fails = 2 ∧ r.part = false ∧ (chunkEntry s r.adapter r.number r.index).any isRegion =
      false ∧ s.wts.err = 0) ∧
    (∃ (s : State) (l : Load), s.wts.load = some l ∧ l.role = 2 ∧ l.ended = false ∧ (∀ e, Reachable s e)) ∧
    (∃ (s : State) (e : Epoch), pinned s e.number = false ∧ s.wts.draining = some e ∧ s.wts.load = none ∧ (∀ c,
      s.wts.current = some c → c.number ≠ e.number)) ∧
    (∃ (s : State) (n : BitVec 16), pinned s n = true) :=
  ⟨⟨0, ⟨hdrOf [(0, 2, magicWc), (2, 1, 1), (3, 1, 1), (4, 2, 2)], []⟩, wtS (req1 0 false 0 false) load1,
     req1 0 false 0 false, [], by decide +kernel⟩,
   ⟨0, ⟨hdrOf [(0, 2, magicWc), (2, 1, 1), (3, 1, 3), (4, 2, 2), (8, 4, 1)], []⟩, wtS (req1 1 true 0 false) load1,
     req1 1 true 0 false, [], load1, by decide +kernel⟩,
   ⟨0, hdrOf [(0, 2, magicWc), (2, 1, 1), (3, 1, 4), (4, 2, 2)], wtS (req1 0 false 1 false) load1,
     req1 0 false 1 false, [], by decide +kernel⟩,
   ⟨hdrOf [(0, 2, magicWc), (2, 1, 1), (3, 1, 5), (4, 2, 2), (6, 1, 4)],
     wtS (req1 0 false 0 false) { load1 with role := 2 }, { load1 with role := 2 }, by decide +kernel⟩,
   ⟨⟨hdrOf [(0, 2, magicWc), (2, 1, 1), (3, 1, 1), (4, 2, 2)], []⟩, {}, by decide +kernel⟩,
   ⟨⟨hdrOf [(0, 2, magicWc), (2, 1, 1), (3, 1, 3), (4, 2, 2)], []⟩, {}, by decide +kernel⟩,
   ⟨0, 0, wtS (req1 0 false 0 true) load1, req1 0 false 0 true, [], by decide⟩,
   ⟨0, 0, wtS (req1 0 false 1 false) load1, req1 0 false 1 false, [], by decide⟩,
   ⟨{}, req1 0 false 0 false, (fun _ h => nomatch h), (fun _ h => nomatch h)⟩,
   ⟨wtS (req1 0 false 0 false) load1, req1 0 false 0 false, load1, 2, by decide⟩,
   ⟨{ wts := { refetch := [⟨2, false, 0, 1⟩] } }, req1 0 false 0 false, ⟨2, false, 0, 1⟩, 2, (fun _ h => nomatch h),
     rfl, by decide⟩,
   ⟨0, 0, wtS (req1 0 false 2 false) load1, req1 0 false 2 false, [], by decide⟩,
   ⟨wtS (req1 0 false 0 false) { load1 with role := 2 }, { load1 with role := 2 }, by decide⟩,
   ⟨{ wts := { draining := some ⟨1, some 0, man1⟩ } }, ⟨1, some 0, man1⟩, rfl, rfl, rfl, (fun _ h => nomatch h)⟩,
   ⟨{ eng := { pass := some pass1 } }, 1, by decide⟩⟩

theorem witness_ChunksAndMasks :
    (∃ (d : DieId) (index : BitVec 32) (s : State) (b : ChunkBuf) (rest : List ChunkBuf) (m : Manifest) (c :
      ManChunk) (parts : List (List ManPiece × List Byte)) (q : ManPiece) (o : List Byte) (bs : List ManPiece),
      takeFirst (fun b : ChunkBuf => b.index == index && stageable s d b) (s.dies[d.val]).fetch = some (b, rest) ∧
      manOf s b.adapter b.number = some m ∧ chunkEntry s b.adapter b.number index = some c ∧ isRegion c = true ∧
      decodeChunk m index.toNat c b.lace b.mask b.wire = .ok parts ∧ parts.getLast? = some (bs, o) ∧ bs.getLast? =
      some q ∧ q.target < 768 ∧ q.win ≠ 6 ∧ (b.adapter = true → ownsArea s m q.dstOff = true)) ∧
    (∃ (d : DieId) (index : BitVec 32) (s : State) (b : ChunkBuf) (rest : List ChunkBuf) (m : Manifest) (c :
      ManChunk), takeFirst (fun b : ChunkBuf => b.index == index && stageable s d b) (s.dies[d.val]).fetch = some
      (b, rest) ∧ manOf s b.adapter b.number = some m ∧ chunkEntry s b.adapter b.number index = some c ∧ isRegion c
      = false ∧ decodeChunk m index.toNat c b.lace b.mask b.wire = .format ∧ s.wts.err = 0) ∧
    (∃ (d : DieId) (index : BitVec 32) (s : State), takeFirst (fun b : ChunkBuf => b.index == index && stageable s d
      b) (s.dies[d.val]).fetch = none) ∧
    (∃ (d : DieId) (m : MeshMsg) (s : State) (lp : LayerPass) (ep : Epoch) (h : FocusHdr), s.eng.lp = some lp ∧
      (s.eng.pass.bind fun p => epochOf s p.epoch) = some ep ∧ OfPass lp m 1 ∧ lp.masked = true ∧ focusHdr ep.man
      lp.entry = some h ∧ hdrOffset m.hdr + (meshBytes m).length ≤ 8192 ∧ (∀ b, b < 8 * (meshBytes m).length →
      maskBit (meshBytes m) b = true → 8 * hdrOffset m.hdr + b < h.groups.length) ∧ (s.dies[d.val]).mainDone = false
      ∧ (s.dies[d.val]).mainMsgs + 1 < h.maskMsgs.getD d.val 0) ∧
    (∃ (m : MeshMsg) (s : State) (lp : LayerPass) (ep : Epoch) (h : FocusHdr), s.eng.lp = some lp ∧ (s.eng.pass.bind
      fun p => epochOf s p.epoch) = some ep ∧ OfPass lp m 1 ∧ lp.masked = true ∧ focusHdr ep.man lp.entry = some h ∧
      8192 < hdrOffset m.hdr + (meshBytes m).length) ∧
    (∃ (m : MeshMsg) (s : State) (lp : LayerPass) (ep : Epoch), s.eng.lp = some lp ∧ (s.eng.pass.bind fun p =>
      epochOf s p.epoch) = some ep ∧ hdrLpass m.hdr ≠ lp.number.toNat ∧ lp.inst = none) ∧
    (∃ (d : DieId) (m : MeshMsg) (s : State) (lp : LayerPass) (r : IntakeRange), s.eng.lp = some lp ∧ OfPass lp m 3
      ∧ lp.inst = none ∧ (s.dies[d.val]).ranges = [r] ∧ r.lo ≤ hdrOffset m.hdr ∧ hdrOffset m.hdr + (meshBytes
      m).length ≤ r.lo + r.len) ∧
    (∃ (m : MeshMsg) (s : State) (lp : LayerPass), s.eng.lp = some lp ∧ lp.started = true ∧ hdrLpass m.hdr =
      lp.number.toNat ∧ 3 < hdrWin m.hdr ∧ lp.inst = none) :=
  ⟨⟨0, 0,
     { eng := { lp := some { kind := .load, entry := 0, number := 0, started := true, loadOf := some (false, 1), chunks := [0, 1] } }, wts := { current := some ⟨1, some 0, man2⟩ }, dies := ({} : State).dies.set 0 { fetch := [⟨1, false, 0, false, none, [], 0⟩] } },
     ⟨1, false, 0, false, none, [], 0⟩, [], man2, ⟨0, 2, 1, 0, 0, 0, 0, 0, 0, 0⟩,
     [([⟨0, 0, 0, 0, 0, 0, 1, 0, 0, 0, 0, 0⟩], [])], ⟨0, 0, 0, 0, 0, 0, 1, 0, 0, 0, 0, 0⟩, [],
     [⟨0, 0, 0, 0, 0, 0, 1, 0, 0, 0, 0, 0⟩], rfl, rfl, rfl, rfl, by decide +kernel, rfl, rfl, by decide, by decide⟩,
   ⟨0, 1,
     { eng := { lp := some { kind := .load, entry := 0, number := 0, started := true, loadOf := some (false, 1), chunks := [0, 1] } }, wts := { current := some ⟨1, some 0, man2⟩ }, dies := ({} : State).dies.set 0 { fetch := [⟨1, false, 1, true, none, [], 0⟩] } },
     ⟨1, false, 1, true, none, [], 0⟩, [], man2, ⟨0, 0, 0, 0, 0, 0, 1, 0, 0, 0⟩, rfl, rfl, rfl, rfl,
     by decide +kernel, rfl⟩,
   ⟨7, 0, {}, rfl⟩,
   ⟨0, ⟨meshH 1 0 1 5, [1]⟩, maskS, { kind := .work, entry := 0, number := 5, started := true, masked := true },
     ⟨1, some 0, { man1 with focus := [focus1] }⟩, focus1, by decide +kernel⟩,
   ⟨⟨meshH 1 8192 1 5, [1]⟩, maskS, { kind := .work, entry := 0, number := 5, started := true, masked := true },
     ⟨1, some 0, { man1 with focus := [focus1] }⟩, focus1, by decide +kernel⟩,
   ⟨⟨meshH 1 0 1 4, [1]⟩, maskS, { kind := .work, entry := 0, number := 5, started := true, masked := true },
     ⟨1, some 0, { man1 with focus := [focus1] }⟩, by decide +kernel⟩,
   ⟨0, ⟨meshH 3 64 32 5, [1]⟩, { maskS with dies := ({} : State).dies.set 0 { ranges := [⟨64, 32, none, 0, 0⟩] } },
     { kind := .work, entry := 0, number := 5, started := true, masked := true }, ⟨64, 32, none, 0, 0⟩,
     by decide +kernel⟩,
   ⟨⟨meshH 4 0 0 5, []⟩, maskS, { kind := .work, entry := 0, number := 5, started := true, masked := true },
     by decide +kernel⟩⟩

theorem witness_Reductions :
    (∃ (d : DieId) (plane : Fin 2) (h : BitVec 512) (s : State) (st : RedStep) (k : Sketch) (rest : List Sketch),
      F8Names s d h 3 [] st k ∧ k.st = .claim ∧ k.asked = false ∧ st.outcome = none ∧ (stepSketches s
      st.step).filter (fun x => sketchDie x == d && x.st == .claim && !x.asked) = k :: rest ∧ (k.granted ||| (1#2
      <<< plane.val)) &&& k.claimed = k.claimed ∧ k.claimed ≠ 0) ∧
    (∃ (d : DieId) (plane : Fin 2) (h : BitVec 512) (s : State) (st : RedStep) (k : Sketch), F8Names s d h 3 [] st k
      ∧ k.st = .claim ∧ k.asked = false ∧ st.outcome = none ∧ (k.granted ||| (1#2 <<< plane.val)) &&& k.claimed ≠
      k.claimed) ∧
    (∃ (d : DieId) (plane : Fin 2) (h : BitVec 512) (s : State) (st : RedStep) (k : Sketch) (k' : Sketch) (rest :
      List Sketch), F8Names s d h 3 [] st k ∧ k.st = .claim ∧ k.asked = false ∧ st.outcome = none ∧ (stepSketches s
      st.step).filter (fun x => sketchDie x == d && x.st == .claim && !x.asked) = k' :: rest ∧ k'.index ≠ k.index ∧
      sketchGranted k' = false) ∧
    (∃ (d : DieId) (h : BitVec 512) (s : State) (st : RedStep) (k : Sketch), F8Names s d h 4 [] st k ∧ k.st = .claim
      ∧ st.outcome = none ∧ st.table.members.length ≤ 64) ∧
    (∃ (d : DieId) (m : Msg) (s : State) (st : RedStep) (k : Sketch), F8Names s d m.hdr 1 m.payload st k ∧ hf m.hdr
      0xA 2 = st.epoch.toNat ∧ st.outcome = none ∧ st.muted = false ∧ k.st = .claim) ∧
    (∃ (d : DieId) (m : Msg) (s : State) (st : RedStep) (k : Sketch), F8Names s d m.hdr 1 m.payload st k ∧ hf m.hdr
      0xA 2 ≠ st.epoch.toNat ∧ s.red.err = 0) ∧
    (∃ (d : DieId) (h : BitVec 512) (s : State) (st : RedStep) (k : Sketch), F8Names s d h 5 [] st k ∧ bitOf (hf h 4
      1) 5 = false ∧ st.outcome = none ∧ st.done = none ∧ (k.st = .tree ∨ k.st = .ring) ∧ hf h 0x2A 1 = 0) ∧
    (∃ (d : DieId) (h : BitVec 512) (s : State) (st : RedStep) (k : Sketch), F8Names s d h 5 [] st k ∧ bitOf (hf h 4
      1) 5 = false ∧ st.outcome = none ∧ (k.st = .tree ∨ k.st = .ring) ∧ hf h 0x2A 1 = 1 ∧ k.k < bits (hf h 6 1) 1
      0) ∧
    (∃ (d : DieId) (h : BitVec 512) (s : State) (st : RedStep) (k : Sketch), F8Names s d h 5 [] st k ∧ bitOf (hf h 4
      1) 5 = false ∧ hf h 0x2A 1 = 1 ∧ bits (hf h 6 1) 1 0 ≤ k.k) ∧
    (∃ (h : BitVec 512) (s : State) (st : RedStep), f8Ok h 5 [] = true ∧ bitOf (hf h 4 1) 5 = true ∧ findStep s (hf
      h 0xC 4) = some st ∧ st.table.group.toNat = hf h 0x18 2 ∧ st.outcome = none ∧ st.done = none ∧ (hf h 0x2A 1 =
      2 ∨ hf h 0x2A 1 = 3)) ∧
    (∃ (h : BitVec 512) (s : State) (st : RedStep) (k : Sketch), f8Ok h 5 [] = true ∧ bitOf (hf h 4 1) 5 = true ∧
      findStep s (hf h 0xC 4) = some st ∧ st.table.group.toNat = hf h 0x18 2 ∧ st.outcome = none ∧ st.done = none ∧
      hf h 0x2A 1 = 0) ∧
    (∃ (d : DieId) (m : Msg) (s : State), f8Ok m.hdr 1 m.payload = true ∧ f8Sketch s d m.hdr = none) ∧
    (∃ (sk : Nat) (s : State) (k : Sketch) (st : RedStep), (s.red.sketches.find? fun k => k.index == sk && (k.st ==
      .tree || k.st == .ring) && !k.asked) = some k ∧ findStep s k.step.toNat = some st ∧ s.red.err = 0) ∧
    (∃ (sk : Nat) (s : State), (s.red.sketches.find? fun k => k.index == sk && (k.st == .tree || k.st == .ring) &&
      !k.asked) = none) ∧
    (∃ (s : State) (k : Sketch) (st : RedStep), (s.red.sketches.find? fun k => k.asked && sketchHeld k) = some k ∧
      findStep s k.step.toNat = some st ∧ st.outcome = none ∧ st.done = none) :=
  ⟨⟨0, 0, hdrOf [(0, 2, magicF8), (2, 1, 1), (3, 1, 3)],
     redS step1 { index := 0, ent := ent1, step := 0, st := .claim, claimed := 1 }, step1,
     { index := 0, ent := ent1, step := 0, st := .claim, claimed := 1 }, [], by decide +kernel⟩,
   ⟨0, 1, hdrOf [(0, 2, magicF8), (2, 1, 1), (3, 1, 3)],
     redS step1 { index := 0, ent := ent1, step := 0, st := .claim, claimed := 3 }, step1,
     { index := 0, ent := ent1, step := 0, st := .claim, claimed := 3 }, by decide +kernel⟩,
   ⟨0, 1, hdrOf [(0, 2, magicF8), (2, 1, 1), (3, 1, 3)],
     { red := { steps := [step1], sketches := [{ index := 1, ent := { ent1 with layerId := 1 }, step := 0, st := .claim, claimed := 3 }, { index := 0, ent := ent1, step := 0, st := .claim, claimed := 3 }] } },
     step1, { index := 0, ent := ent1, step := 0, st := .claim, claimed := 3 },
     { index := 1, ent := { ent1 with layerId := 1 }, step := 0, st := .claim, claimed := 3 },
     [{ index := 0, ent := ent1, step := 0, st := .claim, claimed := 3 }], by decide +kernel⟩,
   ⟨0, hdrOf [(0, 2, magicF8), (2, 1, 1), (3, 1, 4)],
     redS step1 { index := 0, ent := ent1, step := 0, st := .claim }, step1,
     { index := 0, ent := ent1, step := 0, st := .claim }, by decide +kernel⟩,
   ⟨0, ⟨hdrOf [(0, 2, magicF8), (2, 1, 1), (3, 1, 1)], []⟩,
     redS step1 { index := 0, ent := ent1, step := 0, st := .claim }, step1,
     { index := 0, ent := ent1, step := 0, st := .claim }, by decide +kernel⟩,
   ⟨0, ⟨hdrOf [(0, 2, magicF8), (2, 1, 1), (3, 1, 1), (0xA, 2, 1)], []⟩,
     redS step1 { index := 0, ent := ent1, step := 0, st := .claim }, step1,
     { index := 0, ent := ent1, step := 0, st := .claim }, by decide +kernel⟩,
   ⟨0, hdrOf [(0, 2, magicF8), (2, 1, 1), (3, 1, 5)],
     redS step1 { index := 0, ent := ent1, step := 0, st := .ring }, step1,
     { index := 0, ent := ent1, step := 0, st := .ring }, by decide +kernel⟩,
   ⟨0, hdrOf [(0, 2, magicF8), (2, 1, 1), (3, 1, 5), (0x2A, 1, 1), (6, 1, 1)],
     redS step1 { index := 0, ent := ent1, step := 0, st := .tree }, step1,
     { index := 0, ent := ent1, step := 0, st := .tree }, by decide +kernel⟩,
   ⟨0, hdrOf [(0, 2, magicF8), (2, 1, 1), (3, 1, 5), (0x2A, 1, 1)],
     redS step1 { index := 0, ent := ent1, step := 0, st := .tree }, step1,
     { index := 0, ent := ent1, step := 0, st := .tree }, by decide +kernel⟩,
   ⟨hdrOf [(0, 2, magicF8), (2, 1, 1), (3, 1, 5), (4, 1, 0x20), (0x2A, 1, 2)],
     redS step1 { index := 0, ent := ent1, step := 0, st := .ring }, step1, by decide +kernel⟩,
   ⟨hdrOf [(0, 2, magicF8), (2, 1, 1), (3, 1, 5), (4, 1, 0x20)],
     redS step1 { index := 0, ent := ent1, step := 0, st := .ring }, step1,
     { index := 0, ent := ent1, step := 0, st := .ring }, by decide +kernel⟩,
   ⟨0, ⟨hdrOf [(0, 2, magicF8), (2, 1, 1), (3, 1, 1)], []⟩, {}, by decide +kernel⟩,
   ⟨0, redS step1 { index := 0, ent := ent1, step := 0, st := .ring },
     { index := 0, ent := ent1, step := 0, st := .ring }, step1, by decide⟩,
   ⟨5, {}, rfl⟩,
   ⟨redS step1 { index := 0, ent := ent1, step := 0, st := .ring, asked := true },
     { index := 0, ent := ent1, step := 0, st := .ring, asked := true }, step1, by decide⟩⟩

theorem witness_CollectiveDescriptors :
    (∃ (q : QueueId) (list : List (BitVec 16)) (s : State) (f : Fetched) (ms : List (BitVec 14)), Starts s q 3 f ∧
      dField f.d 0x20 1 = 0 ∧ collWaits s f.d = false ∧ formSet s f.d list = some ms ∧ setGone s (dField f.d 0x21 1)
      ms = false) ∧
    (∃ (q : QueueId) (list : List (BitVec 16)) (s : State) (f : Fetched), Starts s q 3 f ∧ dField f.d 0x20 1 = 0 ∧
      collWaits s f.d = false ∧ formSet s f.d list = none) ∧
    (∃ (q : QueueId) (s : State) (f : Fetched), Starts s q 3 f ∧ dField f.d 0x20 1 = 0 ∧ collWaits s f.d = true) ∧
    (∃ (q : QueueId) (list : List (BitVec 16)) (s : State) (f : Fetched) (im : Image) (ms : List (BitVec 14)),
      Starts s q 3 f ∧ dField f.d 0x20 1 = 4 ∧ s.eng.image = some im ∧ formSet s f.d list = some ms ∧ collOperandOk
      s f.d ms.length (myIndex s ms) = true ∧ bindOk s im (allBindings s) f.d ms.length (myIndex s ms) = true) ∧
    (∃ (q : QueueId) (list : List (BitVec 16)) (s : State) (f : Fetched) (im : Image) (ms : List (BitVec 14)),
      Starts s q 3 f ∧ dField f.d 0x20 1 = 5 ∧ s.eng.image = some im ∧ formSet s f.d list = some ms ∧ collOperandOk
      s f.d ms.length (myIndex s ms) = true) :=
  ⟨⟨0, [0, 1], qS [⟨0, 0, dsc [(0, 1, 3), (0x21, 1, 2), (0x24, 4, 7), (0x2E, 2, 2)]⟩] [],
     ⟨0, 0, dsc [(0, 1, 3), (0x21, 1, 2), (0x24, 4, 7), (0x2E, 2, 2)]⟩, [0, 1], by decide +kernel⟩,
   ⟨0, [0, 1], qS [⟨0, 0, dsc [(0, 1, 3), (0x21, 1, 2), (0x24, 4, 7), (0x2E, 2, 3)]⟩] [],
     ⟨0, 0, dsc [(0, 1, 3), (0x21, 1, 2), (0x24, 4, 7), (0x2E, 2, 3)]⟩, by decide +kernel⟩,
   ⟨0,
     { qS [⟨0, 0, dsc [(0, 1, 3), (0x21, 1, 2), (0x24, 4, 7), (0x2E, 2, 2)]⟩] [] with coll := { insts := [{ id := .queue 7, started := true }] } },
     ⟨0, 0, dsc [(0, 1, 3), (0x21, 1, 2), (0x24, 4, 7), (0x2E, 2, 2)]⟩, by decide +kernel⟩,
   ⟨0, [],
     { qS [⟨0, 0, dsc [(0, 1, 3), (0x20, 1, 4), (0x38, 4, 32), (0x5E, 1, 2)]⟩] [] with eng := { image := some { image1 with span := [0, 1], layers := [{ flags := 2 }], plans := [⟨0, 0, 64, [⟨0, 0xC0, 0, 0, 0, 2, 0⟩], [], [], 0, 0⟩] } } },
     ⟨0, 0, dsc [(0, 1, 3), (0x20, 1, 4), (0x38, 4, 32), (0x5E, 1, 2)]⟩,
     { image1 with span := [0, 1], layers := [{ flags := 2 }], plans := [⟨0, 0, 64, [⟨0, 0xC0, 0, 0, 0, 2, 0⟩], [], [], 0, 0⟩] },
     [0, 1], by decide +kernel⟩,
   ⟨0, [],
     { qS [⟨0, 0, dsc [(0, 1, 3), (0x20, 1, 5), (0x38, 4, 32), (0x5E, 1, 2)]⟩] [] with eng := { image := some { image1 with span := [0, 1], layers := [{ flags := 2 }], plans := [⟨0, 0, 64, [⟨0, 0xC0, 0, 0, 0, 2, 0⟩], [], [], 0, 0⟩] } } },
     ⟨0, 0, dsc [(0, 1, 3), (0x20, 1, 5), (0x38, 4, 32), (0x5E, 1, 2)]⟩,
     { image1 with span := [0, 1], layers := [{ flags := 2 }], plans := [⟨0, 0, 64, [⟨0, 0xC0, 0, 0, 0, 2, 0⟩], [], [], 0, 0⟩] },
     [0, 1], by decide +kernel⟩⟩

theorem witness_CollectiveFrames :
    (∃ (d : DieId) (m : Msg) (s : State) (k : Inst) (tag : BitVec 32), CollNames s m.hdr 1 m.payload k ∧ k.id =
      .queue tag ∧ k.started = true ∧ k.st = .opened ∧ dField k.desc 0x20 1 = 1 ∧ BitVec.ofNat 32 (dField k.desc
      0x24 4) = tag ∧ resultsDone k = false ∧ (k.held.any fun x => x.tag == tag && x.src == some (hf m.hdr 0x18 2)
      && x.block == hf m.hdr 0x1A 2 && x.off == hf m.hdr 0x1C 4 && x.wide == bitOf (hf m.hdr 4 1) 0) = false ∧
      (collOp false k.desc).freed k.held (dataChunk m tag) = [hf m.hdr 0x1C 4] ∧ collRoom s d m.payload.length =
      true ∧ castNext k.n (dField k.desc 0x23 1) ((k.me + k.n - dField k.desc 0x2C 2 % k.n) % k.n) = []) ∧
    (∃ (m : Msg) (s : State) (k : Inst) (tag : BitVec 32), CollNames s m.hdr 1 m.payload k ∧ k.id = .queue tag ∧
      k.started = false) ∧
    (∃ (h : BitVec 512) (s : State) (k : Inst), CollNames s h 2 [] k ∧ k.started = true ∧ k.undecided = true ∧
      BitVec.ofNat 32 (hf h 0x2C 4) = k.digest ∧ BitVec.ofNat 16 (hf h 0x12 2) = k.epoch) ∧
    (∃ (h : BitVec 512) (s : State) (k : Inst), CollNames s h 2 [] k ∧ k.started = true ∧ k.undecided = true ∧ k.me
      = 0 ∧ k.lead = .opened ∧ k.n ≠ 1 ∧ (BitVec.ofNat 32 (hf h 0x2C 4) ≠ k.digest ∨ BitVec.ofNat 16 (hf h 0x12 2) ≠
      k.epoch)) ∧
    (∃ (h : BitVec 512) (s : State) (k : Inst), CollNames s h 3 [] k ∧ k.bound = false ∧ k.started = true ∧ k.st =
      .opened ∧ k.lead = .opened ∧ k.ready.contains (hf h 0x18 2) = false ∧ k.ready.length + 1 = k.n) ∧
    (∃ (h : BitVec 512) (s : State) (k : Inst), CollNames s h 3 [] k ∧ k.lead = .opened ∧ k.ready.contains (hf h
      0x18 2) = false ∧ k.ready.length + 1 < k.n) ∧
    (∃ (h : BitVec 512) (s : State) (k : Inst), CollNames s h 4 [] k ∧ k.bound = false ∧ k.st = .opened) ∧
    (∃ (d : DieId) (m : Msg) (s : State) (k : Inst) (tag : BitVec 32), CollNames s m.hdr 1 m.payload k ∧ k.id =
      .queue tag ∧ k.started = true ∧ k.st = .opened ∧ collRoom s d m.payload.length = false) ∧
    (∃ (h : BitVec 512) (s : State), collOk h 2 [] = true ∧ collFind s h = none ∧ bitOf (hf h 4 1) 1 = false) ∧
    (∃ (h : BitVec 512) (s : State), collOk h 4 [] = true ∧ collFind s h = none) :=
  ⟨⟨0, ⟨hdrOf [(0, 2, magicCl), (2, 1, 1), (3, 1, 1), (8, 4, 7)], []⟩,
     collS { id := .queue 7, members := [0, 1], started := true, me := 1, desc := dsc [(0x20, 1, 1), (0x24, 4, 7), (0x38, 4, 32)] },
     { id := .queue 7, members := [0, 1], started := true, me := 1, desc := dsc [(0x20, 1, 1), (0x24, 4, 7), (0x38, 4, 32)] },
     7, by decide +kernel⟩,
   ⟨⟨hdrOf [(0, 2, magicCl), (2, 1, 1), (3, 1, 1), (8, 4, 7)], []⟩,
     collS { id := .queue 7, members := [0, 1], st := .opened },
     { id := .queue 7, members := [0, 1], st := .opened }, 7, by decide +kernel⟩,
   ⟨hdrOf [(0, 2, magicCl), (2, 1, 1), (3, 1, 2), (8, 4, 7)],
     collS { id := .queue 7, members := [0, 1], started := true },
     { id := .queue 7, members := [0, 1], started := true }, by decide +kernel⟩,
   ⟨hdrOf [(0, 2, magicCl), (2, 1, 1), (3, 1, 2), (8, 4, 7), (0x2C, 4, 9)],
     collS { id := .queue 7, members := [0, 1], started := true },
     { id := .queue 7, members := [0, 1], started := true }, by decide +kernel⟩,
   ⟨hdrOf [(0, 2, magicCl), (2, 1, 1), (3, 1, 3), (8, 4, 7), (0x18, 2, 1)],
     collS { id := .queue 7, members := [0, 1], started := true, ready := [0] },
     { id := .queue 7, members := [0, 1], started := true, ready := [0] }, by decide +kernel⟩,
   ⟨hdrOf [(0, 2, magicCl), (2, 1, 1), (3, 1, 3), (8, 4, 7), (0x18, 2, 1)],
     collS { id := .queue 7, members := [0, 1], started := true },
     { id := .queue 7, members := [0, 1], started := true }, by decide +kernel⟩,
   ⟨hdrOf [(0, 2, magicCl), (2, 1, 1), (3, 1, 4), (8, 4, 7)],
     collS { id := .queue 7, members := [0, 1], started := true },
     { id := .queue 7, members := [0, 1], started := true }, by decide +kernel⟩,
   ⟨0, ⟨hdrOf [(0, 2, magicCl), (2, 1, 1), (3, 1, 1), (8, 4, 7)], []⟩,
     { collS { id := .queue 7, members := [0, 1], started := true, me := 1, desc := dsc [(0x20, 1, 1), (0x24, 4, 7), (0x38, 4, 32)] } with dies := ({} : State).dies.set 0 { ranges := [⟨0, 2 ^ 27, none, 0, 0⟩] } },
     { id := .queue 7, members := [0, 1], started := true, me := 1, desc := dsc [(0x20, 1, 1), (0x24, 4, 7), (0x38, 4, 32)] },
     7, by decide +kernel⟩,
   ⟨hdrOf [(0, 2, magicCl), (2, 1, 1), (3, 1, 2), (8, 4, 7)], {}, by decide +kernel⟩,
   ⟨hdrOf [(0, 2, magicCl), (2, 1, 1), (3, 1, 4), (8, 4, 7)], {}, by decide +kernel⟩⟩

theorem witness_CollectiveAborts :
    (∃ (h : BitVec 512) (s : State) (k : Inst), CollNames s h 5 [] k ∧ k.me ≠ 0 ∧ k.bound = false ∧ k.started = true
      ∧ k.st = .opened) ∧
    (∃ (h : BitVec 512) (s : State) (k : Inst), CollNames s h 6 [] k ∧ k.lead = .aborted ∧ k.acks.contains (hf h
      0x18 2) = false ∧ k.acks.length + 1 < k.n) ∧
    (∃ (h : BitVec 512) (s : State) (k : Inst), CollNames s h 7 [] k ∧ k.bound = false ∧ k.st = .aborted ∧ hf h 5 1
      ≠ 0 ∧ BitVec.ofNat 16 (hf h 0x28 2) ≠ 0) ∧
    (∃ (h : BitVec 512) (s : State) (k : Inst), CollNames s h 7 [] k ∧ k.bound = false ∧ k.st = .aborted ∧ hf h 5 1
      = 0) ∧
    (∃ (h : BitVec 512) (s : State) (k : Inst), CollNames s h 8 [] k ∧ s.coll.err = 0) ∧
    (∃ (h : BitVec 512) (s : State) (k : Inst), CollNames s h 9 [] k ∧ k.undecided = true ∧ k.esc = false) ∧
    (∃ (h : BitVec 512) (s : State) (k : Inst), CollNames s h 9 [] k ∧ k.esc = true) ∧
    (∃ (id : CollId) (s : State) (k : Inst), instAt s id = some k ∧ k.me = 0 ∧ k.lead = .opened ∧ k.undecided = true
      ∧ k.n ≠ 1) ∧
    (∃ (tag : BitVec 32) (s : State) (k : Inst), hostUp s = true ∧ instAt s (.queue tag) = some k ∧ k.me = 0 ∧
      k.lead = .opened ∧ k.undecided = true ∧ k.n ≠ 1) ∧
    (∃ (tag : BitVec 32) (s : State) (k : Inst), hostUp s = true ∧ instAt s (.queue tag) = some k ∧ k.me = 0 ∧
      k.lead = .opened ∧ k.started = true ∧ k.st = .opened ∧ k.n = 1 ∧ k.ext = none) ∧
    (∃ (id : CollId) (s : State) (k : Inst), instAt s id = some k ∧ k.started = true ∧ k.me = 0 ∧ k.lead = .opened ∧
      k.undecided = true ∧ k.esc = false) ∧
    (∃ (id : CollId) (s : State) (k : Inst) (code : BitVec 16), instAt s id = some k ∧ k.started = true ∧ k.me = 0 ∧
      k.lead = .aborted ∧ k.st = .aborted ∧ k.bound = false ∧ k.ext = some code ∧ code ≠ 0) ∧
    (∃ (id : CollId) (s : State) (k : Inst) (l : BitVec 14), instAt s id = some k ∧ k.undecided = true ∧ k.me ≠ 0 ∧
      k.bound = false ∧ k.members.head? = some l ∧ l ≠ s.eng.cfg.engineId) :=
  ⟨⟨hdrOf [(0, 2, magicCl), (2, 1, 1), (3, 1, 5), (8, 4, 7)],
     collS { id := .queue 7, members := [0, 1], started := true, me := 1 },
     { id := .queue 7, members := [0, 1], started := true, me := 1 }, by decide +kernel⟩,
   ⟨hdrOf [(0, 2, magicCl), (2, 1, 1), (3, 1, 6), (8, 4, 7), (0x18, 2, 1)],
     collS { id := .queue 7, members := [0, 1], lead := .aborted },
     { id := .queue 7, members := [0, 1], lead := .aborted }, by decide +kernel⟩,
   ⟨hdrOf [(0, 2, magicCl), (2, 1, 1), (3, 1, 7), (8, 4, 7), (5, 1, 1), (0x28, 2, 0x0804)],
     collS { id := .queue 7, members := [0, 1], st := .aborted },
     { id := .queue 7, members := [0, 1], st := .aborted }, by decide +kernel⟩,
   ⟨hdrOf [(0, 2, magicCl), (2, 1, 1), (3, 1, 7), (8, 4, 7)],
     collS { id := .queue 7, members := [0, 1], st := .aborted },
     { id := .queue 7, members := [0, 1], st := .aborted }, by decide +kernel⟩,
   ⟨hdrOf [(0, 2, magicCl), (2, 1, 1), (3, 1, 8), (8, 4, 7)],
     collS { id := .queue 7, members := [0, 1], st := .opened },
     { id := .queue 7, members := [0, 1], st := .opened }, by decide +kernel⟩,
   ⟨hdrOf [(0, 2, magicCl), (2, 1, 1), (3, 1, 9), (8, 4, 7)],
     collS { id := .queue 7, members := [0, 1], started := true },
     { id := .queue 7, members := [0, 1], started := true }, by decide +kernel⟩,
   ⟨hdrOf [(0, 2, magicCl), (2, 1, 1), (3, 1, 9), (8, 4, 7)],
     collS { id := .queue 7, members := [0, 1], esc := true }, { id := .queue 7, members := [0, 1], esc := true },
     by decide +kernel⟩,
   ⟨.queue 7, collS { id := .queue 7, members := [0, 1], started := true },
     { id := .queue 7, members := [0, 1], started := true }, by decide +kernel⟩,
   ⟨7, { collS { id := .queue 7, members := [0, 1], started := true } with host := { linkUp := true } },
     { id := .queue 7, members := [0, 1], started := true }, by decide +kernel⟩,
   ⟨7, { collS { id := .queue 7, members := [0], started := true } with host := { linkUp := true } },
     { id := .queue 7, members := [0], started := true }, by decide +kernel⟩,
   ⟨.queue 7, collS { id := .queue 7, members := [0, 1], started := true },
     { id := .queue 7, members := [0, 1], started := true }, by decide +kernel⟩,
   ⟨.queue 7,
     collS { id := .queue 7, members := [0, 1], started := true, st := .aborted, lead := .aborted, ext := some 0x0804 },
     { id := .queue 7, members := [0, 1], started := true, st := .aborted, lead := .aborted, ext := some 0x0804 },
     0x0804, by decide +kernel⟩,
   ⟨.queue 7,
     { collS { id := .queue 7, members := [0, 1], started := true, me := 1 } with eng := { cfg := { engineId := 1 } } },
     { id := .queue 7, members := [0, 1], started := true, me := 1 }, 0, by decide +kernel⟩⟩

theorem witness_PortStates :
    (∃ (p : PortId) (s : State), (s.ports[p.val]).st = .dark ∧ (s.ports[p.val]).disable = false ∧ roleOf s p ≠ 0 ∧
      portsPowered s = true) ∧
    (∃ (p : PortId) (s : State), (s.ports[p.val]).st = .detect) ∧
    (∃ (p : PortId) (s : State), Quiet s p ∧ (s.ports[p.val]).st = .detect) ∧
    (∃ (p : PortId) (s : State), Quiet s p ∧ (s.ports[p.val]).st = .train) ∧
    (∃ (p : PortId) (s : State), Quiet s p ∧ (s.ports[p.val]).st = .negotiate) ∧
    (∃ (p : PortId) (s : State), Quiet s p ∧ (s.ports[p.val]).st = .active) ∧
    (∃ (p : PortId) (s : State), Quiet s p ∧ (s.ports[p.val]).st = .active) ∧
    (∃ (p : PortId) (s : State), Quiet s p ∧ (s.ports[p.val]).st = .retrain ∧ (s.ports[p.val]).link.inUse = 0) ∧
    (∃ (p : PortId) (s : State), (s.ports[p.val]).st = .down) ∧
    (∃ (p : PortId) (s : State), (s.ports[p.val]).st = .dark) :=
  ⟨⟨0, { portS 0x5555555555555555 { st := .dark } with boot := { standby := true, phase := 8 } }, by decide +kernel⟩,
   ⟨0, portS 0x5555555555555555 { st := .detect }, by decide +kernel⟩,
   ⟨0, portS 0x5555555555555555 { st := .detect }, by decide +kernel⟩,
   ⟨0, portS 0x5555555555555555 { st := .train }, by decide +kernel⟩,
   ⟨0, portS 0x5555555555555555 { st := .negotiate }, by decide +kernel⟩,
   ⟨0, portS 0x5555555555555555 { st := .active }, by decide +kernel⟩,
   ⟨0, portS 0x5555555555555555 { st := .active }, by decide +kernel⟩,
   ⟨0, portS 0x5555555555555555 { st := .retrain }, by decide +kernel⟩,
   ⟨0, portS 0x5555555555555555 { st := .down }, by decide +kernel⟩,
   ⟨0, portS 0x5555555555555555 { st := .dark }, by decide +kernel⟩⟩

theorem witness_PortNegotiation :
    (∃ (p : PortId) (s : State), (s.ports[p.val]).st = .train ∧ (s.ports[p.val]).capped = false ∧
      (s.ports[p.val]).link.wide = true) ∧
    (∃ (p : PortId) (s : State), (s.ports[p.val]).st = .train) ∧
    (∃ (p : PortId) (s : State), (s.ports[p.val]).st = .negotiate ∧ (s.ports[p.val]).xfer.txq[4] = []) ∧
    (∃ (p : PortId) (s : State), (s.ports[p.val]).xfer.txq[4] ≠ []) ∧
    (∃ (p : PortId) (h : BitVec 512) (s : State), (s.ports[p.val]).st = .negotiate ∧ (s.ports[p.val]).link.lanes = 8
      ∧ hf h 0 2 = magicAz ∧ hf h 3 1 = 1 ∧ helloForm h = true ∧ helloRole s p h = true) ∧
    (∃ (p : PortId) (h : BitVec 512) (s : State), Quiet s p ∧ (s.ports[p.val]).st = .negotiate ∧ hf h 0 2 = magicAz
      ∧ hf h 3 1 = 1 ∧ helloForm h = false) ∧
    (∃ (p : PortId) (h : BitVec 512) (s : State), Quiet s p ∧ (s.ports[p.val]).st = .negotiate ∧ hf h 0 2 = magicAz
      ∧ hf h 3 1 = 1 ∧ helloForm h = true ∧ helloRole s p h = false) ∧
    (∃ (h : BitVec 512), hf h 5 1 = 0) ∧
    (∃ (p : PortId) (s : State), roleOf s p ≠ 3 ∧ (s.ports[p.val]).link.err = 0) :=
  ⟨⟨0, portS 0x5555555555555555 { st := .train, capped := false }, by decide +kernel⟩,
   ⟨0, portS 0x5555555555555555 { st := .train }, by decide +kernel⟩,
   ⟨0, portS 0x5555555555555555 { st := .negotiate }, by decide +kernel⟩,
   ⟨0, portS 0x5555555555555555 { st := .negotiate, xfer := { txq := (Vector.replicate 5 []).set 4 [⟨4, 0, []⟩] } },
     by decide +kernel⟩,
   ⟨0, hdrOf [(0, 2, magicAz), (3, 1, 1), (2, 1, 1), (4, 1, 1), (5, 1, 1)],
     portS 0x5555555555555555 { st := .negotiate, link := { lanes := 8 } }, by decide +kernel⟩,
   ⟨0, hdrOf [(0, 2, magicAz), (3, 1, 1)], portS 0x5555555555555555 { st := .negotiate }, by decide +kernel⟩,
   ⟨0, hdrOf [(0, 2, magicAz), (3, 1, 1), (2, 1, 1), (4, 1, 1)], portS 0x5555555555555555 { st := .negotiate },
     by decide +kernel⟩,
   ⟨hdrOf [(0, 2, magicAz), (3, 1, 1)], by decide +kernel⟩,
   ⟨0, portS 0x5555555555555555 { st := .negotiate }, by decide +kernel⟩⟩

theorem witness_PortFlits :
    (∃ (p : PortId) (s : State), (s.ports[p.val]).st = .active ∧ (s.ports[p.val]).link.features.getLsbD 0 = true ∧
      (s.ports[p.val]).xfer.resend = [] ∧ (∀ i : Fin 5, (s.ports[p.val]).xfer.txq[i.val] = [])) ∧
    (∃ (p : PortId) (s : State) (f : TxFlit) (rest : List TxFlit), (s.ports[p.val]).st = .active ∧
      (s.ports[p.val]).link.features.getLsbD 0 = true ∧ (s.ports[p.val]).xfer.resend = f :: rest ∧ ctxReady
      (s.ports[p.val]).xfer 4 = false) ∧
    (∃ (p : PortId) (s : State) (f : Frame) (rest : List Frame), (s.ports[p.val]).st = .active ∧
      (s.ports[p.val]).link.features.getLsbD 0 = true ∧ (s.ports[p.val]).xfer.replay.length < 1024 ∧
      (s.ports[p.val]).xfer.txq[4] = f :: rest ∧ 0 < (s.ports[p.val]).xfer.credits[3] ∧
      (s.ports[p.val]).xfer.sentOf[4] = 0 ∧ f.bytes.length ≤ 256) ∧
    (∃ (p : PortId) (s : State), (s.ports[p.val]).st = .dark) ∧
    (∃ (p : PortId) (flit : BitVec 2176) (s : State), (s.ports[p.val]).st = .active ∧ bitOf flit.toNat 4 = false ∧
      (s.ports[p.val]).xfer.nakSent = false) ∧
    (∃ (p : PortId) (flit : BitVec 2176) (s : State), (s.ports[p.val]).st = .active ∧ bits flit.toNat 2175 2144 =
      (crc32c (leBytes 268 flit.toNat)).toNat ∧ bitOf flit.toNat 4 = false ∧ bitOf flit.toNat 48 = false ∧ bitOf
      flit.toNat 49 = false ∧ BitVec.ofNat 16 (bits flit.toNat 31 16) = (s.ports[p.val]).xfer.expSeq ∧ bits
      flit.toNat 1 0 = 3 ∧ bitOf flit.toNat 2 = true ∧ bitOf flit.toNat 3 = true ∧ roleCarries (rolePlayed s p)
      (frameHdr ((leBytes 256 (bits flit.toNat 2143 96)).take (bits flit.toNat 15 8 + 1))) = true) ∧
    (∃ (p : PortId) (s : State) (f : TxFlit) (rest : List TxFlit), (s.ports[p.val]).st = .active ∧
      (s.ports[p.val]).xfer.replay = f :: rest ∧ (s.ports[p.val]).xfer.replayRuns < 3) ∧
    (∃ (p : PortId) (s : State) (f : TxFlit) (rest : List TxFlit), (s.ports[p.val]).st = .active ∧
      (s.ports[p.val]).xfer.replay = f :: rest ∧ (s.ports[p.val]).xfer.replayRuns = 3 ∧
      (s.ports[p.val]).xfer.replaySeq = f.fseq ∧ (s.ports[p.val]).link.err = 0) :=
  ⟨⟨0, portS 0x5555555555555555 { st := .active, link := { features := 1 } }, by decide +kernel⟩,
   ⟨0, portS 0x5555555555555555 { st := .active, link := { features := 1 }, xfer := { resend := [tx1] } }, tx1, [],
     by decide +kernel⟩,
   ⟨0,
     portS 0x5555555555555555 { st := .active, link := { features := 1 }, xfer := { txq := (Vector.replicate 5 []).set 4 [⟨4, 0, bytesN 64⟩], credits := Vector.replicate 4 1 } },
     ⟨4, 0, bytesN 64⟩, [], by decide +kernel⟩,
   ⟨0, {}, by decide +kernel⟩,
   ⟨0, 0, portS 0x5555555555555555 { st := .active }, by decide +kernel⟩,
   ⟨0, flitC (crc32c (leBytes 268 15)), portS 0x5555555555555555 { st := .active }, rfl, flitC_crc _ rfl,
     flitC_bit _ 4 (by decide), flitC_bit _ 48 (by decide), flitC_bit _ 49 (by decide), flitC_seq _,
     flitC_bits _ 1 0 (by decide) (by decide), flitC_bit _ 2 (by decide), flitC_bit _ 3 (by decide), flitC_role _⟩,
   ⟨0, portS 0x5555555555555555 { st := .active, link := { features := 1 }, xfer := { replay := [tx1] } }, tx1, [],
     by decide +kernel⟩,
   ⟨0,
     portS 0x5555555555555555 { st := .active, link := { features := 1 }, xfer := { replay := [tx1], replayRuns := 3 } },
     tx1, [], by decide +kernel⟩⟩

theorem witness_PortControl :
    (∃ (p : PortId) (s : State), hostUp s = true ∧ (s.ports[p.val]).st = .active) ∧
    (∃ (p : PortId) (s : State), hostUp s = true ∧ (s.ports[p.val]).st = .active ∧ (s.ports[p.val]).link.lanes = 4 ∧
      (s.ports[p.val]).capped = false) ∧
    (∃ (p : PortId) (s : State), hostUp s = true ∧ (s.ports[p.val]).st = .active ∧ (s.ports[p.val]).link.lanes ≠ 4) ∧
    (∃ (p : PortId) (s : State), hostUp s = true ∧ (s.ports[p.val]).st = .active ∧ Quiet s p ∧
      (s.ports[p.val]).xfer.replay = [] ∧ (s.ports[p.val]).xfer.credits[3] ≠ 0) ∧
    (∃ (p : PortId) (s : State), hostUp s = true ∧ (s.ports[p.val]).st = .active ∧ Quiet s p ∧
      ((s.ports[p.val]).xfer.replay ≠ [] ∨ (s.ports[p.val]).xfer.credits[3] = 0)) ∧
    (∃ (p : PortId) (s : State), hostUp s = true ∧ (s.ports[p.val]).st = .active ∧ Quiet s p ∧
      ((s.ports[p.val]).xfer.replay ≠ [] ∨ (s.ports[p.val]).xfer.credits[3] = 0)) ∧
    (∃ (p : PortId) (s : State), hostUp s = true ∧ (s.ports[p.val]).st = .dark ∧ (s.ports[p.val]).present = true ∧
      (s.ports[p.val]).passive = false ∧ roleOf s p ≠ 0 ∧ portsPowered s = true) ∧
    (∃ (p : PortId) (s : State), Quiet s p ∧ (s.ports[p.val]).st = .leaving ∧ (s.ports[p.val]).disable = true) ∧
    (∃ (s : State), hostUp s = false) :=
  ⟨⟨0, { portS 0x5555555555555555 { st := .active } with host := { linkUp := true } }, by decide +kernel⟩,
   ⟨0,
     { portS 0x5555555555555555 { st := .active, capped := false, link := { lanes := 4 } } with host := { linkUp := true } },
     by decide +kernel⟩,
   ⟨0, { portS 0x5555555555555555 { st := .active, link := { lanes := 8 } } with host := { linkUp := true } },
     by decide +kernel⟩,
   ⟨0,
     { portS 0x5555555555555555 { st := .active, xfer := { credits := Vector.replicate 4 1 } } with host := { linkUp := true } },
     by decide +kernel⟩,
   ⟨0,
     { portS 0x5555555555555555 { st := .active, xfer := { credits := Vector.replicate 4 0 } } with host := { linkUp := true } },
     by decide +kernel⟩,
   ⟨0, { portS 0x5555555555555555 { st := .active, xfer := { replay := [tx1] } } with host := { linkUp := true } },
     by decide +kernel⟩,
   ⟨0,
     { portS 0x5555555555555555 { st := .dark, present := true } with host := { linkUp := true }, boot := { standby := true, phase := 8 } },
     by decide +kernel⟩,
   ⟨0, portS 0x5555555555555555 { st := .leaving, disable := true }, by decide +kernel⟩,
   ⟨{}, by decide +kernel⟩⟩

theorem witness_SyncDescriptors :
    (∃ (q : QueueId) (f : Fetched) (s : State) (code : BitVec 16), headReady s q = some f ∧ dType f.d = 4 ∧ dField
      f.d 0x20 1 = 1 ∧ descCheck s f.d = some code ∧ (heldType f.d = true → admits s = true) ∧ s.eng.copies.length <
      4 ∧ s.wts.load = none ∧ NoWaitSync s) ∧
    (∃ (q : QueueId) (f : Fetched) (s : State), Starts s q 4 f ∧ dField f.d 0x20 1 = 1 ∧ NoWaitSync s) ∧
    (∃ (q : QueueId) (f : Fetched) (s : State), Starts s q 5 f ∧ NoWaitSync s) ∧
    (∃ (q : QueueId) (n : Nat) (f : Fetched) (s : State), (s.host.queues[q.val]).st = .active ∧ (timedWaits s q)[n]?
      = some f ∧ (∀ q' : QueueId, ∀ g ∈ (s.host.queues[q'.val]).running, dType g.d = 5 → q' = q ∧ g.ticket =
      f.ticket ∨ ((objGet s (dField g.d 0x20 2)).count - BitVec.ofNat 32 (dField g.d 0x24 4)).toInt < 0 ∧ (dSignal
      f.d = true → dField g.d 0x20 2 ≠ dField f.d 6 2))) ∧
    (∃ (q : QueueId) (f : Fetched) (s : State), f ∈ (s.host.queues[q.val]).running ∧ dType f.d = 5 ∧ dField f.d 0x28
      4 ≠ 0) ∧
    (∃ (q : QueueId) (n : Nat) (s : State), (timedWaits s q)[n]? = none) :=
  ⟨⟨0, ⟨0, 0, dsc [(0, 1, 4), (0x20, 1, 1)]⟩, qS [⟨0, 0, dsc [(0, 1, 4), (0x20, 1, 1)]⟩] [], 0x0202,
     by decide +kernel⟩,
   ⟨0, ⟨0, 0, dsc [(0, 1, 4), (0x20, 1, 1), (0x22, 2, 0xC000), (0x24, 4, 5), (0x28, 2, 0xFFFF)]⟩,
     qS [⟨0, 0, dsc [(0, 1, 4), (0x20, 1, 1), (0x22, 2, 0xC000), (0x24, 4, 5), (0x28, 2, 0xFFFF)]⟩] [],
     by decide +kernel⟩,
   ⟨0, ⟨0, 0, dsc [(0, 1, 5), (0x20, 2, 0xC000)]⟩, qS [⟨0, 0, dsc [(0, 1, 5), (0x20, 2, 0xC000)]⟩] [],
     by decide +kernel⟩,
   ⟨0, 1, ⟨1, 1, dsc [(0, 1, 5), (0x20, 2, 0xC000), (0x28, 4, 1000), (0x24, 4, 1)]⟩,
     qS [] [⟨0, 0, dsc [(0, 1, 5), (0x20, 2, 0xC000), (0x28, 4, 1000), (0x24, 4, 1)]⟩, ⟨1, 1, dsc [(0, 1, 5), (0x20, 2, 0xC000), (0x28, 4, 1000), (0x24, 4, 1)]⟩],
     by decide +kernel⟩,
   ⟨0, ⟨0, 0, dsc [(0, 1, 5), (0x20, 2, 0xC000), (0x28, 4, 1000)]⟩,
     qS [] [⟨0, 0, dsc [(0, 1, 5), (0x20, 2, 0xC000), (0x28, 4, 1000)]⟩], by decide +kernel⟩,
   ⟨0, 1, qS [] [⟨0, 0, dsc [(0, 1, 5), (0x20, 2, 0xC000), (0x28, 4, 1000)]⟩], by decide +kernel⟩⟩

theorem witness_CopyAndEpochDescriptors :
    (∃ (q : QueueId) (s : State) (f : Fetched), Starts s q 6 f ∧ s.eng.copies.length < 4) ∧
    (∃ (q : QueueId) (s : State) (f : Fetched), Starts s q 7 f ∧ s.eng.copies.length < 4) ∧
    (∃ (q : QueueId) (s : State) (f : Fetched), headReady s q = some f ∧ dType f.d = 6 ∧ 4 ≤ s.eng.copies.length) ∧
    (∃ (n : Nat) (s : State) (j : CopyJob) (f : Fetched) (bs : List Byte), JobOf s n j f ∧ NoWaitSync s ∧ j.fill =
      true ∧ bs.length = j.len ∧ (∀ i (hi : i < bs.length), bs[i] = BitVec.ofNat 8 (j.pat.toNat / 256 ^ (i % 4)))) ∧
    (∃ (n : Nat) (s : State) (j : CopyJob) (f : Fetched), JobOf s n j f ∧ NoWaitSync s ∧ j.fill = true ∧ j.len = 64
      ∧ s.host.path.wdrop = 0) ∧
    (∃ (n : Nat) (s : State) (j : CopyJob) (f : Fetched), JobOf s n j f ∧ NoWaitSync s ∧ j.fill = false ∧ j.dir = 1
      ∧ j.len = 64 ∧ j.src + 64 ≤ winBytes ∧ s.host.path.err = 0) ∧
    (∃ (n : Nat) (data : List Byte) (s : State) (j : CopyJob) (f : Fetched), JobOf s n j f ∧ NoWaitSync s ∧ j.fill =
      false ∧ j.dir = 0 ∧ data.length = j.len) ∧
    (∃ (n : Nat) (s : State) (j : CopyJob) (f : Fetched) (bs : List Byte), JobOf s n j f ∧ NoWaitSync s ∧ j.fill =
      false ∧ j.dir ≠ 0 ∧ bs.length = j.len ∧ winBad s j.src j.len = false ∧ (∀ i (hi : i < bs.length), winLook s
      (j.src + i) = some bs[i])) ∧
    (∃ (q : QueueId) (s : State) (f : Fetched) (e : Epoch), Starts s q 8 f ∧ dField f.d 0x20 1 = 0 ∧ s.wts.load =
      none ∧ NoWaitSync s ∧ s.wts.current = some e) ∧
    (∃ (q : QueueId) (s : State) (f : Fetched) (d : DieId), Starts s q 8 f ∧ dField f.d 0x20 1 = 0 ∧ s.wts.load =
      none ∧ dieFor s (dField f.d 0x22 2) = some d ∧ (0 = 0 → switchCode s (BitVec.ofNat 16 (dField f.d 0x22 2)) =
      none)) ∧
    (∃ (q : QueueId) (s : State) (f : Fetched) (d : DieId), Starts s q 8 f ∧ dField f.d 0x20 1 = 1 ∧ s.wts.load =
      none ∧ dieFor s (dField f.d 0x22 2) = some d ∧ (1 = 0 → switchCode s (BitVec.ofNat 16 (dField f.d 0x22 2)) =
      none)) ∧
    (∃ (q : QueueId) (s : State) (f : Fetched) (l : Load), headReady s q = some f ∧ dType f.d = 8 ∧ s.wts.load =
      some l) :=
  ⟨⟨0, { qS [⟨0, 0, dsc [(0, 1, 6), (0x24, 4, 64)]⟩] [] with eng := { cfg := { window := true } } },
     ⟨0, 0, dsc [(0, 1, 6), (0x24, 4, 64)]⟩, by decide +kernel⟩,
   ⟨0, { qS [⟨0, 0, dsc [(0, 1, 7), (0x24, 4, 64)]⟩] [] with eng := { cfg := { window := true } } },
     ⟨0, 0, dsc [(0, 1, 7), (0x24, 4, 64)]⟩, by decide +kernel⟩,
   ⟨0,
     { qS [⟨0, 0, dsc [(0, 1, 6), (0x24, 4, 64)]⟩] [] with eng := { cfg := { window := true }, copies := [job1 true 0, job1 true 0, job1 true 0, job1 true 0] } },
     ⟨0, 0, dsc [(0, 1, 6), (0x24, 4, 64)]⟩, by decide +kernel⟩,
   ⟨0, jobS (job1 true 0) (dsc [(0, 1, 7), (0x24, 4, 64)]), job1 true 0, ⟨0, 0, dsc [(0, 1, 7), (0x24, 4, 64)]⟩,
     List.replicate 64 0, by decide +kernel⟩,
   ⟨0, jobS (job1 true 0) (dsc [(0, 1, 7), (0x24, 4, 64)]), job1 true 0, ⟨0, 0, dsc [(0, 1, 7), (0x24, 4, 64)]⟩,
     by decide +kernel⟩,
   ⟨0, jobS (job1 false 1) (dsc [(0, 1, 6), (0x24, 4, 64)]), job1 false 1, ⟨0, 0, dsc [(0, 1, 6), (0x24, 4, 64)]⟩,
     by decide +kernel⟩,
   ⟨0, bytesN 64, jobS (job1 false 0) (dsc [(0, 1, 6), (0x24, 4, 64)]), job1 false 0,
     ⟨0, 0, dsc [(0, 1, 6), (0x24, 4, 64)]⟩, by decide +kernel⟩,
   ⟨0, jobS (job1 false 1) (dsc [(0, 1, 6), (0x24, 4, 64)]), job1 false 1, ⟨0, 0, dsc [(0, 1, 6), (0x24, 4, 64)]⟩,
     List.replicate 64 0, by decide +kernel⟩,
   ⟨0, { qS [⟨0, 0, dsc [(0, 1, 8), (0x22, 2, 2)]⟩] [] with wts := { current := some ⟨2, some 0, man1⟩ } },
     ⟨0, 0, dsc [(0, 1, 8), (0x22, 2, 2)]⟩, ⟨2, some 0, man1⟩, by decide +kernel⟩,
   ⟨0,
     { qS [⟨0, 0, dsc [(0, 1, 8), (0x22, 2, 2)]⟩] [] with eng := { cfg := { portRole := 0x5555555555555555 } }, ports := Vector.replicate 32 { st := .active } },
     ⟨0, 0, dsc [(0, 1, 8), (0x22, 2, 2)]⟩, 2, by decide +kernel⟩,
   ⟨0,
     { qS [⟨0, 0, dsc [(0, 1, 8), (0x20, 1, 1), (0x22, 2, 2)]⟩] [] with eng := { cfg := { portRole := 0x5555555555555555 } }, ports := Vector.replicate 32 { st := .active } },
     ⟨0, 0, dsc [(0, 1, 8), (0x20, 1, 1), (0x22, 2, 2)]⟩, 2, by decide +kernel⟩,
   ⟨0, { qS [⟨0, 0, dsc [(0, 1, 8), (0x22, 2, 2)]⟩] [] with wts := { load := some load1 } },
     ⟨0, 0, dsc [(0, 1, 8), (0x22, 2, 2)]⟩, load1, by decide +kernel⟩⟩

theorem witness_ImageAndPass :
    (∃ (q : QueueId) (s : State) (f : Fetched), Starts s q 1 f ∧ s.eng.imgLoad = none) ∧
    (∃ (q : QueueId) (s : State) (f : Fetched) (l : ImgLoad), headReady s q = some f ∧ dType f.d = 1 ∧ s.eng.imgLoad
      = some l) ∧
    (∃ (bytes : List Byte) (s : State) (l : ImgLoad) (code : BitVec 16) (f : Fetched), s.eng.imgLoad = some l ∧
      l.image = none ∧ bytes.length = l.size ∧ imageCheck s l.size bytes = some code ∧ code.toNat / 256 ≠ 0x0C ∧
      code ≠ 0x0B03 ∧ runningAt s l.q l.ticket = some f ∧ (s.host.queues[l.q.val]).st = .active ∧ NoWaitSync s) ∧
    (∃ (table : List Byte) (q : QueueId) (s b : State) (f : Fetched) (im : Image) (c : Epoch), boundaryChanges s = b
      ∧ atBoundary s = true ∧ headReady s q = some f ∧ headReady b q = some f ∧ dType f.d = 2 ∧ descCheck b f.d =
      none ∧ table.length = 16 * dField f.d 0x2C 4 ∧ passHeld b table = false ∧ chosenPass b = some (q, none) ∧
      passCode b f.d table = none ∧ b.eng.image = some im ∧ b.wts.current = some c ∧ bitOf (dField f.d 0x28 4) 1 =
      false ∧ passEntries im f.d ≠ []) ∧
    (∃ (q : QueueId) (table : List Byte) (s b : State) (f : Fetched) (code : BitVec 16), boundaryChanges s = b ∧
      atBoundary s = true ∧ headReady s q = some f ∧ headReady b q = some f ∧ dType f.d = 2 ∧ descCheck b f.d = none
      ∧ table.length = 16 * dField f.d 0x2C 4 ∧ passHeld b table = false ∧ chosenPass b = some (q, none) ∧ passCode
      b f.d table = some code ∧ NoWaitSync b) ∧
    (∃ (q : QueueId) (s : State) (f : Fetched), headReady s q = some f ∧ dType f.d = 2 ∧ atBoundary s = false) ∧
    (∃ (q : QueueId) (table : List Byte) (s : State) (f : Fetched), headReady s q = some f ∧ dType f.d = 2 ∧
      atBoundary s = true ∧ table.length = 16 * dField f.d 0x2C 4 ∧ passHeld (boundaryChanges s) table = true) :=
  ⟨⟨0, qS [⟨0, 0, dsc [(0, 1, 1), (0x28, 8, 256)]⟩] [], ⟨0, 0, dsc [(0, 1, 1), (0x28, 8, 256)]⟩, by decide +kernel⟩,
   ⟨0, { qS [⟨0, 0, dsc [(0, 1, 1), (0x28, 8, 256)]⟩] [] with eng := { imgLoad := some ⟨0, 0, 0, 0, none⟩ } },
     ⟨0, 0, dsc [(0, 1, 1), (0x28, 8, 256)]⟩, ⟨0, 0, 0, 0, none⟩, by decide +kernel⟩,
   ⟨[], { qS [] [⟨0, 0, dsc [(0, 1, 1), (0x28, 8, 256)]⟩] with eng := { imgLoad := some ⟨0, 0, 0, 0, none⟩ } },
     ⟨0, 0, 0, 0, none⟩, 0x0220, ⟨0, 0, dsc [(0, 1, 1), (0x28, 8, 256)]⟩, by decide +kernel⟩,
   ⟨[], 0, passS false, boundaryChanges (passS false), passF, image1, ⟨1, some 0, man1⟩, rfl, by decide +kernel,
     by decide +kernel, by decide +kernel, by decide +kernel, by decide +kernel, by decide +kernel,
     by decide +kernel, chosen_of _ _ (by decide +kernel), by decide +kernel, by decide +kernel, by decide +kernel,
     by decide +kernel, by decide +kernel⟩,
   ⟨0, [], passS true, boundaryChanges (passS true), passF, 0x0406, rfl, by decide +kernel, by decide +kernel,
     by decide +kernel, by decide +kernel, by decide +kernel, by decide +kernel, by decide +kernel,
     chosen_of _ _ (by decide +kernel), by decide +kernel, by decide +kernel⟩,
   ⟨0, { qS [⟨0, 0, dsc [(0, 1, 2), (0x40, 4, 32)]⟩] [] with eng := { pass := some pass1 } },
     ⟨0, 0, dsc [(0, 1, 2), (0x40, 4, 32)]⟩, by decide +kernel⟩,
   ⟨0, [],
     { qS [⟨0, 0, dsc [(0, 1, 2), (0x40, 4, 32)]⟩] [] with wts := { held := true }, boot := { earlyBreak := true } },
     ⟨0, 0, dsc [(0, 1, 2), (0x40, 4, 32)]⟩, by decide +kernel⟩⟩

theorem witness_QueueRegisters :
    (∃ (q : QueueId) (v : BitVec 32) (s : State), hostUp s = true ∧ (s.host.queues[q.val]).st = .active ∧ v.toNat %
      65536 < 2 ^ (s.host.queues[q.val]).log2.toNat) ∧
    (∃ (q : QueueId) (v : BitVec 32) (s : State), hostUp s = true ∧ (s.host.queues[q.val]).st = .active ∧ 2 ^
      (s.host.queues[q.val]).log2.toNat ≤ v.toNat % 65536 ∧ (s.host.queues[q.val]).err = false) ∧
    (∃ (q : QueueId) (s : State), (s.host.queues[q.val]).st ≠ .active) ∧
    (∃ (q : QueueId) (v : BitVec 32) (s : State), hostUp s = true ∧ v.getLsbD 31 = true ∧ (s.host.queues[q.val]).st
      = .disabled) ∧
    (∃ (q : QueueId) (v : BitVec 32) (s : State), hostUp s = true ∧ v.getLsbD 31 = true ∧ (s.host.queues[q.val]).st
      ≠ .disabled) ∧
    (∃ (q : QueueId) (v : BitVec 32) (s : State), hostUp s = true ∧ v.getLsbD 31 = false ∧ (s.host.queues[q.val]).st
      = .disabled) ∧
    (∃ (q : QueueId) (v : BitVec 32) (s : State) (x : Queue), hostUp s = true ∧ v.getLsbD 31 = false ∧
      s.host.queues[q.val] = x ∧ x.st = .active ∧ x.errFlush = false ∧ x.resetBy = none ∧ NoWaitSync s ∧ (∀ f ∈
      x.waiting, dSignal f.d = false ∧ dIrq f.d = false ∧ (dType f.d = 2 → dField f.d 0x40 4 < statusNeed f.d 0) ∧
      forget q f.ticket s.eng = s.eng ∧ ∀ r ∈ x.running, r.ticket ≠ f.ticket)) ∧
    (∃ (q : QueueId) (v : BitVec 32) (s : State) (x : Queue) (f : Fetched), hostUp s = true ∧ v.getLsbD 31 = false ∧
      s.host.queues[q.val] = x ∧ x.st = .active ∧ x.waiting = [f] ∧ dType f.d = 2 ∧ dField f.d 0x38 8 % 32 = 0 ∧
      statusNeed f.d 0 ≤ dField f.d 0x40 4 ∧ NoWaitSync s) ∧
    (∃ (s : State), hostUp s = true ∧ (∀ q : QueueId, (s.host.queues[q.val]).st = .disabled)) ∧
    (∃ (s : State) (q : QueueId), (s.host.queues[q.val]).st ≠ .disabled) ∧
    (∃ (q : QueueId) (s : State) (x : Queue), hostUp s = true ∧ s.host.queues[q.val] = x ∧ x.st = .active ∧
      shuttleUp s q = true ∧ x.head ≠ x.tail ∧ x.waiting.length ≤ 8) ∧
    (∃ (q : QueueId) (s : State) (x : Queue), hostUp s = true ∧ s.host.queues[q.val] = x ∧ x.st = .active ∧
      shuttleUp s q = true ∧ x.head ≠ x.tail ∧ x.waiting.length ≤ 8 ∧ x.err = false ∧ x.running = [] ∧ x.resetBy =
      none ∧ NoWaitSync s) :=
  ⟨⟨0, 5, qS [] [], by decide +kernel⟩,
   ⟨0, 16, qS [] [], by decide +kernel⟩,
   ⟨1, qS [] [], by decide +kernel⟩,
   ⟨1, 0x80000000, qS [] [], by decide +kernel⟩,
   ⟨0, 0x80000000, qS [] [], by decide +kernel⟩,
   ⟨1, 0, qS [] [], by decide +kernel⟩,
   ⟨0, 0, qS [] [], { st := .active, log2 := 4 }, by decide +kernel⟩,
   ⟨0, 0, qS [⟨0, 0, dsc [(0, 1, 2), (0x40, 4, 32)]⟩] [],
     { st := .active, log2 := 4, waiting := [⟨0, 0, dsc [(0, 1, 2), (0x40, 4, 32)]⟩] },
     ⟨0, 0, dsc [(0, 1, 2), (0x40, 4, 32)]⟩, by decide +kernel⟩,
   ⟨upS, by decide +kernel⟩,
   ⟨qS [] [], 0, by decide +kernel⟩,
   ⟨0,
     { host := { linkUp := true, queues := ({} : State).host.queues.set 0 { st := .active, log2 := 4, tail := 1 } } },
     { st := .active, log2 := 4, tail := 1 }, by decide +kernel⟩,
   ⟨0,
     { host := { linkUp := true, queues := ({} : State).host.queues.set 0 { st := .active, log2 := 4, tail := 1 } } },
     { st := .active, log2 := 4, tail := 1 }, by decide +kernel⟩⟩

theorem witness_Mailboxes :
    (∃ (m : MbxId) (s : State), hostUp s = true ∧ hostSends m = true ∧ mbxOff s m = false ∧ (s.host.mbx[m.val]).full
      = false) ∧
    (∃ (m : MbxId) (s : State), hostUp s = true ∧ hostSends m = true ∧ (mbxOff s m = true ∨ (s.host.mbx[m.val]).full
      = true)) ∧
    (∃ (m : MbxId), hostSends m = false) ∧
    (∃ (m : MbxId) (s : State), hostUp s = true ∧ mbxOff s m = false) ∧
    (∃ (m : MbxId) (s : State), hostUp s = true ∧ mbxOff s m = true ∧ s.host.mbxErr.getLsbD 31 = false) ∧
    (∃ (m : MbxId) (s : State) (code c : BitVec 16), wordWaits s m = true ∧ wordPending s m = false ∧ takeCode s m
      code = some c) ∧
    (∃ (m : MbxId) (s : State), wordPending s m = true) ∧
    (∃ (m : MbxId) (s : State), hostSends m = false ∧ mbxOff s m = false ∧ (s.host.mbx[m.val]).full = false) ∧
    (∃ (m : MbxId) (s : State), hostSends m = false ∧ (s.host.mbx[m.val]).full = true) ∧
    (∃ (m : MbxId) (s : State), hostUp s = true ∧ hostSends m = false ∧ s.mgmt.eventQ = [] ∧ s.mgmt.result = none) ∧
    (∃ (s : State) (c : BitVec 16) (rest : List (BitVec 16)), hostUp s = true ∧ s.host.loupeOff = false ∧
      s.mgmt.eventQ = c :: rest ∧ s.mgmt.result = none) ∧
    (∃ (s : State) (rs : List Word) (w : Word), hostUp s = true ∧ s.host.loupeOff = false ∧ s.mgmt.eventQ = [] ∧
      s.mgmt.result = some (rs, w)) ∧
    (∃ (m : MbxId) (s : State), mbxOff s m = false) :=
  ⟨⟨0, upS, by decide +kernel⟩,
   ⟨0, { upS with host := { linkUp := true, mbx := ({} : State).host.mbx.set 0 { full := true } } },
     by decide +kernel⟩,
   ⟨24, by decide +kernel⟩,
   ⟨24, upS, by decide +kernel⟩,
   ⟨24, { host := { linkUp := true, loupeOff := true } }, by decide +kernel⟩,
   ⟨32, shuttleS 6 0, 0, 0x0103, by decide +kernel⟩,
   ⟨32, { shuttleS 1 0 with host := { (shuttleS 1 0).host with shuttleCmd := some 32 } }, by decide +kernel⟩,
   ⟨24, upS, by decide +kernel⟩,
   ⟨24, { upS with host := { linkUp := true, mbx := ({} : State).host.mbx.set 24 { full := true } } },
     by decide +kernel⟩,
   ⟨24, upS, by decide +kernel⟩,
   ⟨{ upS with mgmt := { eventQ := [7] } }, 7, [], by decide +kernel⟩,
   ⟨{ upS with mgmt := { result := some ([], 1) } }, [], 1, by decide +kernel⟩,
   ⟨24, upS, by decide +kernel⟩⟩

theorem witness_MailboxCommands :
    (∃ (m : MbxId) (s : State), ShuttleHas s m 1 0) ∧
    (∃ (m : MbxId) (s : State) (q : QueueId), ShuttleHas s m 2 q.val) ∧
    (∃ (m : MbxId) (s : State), ShuttleHas s m 3 0 ∧ s.boot.eng = .full ∧ drainOn s = false) ∧
    (∃ (m : MbxId) (s : State), ShuttleHas s m 4 0 ∧ s.boot.eng = .draining ∧ s.eng.drains.activation = false ∧
      s.eng.drains.power = false ∧ drainOn s = true ∧ s.boot.calibrated = false) ∧
    (∃ (m : MbxId) (s : State), ShuttleHas s m 5 0 ∧ s.eng.lp = none ∧ s.eng.pass = none) ∧
    (∃ (m : MbxId) (s : State) (lp : LayerPass), ShuttleHas s m 5 0 ∧ s.eng.lp = some lp ∧ lp.started = true) ∧
    (∃ (m : MbxId) (s : State) (p : Pass), ShuttleHas s m 5 0 ∧ s.eng.lp = none ∧ s.eng.pass = some p ∧ (p.todo ≠ []
      ∨ s.eng.parked ≠ none) ∧ passBackward p = false) ∧
    (∃ (m : MbxId) (s : State) (cmd arg : Nat), ShuttleHas s m cmd arg ∧ (cmd < 1 ∨ 5 < cmd)) ∧
    (∃ (m : MbxId) (s : State) (m' : MbxId), 32 ≤ m.val ∧ wordWaits s m = true ∧ s.eng.abortReq = [] ∧
      s.host.shuttleCmd = some m' ∧ m' ≠ m ∧ (s.host.mbx[m.val]).data.toNat / 2 ^ 24 ≠ 5) ∧
    (∃ (s : State) (n tag : Nat), LoupeHas s 1 n tag) ∧
    (∃ (s : State) (n tag : Nat), LoupeHas s 2 n tag ∧ 11 ≤ n ∧ addrOf (loupeArg s 8) (loupeArg s 9) % 64 = 0 ∧
      s.host.linkUp = true) ∧
    (∃ (s : State) (n tag : Nat), LoupeHas s 3 n tag ∧ 4 ≤ n ∧ addrOf (loupeArg s 1) (loupeArg s 2) % 64 = 0 ∧
      s.host.linkUp = true ∧ loupeArg s 0 ≤ 2) ∧
    (∃ (s : State) (n tag : Nat) (bank : List Byte) (k : Bool) (c : Cartridge), LoupeHas s 4 n tag ∧ 3 ≤ n ∧ addrOf
      (loupeArg s 0) (loupeArg s 1) % 64 = 0 ∧ loupeArg s 2 ≤ 1 ∧ bank.length = 4096 ∧ s.boot.bank = some k ∧
      s.boot.cart = some c ∧ bankValid bank = true ∧ seqNewer (bankSeqOf bank) s.boot.bankSeq = true) ∧
    (∃ (s : State) (n tag : Nat) (bank : List Byte), LoupeHas s 4 n tag ∧ 3 ≤ n ∧ addrOf (loupeArg s 0) (loupeArg s
      1) % 64 = 0 ∧ loupeArg s 2 ≤ 2 ∧ bank.length = 4096 ∧ bankValid bank = false ∧ s.boot.cfgErr = false) ∧
    (∃ (s : State) (n tag : Nat), LoupeHas s 5 n tag ∧ 1 ≤ n) ∧
    (∃ (s : State) (n tag : Nat), LoupeHas s 2 n tag ∧ n < 11) ∧
    (∃ (s : State) (n tag : Nat) (cmd : Nat), LoupeHas s cmd n tag ∧ (cmd < 1 ∨ 5 < cmd)) ∧
    (∃ (s : State), loupeUp s = true ∧ (s.host.mbx[0]).full = true ∧ s.mgmt.result ≠ none) :=
  ⟨⟨32, shuttleS 1 0, by decide +kernel⟩,
   ⟨32, shuttleS 2 5, 5, by decide +kernel⟩,
   ⟨32, { shuttleS 3 0 with boot := { eng := .full } }, by decide +kernel⟩,
   ⟨32, { shuttleS 4 0 with boot := { eng := .draining }, eng := { drains := { cmd := true } } }, by decide +kernel⟩,
   ⟨32, shuttleS 5 0, by decide +kernel⟩,
   ⟨32, { shuttleS 5 0 with eng := { lp := some { kind := .work, entry := 0, number := 0, started := true } } },
     { kind := .work, entry := 0, number := 0, started := true }, by decide +kernel⟩,
   ⟨32, { shuttleS 5 0 with eng := { pass := some pass1 } }, pass1, by decide +kernel⟩,
   ⟨32, shuttleS 6 0, 6, 0, by decide +kernel⟩,
   ⟨32, { shuttleS 1 0 with host := { (shuttleS 1 0).host with shuttleCmd := some 33 } }, 33, by decide +kernel⟩,
   ⟨loupeS 1 0 9, 0, 9, by decide +kernel⟩,
   ⟨loupeS 2 11 9, 11, 9, by decide +kernel⟩,
   ⟨loupeS 3 4 9, 4, 9, by decide +kernel⟩,
   ⟨{ loupeS 4 3 9 with boot := { standby := true, phase := 8, bank := some false } }, 3, 9, bank2, false, cart0,
     by decide +kernel, by decide, by decide +kernel, by decide +kernel, by decide +kernel, rfl, rfl, bank2_valid,
     by decide +kernel⟩,
   ⟨loupeS 4 3 9, 3, 9, List.replicate 4096 0, by decide +kernel⟩,
   ⟨loupeS 5 1 9, 1, 9, by decide +kernel⟩,
   ⟨loupeS 2 10 9, 10, 9, by decide +kernel⟩,
   ⟨loupeS 6 0 9, 0, 9, 6, by decide +kernel⟩,
   ⟨{ loupeS 1 0 9 with mgmt := { result := some ([], 1) } }, by decide +kernel⟩⟩

theorem witness_OddAccessesRefused :
    (∃ (off : BitVec 26) (size : Nat) (s : State), hostUp s = true ∧ (size ≠ 4 ∧ size ≠ 8 ∨ off.toNat % size ≠ 0)) ∧
    (∃ (off : BitVec 26) (size : Nat) (s : State), hostUp s = true ∧ (size ≠ 4 ∧ size ≠ 8 ∨ off.toNat % size ≠ 0)) :=
  ⟨⟨2, 4, upS, by decide +kernel⟩,
   ⟨0, 2, upS, by decide +kernel⟩⟩

theorem witness_HostRegisters :
    (∃ (off : BitVec 26) (size : Nat) (s : State), hostUp s = true ∧ (size = 4 ∨ size = 8) ∧ off.toNat % size = 0) ∧
    (∃ (off : BitVec 26) (size : Nat) (s : State), hostUp s = true ∧ (size = 4 ∨ size = 8) ∧ off.toNat % size = 0) ∧
    (∃ (req : Nat) (s : State), hostUp s = true ∧ latched s req 0x204 = none) ∧
    (∃ (req : Nat) (off : BitVec 26) (s : State), hostUp s = true ∧ off.toNat % 4 = 0 ∧ lowWord off.toNat = true ∧
      latched s req off = none) ∧
    (∃ (req : Nat) (off : BitVec 26) (s : State) (v : Word), hostUp s = true ∧ off.toNat % 4 = 0 ∧ lowWord off.toNat
      = false ∧ rcReg off.toNat = false ∧ mailWord off.toNat = false ∧ latched s req off = some v) ∧
    (∃ (req : Nat) (s : State), hostUp s = true ∧ latched s req 0x201000 = none ∧ latched s req (0x201000 + 4) =
      none) ∧
    (∃ (req : Nat) (off : BitVec 26) (s : State), hostUp s = true ∧ off.toNat % 8 = 0 ∧ lowWord off.toNat = true ∧
      latched s req off = none) ∧
    (∃ (off : BitVec 26), off.toNat % 8 ≠ 0) ∧
    (∃ (req : Nat) (s : State), hostUp s = true ∧ latched s req 0x214 = none) ∧
    (∃ (req : Nat) (s : State), hostUp s = true ∧ latched s req 0x218 = none ∧ latched s req 0x21C = none) ∧
    (∃ (s : State), hostUp s = true) ∧
    (∃ (off : BitVec 26), off.toNat % 8 ≠ 0) ∧
    (∃ (s : State), dieUp s = true) ∧
    (∃ (s : State), dieUp s = false) ∧
    (∃ (k : TickSample) (s : State), s.boot.standby = true ∧ feedsSpent s = false ∧ dieUp s = true ∧ linkHeld s =
      false ∧ (k.perst0 = true ∨ k.perst1 = true ∧ s.eng.cfg.cxlWidth ≠ 1)) ∧
    (∃ (k : TickSample) (s : State), s.boot.standby = true ∧ feedsSpent s = false ∧ dieUp s = true ∧ linkHeld s =
      false ∧ (k.perst0 = true ∨ k.perst1 = true ∧ s.eng.cfg.cxlWidth ≠ 1)) ∧
    (∃ (k : TickSample) (s : State), s.boot.standby = true ∧ feedsSpent s = false ∧ dieUp s = true ∧ linkHeld s =
      true ∧ k.perst0 = false ∧ (k.perst1 = false ∨ s.eng.cfg.cxlWidth = 1)) ∧
    (∃ (k : TickSample) (s : State), s.boot.standby = true ∧ feedsSpent s = false ∧ s.eng.cfg.cxlWidth = 1 ∧
      k.perst0 = s.host.perst0) :=
  ⟨⟨4, 4, upS, by decide +kernel⟩,
   ⟨8, 8, upS, by decide +kernel⟩,
   ⟨0, upS, by decide +kernel⟩,
   ⟨0, 0x1C, upS, by decide +kernel⟩,
   ⟨0, 0x20, { upS with host := { linkUp := true, latch := [(0, 0x20, 5)] } }, 5, by decide +kernel⟩,
   ⟨0, upS, by decide +kernel⟩,
   ⟨0, 0x100000, upS, by decide +kernel⟩,
   ⟨4, by decide +kernel⟩,
   ⟨0, upS, by decide +kernel⟩,
   ⟨0, upS, by decide +kernel⟩,
   ⟨upS, by decide +kernel⟩,
   ⟨4, by decide +kernel⟩,
   ⟨upS, by decide +kernel⟩,
   ⟨{}, by decide +kernel⟩,
   ⟨{ tick0 with perst0 := true }, upS, by decide +kernel⟩,
   ⟨{ tick0 with perst1 := true }, upS, by decide +kernel⟩,
   ⟨tick0, { upS with host := { perst0 := true } }, by decide +kernel⟩,
   ⟨{ tick0 with perst1 := true }, { upS with eng := { cfg := { cxlWidth := 1 } } }, by decide +kernel⟩⟩

theorem witness_PowerSample :
    (∃ (s : State), s.boot.standby = true ∧ feedsSpent s = false ∧ loupeUp s = true) ∧
    (∃ (k : TickSample) (s : State), k.perst0 = s.host.perst0 ∧ k.perst1 = s.host.perst1) ∧
    (∃ (s : State), s.boot.standby = true ∧ feedsSpent s = false ∧ loupeUp s = false) ∧
    (∃ (s : State), s.boot.standby = true ∧ feedsSpent s = true) ∧
    (∃ (s : State), s.eng.duty = 1 ∧ 100 ≤ s.pwr.dutyMs ∧ s.pwr.ceilMw < meanMw s.pwr.last10) ∧
    (∃ (s : State), (s.eng.duty ≠ 1 ∨ s.pwr.dutyMs < 100 ∨ meanMw s.pwr.last10 ≤ s.pwr.ceilMw)) :=
  ⟨⟨upS, by decide +kernel⟩,
   ⟨tick0, upS, by decide +kernel⟩,
   ⟨{ boot := { standby := true, phase := 8, loupeDown := true } }, by decide +kernel⟩,
   ⟨{ boot := { standby := true, phase := 8, earlyBreak := true } }, by decide +kernel⟩,
   ⟨{ eng := { duty := 1 }, pwr := { dutyMs := 100, last10 := [1], ceilMw := 999 } }, by decide +kernel⟩,
   ⟨{ eng := { duty := 1 }, pwr := { dutyMs := 100, last10 := [1], ceilMw := 1000 } }, by decide +kernel⟩⟩

theorem witness_FeedsAndStages :
    (∃ (f : FeedId) (dV : Nat) (s : State) (x : Feed), s.pwr.feeds[f.val] = x ∧ 640 ≤ dV ∧ dV ≤ 780) ∧
    (∃ (f : FeedId) (dV : Nat) (s : State) (x : Feed), s.pwr.feeds[f.val] = x ∧ (dV < 640 ∨ 780 < dV) ∧ x.st =
      .lost) ∧
    (∃ (f g : FeedId) (dV : Nat) (s : State) (x : Feed), s.pwr.feeds[f.val] = x ∧ (dV < 640 ∨ 780 < dV) ∧ x.st ≠
      .lost ∧ g ≠ f) ∧
    (∃ (f : FeedId) (s : State) (x : Feed), s.pwr.feeds[f.val] = x ∧ x.st = .qualifying) ∧
    (∃ (f : FeedId) (s : State), (s.pwr.feeds[f.val]).st ≠ .qualifying) ∧
    (∃ (k : StageId) (s : State), (s.pwr.stages[k.val]).inService = true) ∧
    (∃ (k : StageId) (s : State), (s.pwr.stages[k.val]).inService = false) ∧
    (∃ (s : State), (s.boot.phase < 6 ∨ 3 ≤ stagesIn s)) ∧
    (∃ (s : State), (s.boot.phase < 6 ∨ 3 ≤ stagesIn s)) ∧
    (∃ (t : PhysTile) (s : State) (pt : TileId), (s.tiles[t.val]).powered = true ∧ (s.tiles[t.val]).opens = [] ∧
      servesOf s t = some pt ∧ inService s pt.val = true) ∧
    (∃ (t : PhysTile) (s : State) (pt : TileId), t.val < 48 ∧ (s.tiles[t.val]).powered = true ∧ servesOf s t = some
      pt) ∧
    (∃ (t : PhysTile) (s : State), (s.tiles[t.val]).powered = false) :=
  ⟨⟨0, 640, {}, {}, by decide +kernel⟩,
   ⟨0, 639, {}, {}, by decide +kernel⟩,
   ⟨0, 1, 781, { pwr := { feeds := Vector.replicate 2 { st := .inService } } }, { st := .inService },
     by decide +kernel⟩,
   ⟨0, { pwr := { feeds := Vector.replicate 2 { st := .qualifying } } }, { st := .qualifying }, by decide +kernel⟩,
   ⟨0, {}, by decide +kernel⟩,
   ⟨0, { pwr := { stages := Vector.replicate 12 { inService := true } } }, by decide +kernel⟩,
   ⟨0, {}, by decide +kernel⟩,
   ⟨{ boot := { phase := 5 } }, by decide +kernel⟩,
   ⟨{ boot := { phase := 6 }, pwr := { stages := Vector.replicate 12 { inService := true } } }, by decide +kernel⟩,
   ⟨0, { tiles := Vector.replicate 50 { powered := true }, boot := { inService := 1 } }, 0, by decide +kernel⟩,
   ⟨47, { tiles := Vector.replicate 50 { powered := true } }, 47, by decide +kernel⟩,
   ⟨0, {}, by decide +kernel⟩⟩

theorem witness_LadderAndCooling :
    (∃ (s : State) (ci : ClusterId), inService s (ci.val / 16) = true ∧ diodesLost (s.tiles[(physCi s ci).val]) =
      false) ∧
    (∃ (s : State), s.boot.standby = true ∧ feedsSpent s = false ∧ loupeUp s = true) ∧
    (∃ (s : State), s.eng.duty = 1 ∧ 100 ≤ s.pwr.dutyMs ∧ s.pwr.ceilMw < meanMw s.pwr.last10) ∧
    (∃ (s : State) (ci : ClusterId), inService s (ci.val / 16) = true ∧ diodesLost (s.tiles[(physCi s ci).val]) =
      true) ∧
    (∃ (n : FanId) (s : State), (s.pwr.fans[n.val]).st = .running) ∧
    (∃ (n : FanId) (s : State), (s.pwr.fans[n.val]).st ≠ .running) ∧
    (∃ (n : FanId) (s : State), (s.pwr.fans[n.val]).fitted = true) ∧
    (∃ (n : FanId) (s : State), (s.pwr.fans[n.val]).fitted = false) ∧
    (∃ (s : State), s.pwr.degraded = false ∧ (10000 ≤ s.pwr.thermMs ∨ fansRunning s < 7)) ∧
    (∃ (s : State), (s.pwr.degraded = true ∨ coolingCause s = false)) ∧
    (∃ (s : State), s.pwr.degraded = true ∧ 60000 ≤ s.pwr.freeMs ∧ coolingCause s = false) ∧
    (∃ (s : State), (s.pwr.degraded = false ∨ s.pwr.freeMs < 60000 ∨ coolingCause s = true)) ∧
    (∃ (l : PowerLimits) (s : State), loupeUp s = true ∧ (∀ v, l.rampUp = some v ∨ l.rampDown = some v → 100 ≤ v ∧ v
      ≤ 20000) ∧ (∀ v, l.cap = some v → 2500 ≤ v ∧ v ≤ 20000)) ∧
    (∃ (l : PowerLimits) (s : State) (v : Nat), loupeUp s = true ∧ (l.rampUp = some v ∧ (v < 100 ∨ 20000 < v) ∨
      l.rampDown = some v ∧ (v < 100 ∨ 20000 < v) ∨ l.cap = some v ∧ (v < 2500 ∨ 20000 < v))) ∧
    (∃ (l : PowerLimits) (s : State) (v : Nat), loupeUp s = true ∧ (l.rampUp = some v ∧ (v < 100 ∨ 20000 < v) ∨
      l.rampDown = some v ∧ (v < 100 ∨ 20000 < v) ∨ l.cap = some v ∧ (v < 2500 ∨ 20000 < v))) :=
  ⟨⟨{ boot := { inService := 1 } }, 15, by decide +kernel⟩,
   ⟨upS, by decide +kernel⟩,
   ⟨{ eng := { duty := 1 }, pwr := { dutyMs := 100, last10 := [1], ceilMw := 999 } }, by decide +kernel⟩,
   ⟨{ tiles := Vector.replicate 50 { diodes := [] }, boot := { inService := 1 } }, 0, by decide +kernel⟩,
   ⟨0, { pwr := { fans := Vector.replicate 8 { st := .running, fitted := true } } }, by decide +kernel⟩,
   ⟨0, { pwr := { fans := Vector.replicate 8 { st := .failed, fitted := true } } }, by decide +kernel⟩,
   ⟨0, { pwr := { fans := Vector.replicate 8 { st := .failed, fitted := true } } }, by decide +kernel⟩,
   ⟨0, { pwr := { fans := Vector.replicate 8 { st := .absent, fitted := false } } }, by decide +kernel⟩,
   ⟨{ pwr := { thermMs := 10000 } }, by decide +kernel⟩,
   ⟨{ pwr := { thermMs := 9999, fans := Vector.replicate 8 { st := .running } } }, by decide +kernel⟩,
   ⟨{ pwr := { degraded := true, freeMs := 60000, fans := Vector.replicate 8 { st := .running } } },
     by decide +kernel⟩,
   ⟨{ pwr := { degraded := true, freeMs := 59999 } }, by decide +kernel⟩,
   ⟨⟨some 100, some 20000, some 2500⟩, upS, by decide, by rintro v (h | h) <;> cases h <;> decide,
     by rintro v h; cases h; decide⟩,
   ⟨⟨some 99, none, none⟩, upS, 99, by decide +kernel⟩,
   ⟨⟨none, none, some 20001⟩, upS, 20001, by decide +kernel⟩⟩

theorem witness_ColdStart :
    (∃ (s : State), s.boot.standby = true) ∧
    (∃ (s : State) (x : Slot) (c : Cartridge) (n : Bool), s.boot.standby = false ∧ s.boot.fwInForce = some x ∧ romOk
      s x = true ∧ s.boot.cart = some c ∧ chooseBank c = some n) ∧
    (∃ (s : State), s.boot.standby = false ∧ (∀ x, s.boot.fwInForce = some x ∨ s.boot.fwOther = some x → romOk s x =
      false)) ∧
    (∃ (s : State) (k : Bool), loupeUp s = true ∧ s.mgmt.permit = false ∧ s.boot.phase = 4 ∧ s.boot.bank = some k ∧
      s.boot.earlyBreak = false ∧ s.boot.powerDown = 0) ∧
    (∃ (s : State), loupeUp s = true ∧ s.mgmt.permit = false ∧ (s.boot.phase ≠ 4 ∨ s.boot.bank = none ∨
      s.boot.earlyBreak = true)) ∧
    (∃ (s : State), loupeUp s = true ∧ s.mgmt.permit = true) ∧
    (∃ (s : State) (x y : Slot), s.boot.standby = false ∧ s.boot.fwInForce = some x ∧ romOk s x = false ∧
      s.boot.fwOther = some y ∧ romOk s y = true) :=
  ⟨⟨upS, by decide +kernel⟩,
   ⟨{ boot := { fwInForce := some (slotS true), cart := some cart2 } }, slotS true, cart2, false, rfl, rfl,
     by decide +kernel, rfl, bank2_chosen⟩,
   ⟨{ boot := { fwInForce := none } }, rfl, (by rintro x (h | h) <;> cases h)⟩,
   ⟨{ boot := { standby := true, phase := 4, bank := some false } }, false, by decide +kernel⟩,
   ⟨{ boot := { standby := true, phase := 4 } }, by decide +kernel⟩,
   ⟨{ upS with mgmt := { permit := true } }, by decide +kernel⟩,
   ⟨{ boot := { fwInForce := some (slotS false), fwOther := some (slotS true) } }, slotS false, slotS true,
     by decide +kernel⟩⟩

theorem witness_WavesAndPowerDown :
    (∃ (r : List TileTest) (s : State), WaveOf s r ∧ (∀ x ∈ r, x.othersOk = true)) ∧
    (∃ (x : TileTest) (s : State) (pt : TileId), WaveOf s [x] ∧ x.othersOk = false ∧ servesOf s x.t = some pt) ∧
    (∃ (s : State) (pt : TileId), s.boot.phase = 7 ∧ s.boot.powerDown = 0 ∧ tileUnserved s pt = false) ∧
    (∃ (s : State), (s.boot.phase ≠ 7 ∨ s.boot.powerDown ≠ 0)) ∧
    (∃ (s : State), loupeUp s = true ∧ s.mgmt.permit = true ∧ 5 ≤ s.boot.phase ∧ s.boot.powerDown = 0) ∧
    (∃ (s : State), loupeUp s = true ∧ s.boot.phase < 5) ∧
    (∃ (s : State), loupeUp s = true ∧ s.mgmt.permit = false) ∧
    (∃ (s : State), loupeUp s = true ∧ 5 ≤ s.boot.phase) ∧
    (∃ (s : State), (s.boot.powerDown = 0 ∨ s.boot.powerDown = 8 ∧ drainReached s = false)) ∧
    (∃ (s : State), (s.boot.powerDown = 0 ∨ s.boot.powerDown = 8 ∧ drainReached s = false)) ∧
    (∃ (s : State), s.boot.powerDown = 8 ∧ drainReached s = true) ∧
    (∃ (s : State), 1 ≤ s.boot.powerDown ∧ s.boot.powerDown ≤ 7 ∧ ((∃ p : PortId, (s.ports[p.val]).st = .leaving) ∨
      s.pwr.p1 * 1000 - wavePower s (s.boot.powerDown - 2) ≤ effFloor s)) ∧
    (∃ (s : State) (pt : TileId), 3 ≤ s.boot.powerDown ∧ s.boot.powerDown ≤ 7 ∧ pt.val / 8 = s.boot.powerDown - 2 ∧
      tileUnserved s pt = false ∧ portsLeft s = true ∧ waveMayGo s (s.boot.powerDown - 2) = true) ∧
    (∃ (s : State) (pt : TileId), 3 ≤ s.boot.powerDown ∧ s.boot.powerDown ≤ 7 ∧ pt.val / 8 = s.boot.powerDown - 2 ∧
      tileUnserved s pt = false ∧ portsLeft s = true ∧ waveMayGo s (s.boot.powerDown - 2) = true) ∧
    (∃ (s : State), 1 ≤ s.boot.powerDown ∧ s.boot.powerDown ≤ 2 ∧ portsLeft s = true ∧ waveMayGo s 0 = true ∧
      s.boot.restart = true) ∧
    (∃ (s : State), 1 ≤ s.boot.powerDown ∧ s.boot.powerDown ≤ 2 ∧ portsLeft s = true ∧ waveMayGo s 0 = true ∧
      s.boot.restart = false) ∧
    (∃ (s : State), loupeUp s = true ∧ s.boot.eng = .full ∧ drainOn s = false) ∧
    (∃ (s : State), loupeUp s = true ∧ s.boot.eng = .draining ∧ s.eng.drains.activation = false ∧ s.eng.drains.power
      = false ∧ drainOn s = true ∧ s.boot.calibrated = false) :=
  ⟨⟨[⟨0, [], true⟩],
     { tiles := Vector.replicate 50 { powered := true, test := 1 }, boot := { standby := true, phase := 6, wave := 6, extraWave := [0] }, eng := { pass := some pass1 } },
     by decide +kernel⟩,
   ⟨⟨0, [], false⟩,
     { tiles := Vector.replicate 50 { powered := true, test := 1 }, boot := { standby := true, phase := 6, wave := 6, extraWave := [0] }, eng := { pass := some pass1 } },
     0, by decide +kernel⟩,
   ⟨{ boot := { standby := true, phase := 7 } }, 0, by decide +kernel⟩,
   ⟨upS, by decide +kernel⟩,
   ⟨{ upS with mgmt := { permit := true } }, by decide +kernel⟩,
   ⟨{ boot := { standby := true, phase := 4 } }, by decide +kernel⟩,
   ⟨upS, by decide +kernel⟩,
   ⟨{ boot := { standby := true, phase := 5 } }, by decide +kernel⟩,
   ⟨{ boot := { powerDown := 8 }, eng := { pass := some pass1 } }, by decide +kernel⟩,
   ⟨{}, by decide +kernel⟩,
   ⟨{ boot := { powerDown := 8 } }, by decide +kernel⟩,
   ⟨{ boot := { powerDown := 7 } }, by decide, by decide, .inr (by decide +kernel)⟩,
   ⟨{ boot := { powerDown := 7 }, pwr := { p1 := 1 } }, 47, by decide +kernel⟩,
   ⟨{ boot := { powerDown := 3 }, pwr := { p1 := 1 } }, 8, by decide +kernel⟩,
   ⟨{ boot := { powerDown := 2, restart := true }, pwr := { p1 := 1 } }, by decide +kernel⟩,
   ⟨{ boot := { powerDown := 1 }, pwr := { p1 := 1 } }, by decide +kernel⟩,
   ⟨{ boot := { standby := true, phase := 8, eng := .full } }, by decide +kernel⟩,
   ⟨{ boot := { standby := true, phase := 8, eng := .draining }, eng := { drains := { redfish := true } } },
     by decide +kernel⟩⟩

theorem witness_StagingAndActivation :
    (∃ (s : State) (bank : List Byte) (k : Bool) (c : Cartridge), loupeUp s = true ∧ s.boot.bank = some k ∧
      s.boot.cart = some c ∧ bankValid bank = true ∧ seqNewer (bankSeqOf bank) s.boot.bankSeq = true) ∧
    (∃ (s : State) (bank : List Byte), loupeUp s = true ∧ (bankValid bank = false ∨ s.boot.cart = none) ∧
      s.boot.cfgErr = false) ∧
    (∃ (s : State), loupeUp s = true ∧ s.boot.act.step = 0) ∧
    (∃ (s : State), loupeUp s = true ∧ s.boot.fwPending = true) ∧
    (∃ (s : State), loupeUp s = true ∧ s.boot.fwPending = false) ∧
    (∃ (s : State), s.boot.act.step = 1) ∧
    (∃ (s : State), s.boot.act.step = 2 ∧ s.boot.act.shuttles < 3) ∧
    (∃ (s : State), s.boot.act.step = 2 ∧ 3 ≤ s.boot.act.shuttles) ∧
    (∃ (s : State) (x : Slot), s.boot.act.step = 3 ∧ s.boot.fwOther = some x) ∧
    (∃ (s : State) (k : FwComponent), s.boot.act.step = fwStep k) :=
  ⟨⟨{ boot := { standby := true, phase := 8, bank := some true } }, bank2, true, cart0, by decide, rfl, rfl,
     bank2_valid, by decide +kernel⟩,
   ⟨upS, [], by decide +kernel⟩,
   ⟨upS, by decide +kernel⟩,
   ⟨{ boot := { standby := true, phase := 8, fwPending := true } }, by decide +kernel⟩,
   ⟨upS, by decide +kernel⟩,
   ⟨{ boot := { standby := true, phase := 8, act := { step := 1 } } }, by decide +kernel⟩,
   ⟨{ boot := { standby := true, phase := 8, act := { step := 2, shuttles := 2 } } }, by decide +kernel⟩,
   ⟨{ boot := { standby := true, phase := 8, act := { step := 2, shuttles := 3 } } }, by decide +kernel⟩,
   ⟨{ boot := { standby := true, phase := 8, act := { step := 3 }, fwOther := some (slotS true) } }, slotS true,
     by decide +kernel⟩,
   ⟨{ boot := { standby := true, phase := 8, act := { step := 2 } } }, .shuttle, by decide +kernel⟩⟩

theorem witness_RepairsInProgress :
    (∃ (s : State) (ci : ClusterId) (row : Fin 8) (pcol : Nat), s.flt.repairs = [.shift ci row.val pcol false]) ∧
    (∃ (s : State) (d : Fin 2) (r : TileTest) (pt : TileId), s.flt.repairs = [.relocate pt d false] ∧ r.t = darnTile
      d ∧ r.failed = [] ∧ r.othersOk = true ∧ (s.tiles[r.t.val]).powered = true) ∧
    (∃ (s : State) (d : Fin 2) (r : TileTest) (pt : TileId), s.flt.repairs = [.relocate pt d false] ∧ r.t = darnTile
      d ∧ r.othersOk = false ∧ ((pt, none) ∈ s.flt.cases ∨ ∀ x ∈ s.flt.cases, x.1 ≠ pt)) ∧
    (∃ (s : State), s.flt.repairs = []) ∧
    (∃ (s : State) (pt : TileId) (im : Image), s.flt.rereads = [pt] ∧ s.eng.image = some im) ∧
    (∃ (s : State) (pt : TileId), pt ∉ s.flt.rereads) ∧
    (∃ (s : State) (t : PhysTile) (pt : TileId) (x : PTile), s.tiles[t.val] = x ∧ servesOf s t = some pt ∧
      s.flt.repairs = [] ∧ tileUnserved s pt = false ∧ x.st ≠ .retired ∧ (x.fuse = .overload ∨ (x.fuse = .dieTemp ∨
      x.fuse = .memTemp) ∧ tileCool t x = true)) ∧
    (∃ (s : State) (t : PhysTile) (pt : TileId) (x : PTile), s.tiles[t.val] = x ∧ servesOf s t = some pt ∧
      s.flt.repairs = [] ∧ tileUnserved s pt = false ∧ x.st ≠ .retired ∧ (x.fuse = .overload ∨ (x.fuse = .dieTemp ∨
      x.fuse = .memTemp) ∧ tileCool t x = true)) ∧
    (∃ (s : State) (t : PhysTile), ((s.tiles[t.val]).fuse = .short ∨ (s.tiles[t.val]).fuse = .retired ∨
      (s.tiles[t.val]).fuse = .closed)) ∧
    (∃ (s : State) (d : Fin 2) (r : TileTest) (pt : TileId) (ci : ClusterId) (row : Nat) (cols : BitVec 9),
      s.flt.repairs = [.relocate pt d false] ∧ r.t = darnTile d ∧ r.othersOk = false ∧ r.failed = [] ∧ s.flt.cases =
      [(pt, some (ci, row, cols))] ∧ rowOf s ci row ≠ 14 ∧ s.flt.darn[(1 - d).val] ≠ 0) ∧
    (∃ (s : State) (t : PhysTile) (pt : TileId), servesOf s t = some pt ∧ (tilePending s pt = true ∨
      (s.tiles[t.val]).st = .retired)) :=
  ⟨⟨{ flt := { repairs := [.shift 0 1 2 false] } }, 0, 1, 2, by decide +kernel⟩,
   ⟨{ tiles := Vector.replicate 50 { powered := true }, flt := { repairs := [.relocate 3 0 false] } }, 0,
     ⟨48, [], true⟩, 3, by decide +kernel⟩,
   ⟨{ tiles := Vector.replicate 50 { powered := true }, flt := { repairs := [.relocate 3 0 false] } }, 0,
     ⟨48, [], false⟩, 3, rfl, rfl, rfl, .inr (fun _ h => nomatch h)⟩,
   ⟨{}, by decide +kernel⟩,
   ⟨{ flt := { rereads := [3] }, eng := { image := some image1 } }, 3, image1, by decide +kernel⟩,
   ⟨{}, 3, by decide +kernel⟩,
   ⟨{ tiles := Vector.replicate 50 { fuse := .overload } }, 0, 0, { fuse := .overload }, by decide +kernel⟩,
   ⟨{ tiles := Vector.replicate 50 { fuse := .memTemp } }, 0, 0, { fuse := .memTemp }, by decide +kernel⟩,
   ⟨{}, 0, by decide +kernel⟩,
   ⟨{ flt := { repairs := [.relocate 3 0 false], cases := [(3, some (48, 7, 3))], darn := Vector.replicate 2 3 } },
     0, ⟨48, [], false⟩, 3, 48, 7, 3, by decide +kernel⟩,
   ⟨{ tiles := Vector.replicate 50 { st := .retired } }, 0, 0, by decide +kernel⟩⟩

theorem witness_LossAndRecovery :
    (∃ (s : State), s.boot.standby = true ∧ 2 ≤ s.boot.phase) ∧
    (∃ (s : State) (x : Slot), s.boot.loupeDown = true ∧ s.boot.recovery = false ∧ s.boot.fwInForce = some x ∧ romOk
      s x = true ∧ s.boot.recordDue = false ∧ s.mgmt.eventQ = []) ∧
    (∃ (s : State), s.boot.loupeDown = true ∧ 5 ≤ s.boot.phase) ∧
    (∃ (s : State), s.boot.loupeDown = false) ∧
    (∃ (s : State), s.host.hostDie = true) ∧
    (∃ (s : State), s.host.hostDie = false) ∧
    (∃ (s : State) (lp : LayerPass), s.boot.standby = true ∧ s.boot.earlyBreak = false ∧ s.eng.lp = some lp ∧
      lp.started = true) ∧
    (∃ (s : State), (s.boot.standby = false ∨ s.boot.earlyBreak = true)) ∧
    (∃ (s : State), s.boot.earlyBreak = true) ∧
    (∃ (s : State) (ms : Nat), s.boot.leverOpen = true ∧ s.boot.standby = true ∧ s.boot.phase ≤ 4 ∧ 1000 ≤ ms) ∧
    (∃ (s : State) (ms : Nat) (seated : Bool), (s.boot.leverOpen = false ∨ 4 < s.boot.phase ∨ ms < 1000 ∨ seated =
      false)) ∧
    (∃ (s : State), s.boot.cart = none ∧ loupeUp s = false ∧ (s.boot.standby = false ∨ s.boot.phase ≠ 2 ∨
      s.boot.recovery = true ∨ s.boot.loupeDown = true)) ∧
    (∃ (s : State) (c : Cartridge), s.boot.cart = none ∧ loupeUp s = true ∧ recordOf c.rec0 = none ∧ s.flt.repairs =
      []) ∧
    (∃ (s : State) (d : Cartridge), s.boot.cart = some d) ∧
    (∃ (s : State) (x : Slot), s.boot.loupeDown = true ∧ s.boot.recovery = false ∧ s.boot.fwInForce = some x ∧ romOk
      s x = true ∧ s.boot.recordDue = true) ∧
    (∃ (s : State) (x y : Slot), s.boot.loupeDown = true ∧ s.boot.recovery = false ∧ s.boot.fwInForce = some x ∧
      romOk s x = false ∧ s.boot.fwOther = some y ∧ romOk s y = true) ∧
    (∃ (s : State), s.boot.loupeDown = true ∧ s.boot.recovery = false ∧ (∀ x, s.boot.fwInForce = some x ∨
      s.boot.fwOther = some x → romOk s x = false)) ∧
    (∃ (s : State) (ms : Nat), s.boot.leverOpen = true ∧ s.boot.standby = false ∧ s.boot.phase ≤ 4 ∧ 1000 ≤ ms) ∧
    (∃ (s : State), s.boot.cart = none ∧ s.boot.standby = true ∧ s.boot.phase = 2 ∧ s.boot.recovery = false ∧
      s.boot.loupeDown = false) :=
  ⟨⟨upS, by decide +kernel⟩,
   ⟨{ boot := { standby := true, phase := 8, loupeDown := true, fwInForce := some (slotS true) } }, slotS true,
     by decide +kernel⟩,
   ⟨{ boot := { standby := true, phase := 8, loupeDown := true } }, by decide +kernel⟩,
   ⟨upS, by decide +kernel⟩,
   ⟨upS, by decide +kernel⟩,
   ⟨{ host := { hostDie := false } }, by decide +kernel⟩,
   ⟨{ upS with eng := { lp := some { kind := .work, entry := 0, number := 0, started := true } } },
     { kind := .work, entry := 0, number := 0, started := true }, by decide +kernel⟩,
   ⟨{}, by decide +kernel⟩,
   ⟨{ boot := { standby := true, phase := 8, earlyBreak := true } }, by decide +kernel⟩,
   ⟨{ boot := { standby := true, phase := 4, leverOpen := true } }, 1000, by decide +kernel⟩,
   ⟨{ boot := { standby := true, phase := 4, leverOpen := true } }, 999, true, by decide +kernel⟩,
   ⟨{ boot := { cart := none } }, by decide +kernel⟩,
   ⟨{ boot := { standby := true, phase := 8, cart := none } }, cart0, by decide +kernel⟩,
   ⟨{}, cart0, by decide +kernel⟩,
   ⟨{ boot := { standby := true, phase := 8, loupeDown := true, recordDue := true, fwInForce := some (slotS true) } },
     slotS true, by decide +kernel⟩,
   ⟨{ boot := { standby := true, phase := 8, loupeDown := true, fwInForce := some (slotS false), fwOther := some (slotS true) } },
     slotS false, slotS true, by decide +kernel⟩,
   ⟨{ boot := { standby := true, phase := 8, loupeDown := true, fwInForce := none } }, rfl, rfl,
     (by rintro x (h | h) <;> cases h)⟩,
   ⟨{ boot := { phase := 4, leverOpen := true } }, 1000, by decide +kernel⟩,
   ⟨{ boot := { cart := none, standby := true, phase := 2 } }, by decide +kernel⟩⟩

theorem witness_SeatedOpenActsAsEarlyBreak :
    (∃ (s : State), s.boot.leverOpen = false ∧ s.boot.earlyBreak = false) :=
  ⟨upS, by decide +kernel⟩

theorem witness_PanelKeysAndClients :
    (∃ (s : State), loupeUp s = true ∧ s.mgmt.panelLock = false) ∧
    (∃ (s : State), s.mgmt.panelLock = true) ∧
    (∃ (s : State), loupeUp s = true ∧ s.mgmt.panelLock = false ∧ s.boot.eng = .full ∧ drainOn s = false) ∧
    (∃ (s : State), s.eng.drains.button = true) ∧
    (∃ (s : State), loupeUp s = true ∧ s.mgmt.panelLock = false ∧ drainOn s = true ∧ s.eng.drains.reached = true ∧ 5
      ≤ s.boot.phase ∧ s.boot.powerDown = 0) ∧
    (∃ (s : State), s.eng.drains.reached = false) ∧
    (∃ (s : State) (slot : BitVec 8) (pub : List Byte) (h : slot.toNat < 8), loupeUp s = true ∧ s.mgmt.presence =
      true ∧ s.mgmt.keyIds[slot.toNat] = [] ∧ pub.length = 96) ∧
    (∃ (s : State) (slot : BitVec 8), loupeUp s = true ∧ (8 ≤ slot.toNat ∨ s.mgmt.presence = false ∨
      s.mgmt.keyIds.toList.getD slot.toNat [] ≠ [])) ∧
    (∃ (s : State) (slot : BitVec 8), loupeUp s = true ∧ (8 ≤ slot.toNat ∨ s.mgmt.presence = false ∨
      s.mgmt.keyIds.toList.getD slot.toNat [] ≠ [])) ∧
    (∃ (s : State) (slot : BitVec 8), loupeUp s = true ∧ slot.toNat < 8 ∧ s.mgmt.keyIds.toList.getD slot.toNat [] ≠
      []) ∧
    (∃ (s : State) (slot : BitVec 8), loupeUp s = true ∧ 0xF0 ≤ slot.toNat ∧ slot.toNat < 0xF4) ∧
    (∃ (s : State) (v : Nat), loupeUp s = true ∧ s.mgmt.ctrObject ≤ v ∧ v ≤ 128) ∧
    (∃ (s : State) (v : Nat), loupeUp s = true ∧ (v < s.mgmt.ctrObject ∨ 128 < v)) ∧
    (∃ (s : State) (time : Patch Nat), loupeUp s = true ∧ (time.ifMatch = none ∨ time.ifMatch = some
      s.mgmt.tagManager)) ∧
    (∃ (s : State) (time : Patch Nat), loupeUp s = true ∧ (time.ifMatch = none ∨ time.ifMatch = some
      s.mgmt.tagManager)) ∧
    (∃ (s : State) (time : Patch Nat), loupeUp s = true ∧ time.ifMatch ≠ none ∧ time.ifMatch ≠ some
      s.mgmt.tagManager) ∧
    (∃ (s : State) (c : Client), loupeUp s = true ∧ c.asks = []) ∧
    (∃ (s : State) (c : Client), loupeUp s = true ∧ (s.mgmt.links.getLsbD c.port.val = false ∨ c.service ≠ .redfish
      ∨ c.tls13 = false ∨ c.chain = [] ∨ ∃ x ∈ c.chain, x.id ∈ s.mgmt.crl ∨ x.signatureOk = false ∨ certValid s x =
      false)) ∧
    (∃ (s : State) (c : Client), loupeUp s = true ∧ (s.mgmt.links.getLsbD c.port.val = false ∨ c.service ≠ .redfish
      ∨ c.tls13 = false ∨ c.chain = [] ∨ ∃ x ∈ c.chain, x.id ∈ s.mgmt.crl ∨ x.signatureOk = false ∨ certValid s x =
      false)) ∧
    (∃ (s : State) (c : Client) (r : Resource), loupeUp s = true ∧ offerOk s c = true ∧ chainOk s c.chain = true ∧ r
      ≠ .logService) ∧
    (∃ (s : State) (sub : Nat), loupeUp s = true ∧ (∀ x ∈ s.mgmt.subs, x.id ≠ sub)) ∧
    (∃ (s : State) (sub : Nat), loupeUp s = true ∧ ∃ x ∈ s.mgmt.subs, x.id = sub) ∧
    (∃ (s : State) (p : PushOf) (x : Sub) (e : Event) (n tries : Nat), loupeUp s = true ∧ (s.mgmt.subs.find? fun y
      => y.id == p.sub) = some x ∧ s.mgmt.log[p.back]? = some e ∧ n = s.mgmt.events - 1 - p.back ∧ (x.failed = [] ∧
      tries = 0 ∨ x.failed = [(n, e, tries)]) ∧ tries < 3) ∧
    (∃ (s : State) (p : PushOf) (x : Sub) (e : Event) (n tries : Nat), loupeUp s = true ∧ (s.mgmt.subs.find? fun y
      => y.id == p.sub) = some x ∧ s.mgmt.log[p.back]? = some e ∧ n = s.mgmt.events - 1 - p.back ∧ (x.failed = [] ∧
      tries = 0 ∨ x.failed = [(n, e, tries)]) ∧ tries < 3) ∧
    (∃ (s : State) (p : PushOf) (x : Sub) (e : Event), loupeUp s = true ∧ (s.mgmt.subs.find? fun y => y.id == p.sub)
      = some x ∧ s.mgmt.log[p.back]? = some e ∧ x.failed = [(s.mgmt.events - 1 - p.back, e, 3)]) :=
  ⟨⟨upS, by decide +kernel⟩,
   ⟨{ upS with mgmt := { panelLock := true } }, by decide +kernel⟩,
   ⟨{ boot := { standby := true, phase := 8, eng := .full } }, by decide +kernel⟩,
   ⟨{ eng := { drains := { button := true } } }, by decide +kernel⟩,
   ⟨{ upS with eng := { drains := { button := true, reached := true } } }, by decide +kernel⟩,
   ⟨upS, by decide +kernel⟩,
   ⟨{ upS with mgmt := { presence := true } }, 7, bytesN 96, by decide, by decide +kernel⟩,
   ⟨{ upS with mgmt := { presence := true } }, 8, by decide +kernel⟩,
   ⟨{ upS with mgmt := { presence := true, keyIds := (Vector.replicate 8 []).set 2 [1] } }, 2, by decide +kernel⟩,
   ⟨{ upS with mgmt := { keyIds := (Vector.replicate 8 []).set 2 [1] } }, 2, by decide +kernel⟩,
   ⟨upS, 0xF3, by decide +kernel⟩,
   ⟨upS, 128, by decide +kernel⟩,
   ⟨upS, 129, by decide +kernel⟩,
   ⟨upS, ⟨5, none⟩, by decide +kernel⟩,
   ⟨upS, ⟨5, some 0⟩, by decide +kernel⟩,
   ⟨upS, ⟨5, some 1⟩, by decide +kernel⟩,
   ⟨upS, client0, by decide +kernel⟩,
   ⟨upS, client0, by decide +kernel, .inl rfl⟩,
   ⟨{ upS with mgmt := { links := 3, crl := [7] } }, { client0 with chain := [cert0] }, by decide +kernel,
     .inr (.inr (.inr (.inr ⟨cert0, .head _, .inl (.head _)⟩)))⟩,
   ⟨{ upS with mgmt := { links := 3, cas := [cert0] } },
     { client0 with chain := [cert0], asks := [.read .manager] }, .manager, by decide +kernel⟩,
   ⟨upS, 5, by decide +kernel⟩,
   ⟨{ upS with mgmt := { subs := [⟨5, []⟩] } }, 5, by decide +kernel⟩,
   ⟨{ upS with mgmt := { subs := [⟨5, []⟩], log := [.code 7], events := 1 } }, ⟨5, 0⟩, ⟨5, []⟩, .code 7, 0, 0,
     by decide +kernel⟩,
   ⟨{ upS with mgmt := { subs := [⟨5, [(0, .code 7, 2)]⟩], log := [.code 7], events := 1 } }, ⟨5, 0⟩,
     ⟨5, [(0, .code 7, 2)]⟩, .code 7, 0, 2, by decide +kernel⟩,
   ⟨{ upS with mgmt := { subs := [⟨5, [(0, .code 7, 3)]⟩], log := [.code 7], events := 1 } }, ⟨5, 0⟩,
     ⟨5, [(0, .code 7, 3)]⟩, .code 7, by decide +kernel⟩⟩

theorem witness_StepKeepsBounds : ∃ s t : State, s.pending ≠ [] ∧ Bounds s ∧ step s = .next t :=
  ⟨{ pending := [.fanFailure 0] }, _, by decide,
    ⟨(by rintro v (h | h) <;> cases h), (fun _ h => nomatch h), by decide, by decide, by decide, by decide,
      (fun _ => Nat.zero_le 6), Nat.zero_le _, by decide, by decide, by decide, by decide, by decide, by decide,
      (by intro x h; cases h; decide), (fun _ h => nomatch h)⟩, rfl⟩

theorem witness_StepKeepsMemoryForm : ∃ s t : State, s.pending ≠ [] ∧ MemoryForm s ∧ step s = .next t :=
  ⟨{ pending := [.fanFailure 0] }, _, by decide, (fun _ => rfl), rfl⟩

theorem witness_StepNeverLowersOtp : ∃ s t : State, s.pending ≠ [] ∧ step s = .next t :=
  ⟨{ pending := [.fanFailure 0] }, _, by decide, rfl⟩

end Sys2Proof.Tests
end

section

namespace Sys2Proof.Machine

open Sys2Proof

/-! Accesses that registers do not take (R9). -/

/-- Registers take the aligned accesses of 32 and 64 bits, and no others. -/
theorem accessOk_iff {off size : Nat} : accessOk off size = true ↔ (size = 4 ∨ size = 8) ∧ off % size = 0 := by
  simp [accessOk]

theorem accessOk_eq_false_of_odd {off size : Nat} (h : size ≠ 4 ∧ size ≠ 8 ∨ off % size ≠ 0) :
    accessOk off size = false := by
  rw [Bool.eq_false_iff, ne_eq, accessOk_iff]
  rintro ⟨hsize, haligned⟩
  rcases h with ⟨h4, h8⟩ | hmisaligned
  · exact hsize.elim h4 h8
  · exact hmisaligned haligned

/-- An access that registers do not take is answered, and that is all it does. -/
theorem execUnsupportedAccess_of_not_accessOk {off : BitVec 26} {size : Nat} {s : State} (w : Bool)
    (hup : hostUp s = true) (hodd : accessOk off.toNat size = false) :
    execUnsupportedAccess off size w s = .next (s.emit .unsupported) := by
  simp [execUnsupportedAccess, hup, hodd]

/-- Settles O45: R9 takes no access of an odd size or alignment, so the command only answers Unsupported Request. -/
theorem oddAccessesRefused : Obligations.OddAccessesRefused := by
  intro off size w s hup hodd
  rw [exec_unsupportedAccess, execUnsupportedAccess_of_not_accessOk w hup (accessOk_eq_false_of_odd hodd), State.emit]

end Sys2Proof.Machine

end

section

namespace Sys2Proof.Machine

open Sys2Proof

/-! ### What a sled pull cannot undo (R492)

A sled pull sets the early-break mark, winds the module down with operations of every unit, and reports RAMP_EXCEEDED
to the rack. Each of these operations keeps the mark and takes back no output: `Extends` says so, with one lemma per
operation. -/

/-- `t` comes from `s` by work that leaves the early-break mark and only adds outputs. -/
structure Extends (s t : State) : Prop where
  earlyBreak : t.boot.earlyBreak = s.boot.earlyBreak
  out : s.out <:+ t.out

theorem Extends.refl (s : State) : Extends s s := ⟨rfl, List.suffix_rfl⟩

section

variable {s₀ s t : State}

/-- An update of other fields: both sides read the same mark and the same outputs. -/
theorem Extends.update (h : Extends s₀ s) (hb : t.boot.earlyBreak = s.boot.earlyBreak)
    (ho : t.out = s.out) : Extends s₀ t :=
  ⟨hb.trans h.earlyBreak, ho ▸ h.out⟩

/-- An update that puts outputs before those there are. -/
theorem Extends.output {os : List Out} (h : Extends s₀ s) (hb : t.boot.earlyBreak = s.boot.earlyBreak)
    (ho : t.out = os ++ s.out) : Extends s₀ t :=
  ⟨hb.trans h.earlyBreak, ho ▸ h.out.trans (List.suffix_append _ _)⟩

theorem Extends.ite {c : Prop} [Decidable c] (hs : Extends s₀ s) (ht : Extends s₀ t) :
    Extends s₀ (if c then s else t) := by
  split
  · exact hs
  · exact ht

theorem Extends.foldl {α : Type} {f : State → α → State} {l : List α} (h : Extends s₀ s)
    (hf : ∀ {t : State} (a : α), Extends s₀ t → Extends s₀ (f t a)) : Extends s₀ (l.foldl f s) := by
  induction l generalizing s with
  | nil => exact h
  | cons a l ih => exact ih (hf a h)

end

section

variable {s₀ s : State} {p : PortId} {d : DieId} {ci : ClusterId} {pt : TileId} {q : QueueId} {m : MbxId} {id n : Nat}
  {k : Inst} {code : BitVec 16} {f : Frame}
variable (h : Extends s₀ s)
include h

/-! #### Fields, outputs and events -/

theorem emit_extends {o : Out} : Extends s₀ (s.emit o) := h.output (os := [o]) rfl rfl

theorem setPort_extends {x : Port} : Extends s₀ (s.setPort p x) := h.update rfl rfl

theorem setDie_extends {x : Die} : Extends s₀ (s.setDie d x) := h.update rfl rfl

theorem setCluster_extends {x : Cluster} : Extends s₀ (s.setCluster ci x) := h.update rfl rfl

theorem setQueue_extends {x : Queue} : Extends s₀ (s.setQueue q x) := h.update rfl rfl

theorem setMbx_extends {x : Mbx} : Extends s₀ (s.setMbx m x) := h.update rfl rfl

theorem setLp_extends {x : Option LayerPass} : Extends s₀ (s.setLp x) := h.update rfl rfl

theorem took_extends : Extends s₀ (s.took n) := h.update rfl rfl

theorem send_extends {src dst : TatNode} {x : BitVec 96} {site : Site} : Extends s₀ (s.send src dst x site) :=
  h.update rfl rfl

theorem hostWrite_extends {bs : List Byte} : Extends s₀ (s.hostWrite n bs) := .ite (emit_extends h) h

theorem msix_extends : Extends s₀ (msix n s) := .ite (.ite (h.update rfl rfl) (emit_extends h)) h

theorem logCode_extends : Extends s₀ (logCode code s) := h.output rfl rfl

/-! #### Aborts by tatting, and frames on their way out -/

theorem abortFrom_extends {x : TatNode} {site : Site} : Extends s₀ (abortFrom x code site s) := send_extends h

theorem endPassBy_extends : Extends s₀ (endPassBy code s) := h.update rfl rfl

theorem notePassEnd_extends : Extends s₀ (notePassEnd code s) := .ite h (endPassBy_extends h)

theorem shuttleAbort_extends : Extends s₀ (shuttleAbort code s) := abortFrom_extends (notePassEnd_extends h)

theorem dieAbort_extends : Extends s₀ (dieAbort d code s) := abortFrom_extends h

theorem queueFrame_extends : Extends s₀ (queueFrame p f s) := setPort_extends h

theorem sendOn_extends {ps : List PortId} : Extends s₀ (sendOn d ps f s) := by
  unfold sendOn
  split
  · exact h
  · exact queueFrame_extends (setDie_extends h)

theorem sendSwitch_extends : Extends s₀ (sendSwitch d f s) := sendOn_extends h

theorem sendRoot_extends {x : BitVec 512} : Extends s₀ (sendRoot n x s) := by
  unfold sendRoot
  split
  · exact h
  · exact sendSwitch_extends h

theorem sendVc3_extends {route : DieId → Word} {bs : List Byte} : Extends s₀ (sendVc3 d route bs s) := by
  unfold sendVc3
  split
  · exact h
  · exact sendSwitch_extends h

/-! #### Memory and the objects of tatting -/

theorem losePages_extends {fuel a : Nat} : Extends s₀ (losePages fuel a n s) := by
  induction fuel generalizing a n s with
  | zero => exact h
  | succ fuel ih => exact .ite h (ih (setCluster_extends h))

theorem loseWindow_extends {a : Nat} : Extends s₀ (loseWindow a n s) := losePages_extends h

theorem regionWrite_extends {r off : Nat} {bs : List Byte} :
    Extends s₀ (regionWrite ci r off bs s) := setCluster_extends h

theorem sendWake_extends {w : Waiter} : Extends s₀ (sendWake id w s) := send_extends h

theorem objPut_extends {o : SyncObj} : Extends s₀ (objPut id o s) := by
  unfold objPut
  split
  · exact setCluster_extends h
  · exact h.update rfl rfl

theorem objChange_extends {o : SyncObj} : Extends s₀ (objChange id o s) :=
  .ite ((objPut_extends h).foldl fun _ h => sendWake_extends h) (objPut_extends h)

theorem objAdd_extends {v : Word} : Extends s₀ (objAdd id v s) := objChange_extends h

/-! #### Mailboxes and the completions of queues -/

theorem ringBell_extends : Extends s₀ (ringBell n s) := .ite (msix_extends (h.update rfl rfl)) (h.update rfl rfl)

theorem mbxPut_extends {v : Word} : Extends s₀ (mbxPut m v s) := ringBell_extends (setMbx_extends h)

theorem mbxSend_extends {v : Word} : Extends s₀ (mbxSend m v s) := .ite h (mbxPut_extends h)

theorem takeWord_extends : Extends s₀ (takeWord m code s) := .ite h (ringBell_extends (setMbx_extends h))

theorem queueSettle_extends : Extends s₀ (queueSettle q s) := by
  unfold queueSettle
  refine .ite ?_ h
  extract_lets s1 s2
  have h1 : Extends s₀ s1 := setQueue_extends h
  have h2 : Extends s₀ s2 := .ite (mbxSend_extends h1) h1
  split
  · exact takeWord_extends (h2.update rfl rfl)
  · exact h2

theorem completeOne_extends {e : Fetched} : Extends s₀ (completeOne q e code s) := by
  unfold completeOne
  extract_lets s1 x s2 s3 v s4
  have h1 : Extends s₀ s1 := .ite (hostWrite_extends h) h
  have h2 : Extends s₀ s2 := setQueue_extends (h1.update (by rfl) (by rfl))
  have h3 : Extends s₀ s3 := .ite (objAdd_extends h2) h2
  have h4 : Extends s₀ s4 := .ite (msix_extends h3) h3
  exact queueSettle_extends h4

theorem settleWaits_extends : Extends s₀ (settleWaits n s) := by
  induction n generalizing s with
  | zero => exact h
  | succ n ih =>
    unfold settleWaits
    split
    · exact h
    · exact ih (completeOne_extends h)

theorem afterRoot_extends : Extends s₀ (afterRoot s) := settleWaits_extends h

theorem completeAt_extends : Extends s₀ (completeAt q n code s) := by
  unfold completeAt
  split
  · exact afterRoot_extends (completeOne_extends h)
  · exact h

/-! #### Collectives and their chunks -/

theorem collCtl_extends {ty cls status value dst : Nat} : Extends s₀ (collCtl k ty cls status value dst s) :=
  sendRoot_extends h

theorem collAll_extends {ty cls status : Nat} : Extends s₀ (collAll k ty cls status s) :=
  h.foldl fun _ h => .ite h (collCtl_extends h)

theorem collErr_extends {cls : Nat} : Extends s₀ (collErr k cls code s) := .ite h (h.update rfl rfl)

theorem putInst_extends : Extends s₀ (putInst k s) := h.update rfl rfl

theorem loseDst_extends : Extends s₀ (loseDst k s) := .ite (loseWindow_extends h) h

theorem queueEnds_extends : Extends s₀ (queueEnds k code s) := by
  unfold queueEnds
  extract_lets s0 s1 c s2
  have h0 : Extends s₀ s0 := putInst_extends h
  have h1 : Extends s₀ s1 := .ite h0 (loseDst_extends h0)
  have h2 : Extends s₀ s2 := .ite (h1.update rfl rfl) h1
  split
  · exact completeAt_extends h2
  · exact h2

theorem injectMessage_extends {flow win off syncId syncInc : Nat} {chunk : Option (BitVec 32)} {sig : Bool}
    {pay : List Byte} : Extends s₀ (injectMessage d flow chunk win sig off pay syncId syncInc s) := setDie_extends h

theorem takeResult_extends {o : CollOp} {block off : Nat} {data : List Byte} :
    Extends s₀ (takeResult k o block off data s) := by
  unfold takeResult
  split
  · exact h
  · refine .ite (putInst_extends h) ?_
    extract_lets g s1
    have h1 : Extends s₀ s1 := putInst_extends h
    split
    · exact h1
    · exact injectMessage_extends h1

theorem sendColl_extends {o : CollOp} {e : DieId} {c : CollChunk} : Extends s₀ (sendColl k o d e n c s) :=
  sendSwitch_extends h

theorem passSum_extends {o : CollOp} {b off : Nat} : Extends s₀ (passSum k o b off s) := by
  unfold passSum
  split
  · exact h
  · exact .ite (.ite (takeResult_extends h) (sendColl_extends h)) (sendColl_extends h)

theorem passChunk_extends {o : CollOp} {c : CollChunk} : Extends s₀ (passChunk k o c s) :=
  .ite (takeResult_extends (h.foldl fun _ h => sendColl_extends h))
    (takeResult_extends (h.foldl fun _ h => sendColl_extends h))

theorem takeChunk_extends {i : CollId} {c : CollChunk} : Extends s₀ (takeChunk i c s) := by
  unfold takeChunk
  split
  · exact h
  split
  · exact h
  refine .ite h ?_
  extract_lets k1 s1
  have h1 : Extends s₀ s1 := putInst_extends h
  refine .ite (.ite (takeResult_extends h1) (h1.foldl fun _ h => passSum_extends h)) (.ite h1 (h1.foldl fun _ h => ?_))
  split
  · exact passChunk_extends h
  · exact h

theorem nextAttempt_extends : Extends s₀ (nextAttempt k s) := by
  unfold nextAttempt
  extract_lets barrier k1 s1
  have h1 : Extends s₀ s1 := (putInst_extends h).foldl fun _ h => takeChunk_extends h
  have h2 : Extends s₀ (collCtl k1 2 0 0 k1.digest.toNat 0 s1) := collCtl_extends h1
  exact .ite h1 (.ite (collCtl_extends h2) h2)

/-! #### Errors of sites and repairs -/

theorem endTasks_extends {committed : Bool} : Extends s₀ (endTasks committed s) := h.update rfl rfl

theorem fltErr_extends : Extends s₀ (fltErr code n s) := .ite h (h.update rfl rfl)

theorem noteCase_extends {row : Option (ClusterId × Nat × BitVec 9)} : Extends s₀ (noteCase pt row s) :=
  .ite h (h.update rfl rfl)

/-- The record of repairs goes to the cartridge, which stands in `boot` beside the mark. -/
theorem writeRecord_extends : Extends s₀ (writeRecord s) := by
  unfold writeRecord
  extract_lets _ s1 r
  have h1 : Extends s₀ s1 := h.update rfl rfl
  split
  · exact h1
  · exact h1.update rfl rfl

theorem addRepair_extends {r : Repair} : Extends s₀ (addRepair r s) := h.update rfl rfl

theorem takeDarn_extends {e : Fin 2} : Extends s₀ (takeDarn e s) := h.update rfl rfl

theorem beginDarn_extends {e : Fin 2} : Extends s₀ (beginDarn pt e s) :=
  writeRecord_extends (addRepair_extends (takeDarn_extends h))

theorem swapDarn_extends {pt' : TileId} {tested : Bool} : Extends s₀ (swapDarn pt pt' tested s) :=
  beginDarn_extends (h.update (by rfl) (by rfl))

/-- The darning tile that is found, or what is done where there is none. -/
theorem seekDarn_getD_extends {t : State} (ht : Extends s₀ t) : Extends s₀ ((seekDarn pt s).getD t) := by
  unfold seekDarn
  split
  · exact swapDarn_extends h
  · cases darnFor s pt with
    | none => exact ht
    | some e => exact beginDarn_extends h

theorem loseRow_extends {cols : BitVec 9} : Extends s₀ (loseRow ci n cols s) := .ite h (addRepair_extends h)

theorem rowAgain_extends {cols : BitVec 9} : Extends s₀ (rowAgain ci n cols s) := by
  have h1 := noteCase_extends h (pt := tileOfCi ci) (row := some (ci, n, cols))
  exact .ite h1 (seekDarn_getD_extends h1 (loseRow_extends h1))

theorem condemnCore_extends {c : CoreId} : Extends s₀ (condemnCore c s) := by
  unfold condemnCore
  extract_lets ci row col mine
  split
  · exact .ite h (rowAgain_extends (h.update (by rfl) (by rfl)))
  · exact .ite (rowAgain_extends h) (addRepair_extends h)

theorem relocateTile_extends : Extends s₀ (relocateTile pt s) := by
  have h1 := noteCase_extends h (pt := pt) (row := none)
  exact .ite h (.ite h1 (seekDarn_getD_extends h1 (addRepair_extends h1)))

theorem condemnEdge_extends : Extends s₀ (condemnEdge d n s) := .ite h (addRepair_extends h)

theorem condemn_extends {site : Site} : Extends s₀ (condemn site s) := by
  cases site with
  | core c => exact condemnCore_extends h
  | slice ci _ _ => exact relocateTile_extends h
  | bridge c _ => exact relocateTile_extends h
  | edge d link => exact condemnEdge_extends h
  | none => exact h
  | link c inp =>
    unfold condemn
    refine .ite (condemnCore_extends h) ?_
    split
    · exact condemnCore_extends h
    · exact condemnEdge_extends h
    · exact .ite (relocateTile_extends h)
        (.ite (condemnCore_extends h) (.ite (condemnCore_extends h) (relocateTile_extends h)))
  | tatLink x =>
    cases x with
    | core c => exact condemnCore_extends h
    | router c => exact condemnCore_extends h
    | cluster ci => exact relocateTile_extends h
    | tile pt => exact relocateTile_extends h
    | _ => exact h

theorem siteError_extends {site prev : Site} {ident : BitVec 32} {ended : Bool} :
    Extends s₀ (siteError site prev ident code ended s) := by
  unfold siteError
  extract_lets s1 key _ s2 passes
  have h1 : Extends s₀ s1 := fltErr_extends h
  have h2 : Extends s₀ s2 := h1.update rfl rfl
  exact .ite (condemn_extends h2) h2

theorem condemnRewritten_extends {lp : LayerPass} : Extends s₀ (condemnRewritten lp s) :=
  h.foldl fun _ h => .ite (condemn_extends h) h

theorem noteLimit_extends : Extends s₀ (noteLimit s) := h.update rfl rfl

/-! #### Weights: loads, epochs and refetches -/

theorem dropChunks_extends {adapter : Bool} : Extends s₀ (dropChunks adapter code s) := h.update rfl rfl

theorem emptySlots_extends : Extends s₀ (emptySlots code s) := h.update rfl rfl

theorem loseSlot_extends {held : Option Nat} : Extends s₀ (loseSlot held s) := by
  unfold loseSlot
  split
  · exact h
  · exact h.foldl fun _ h => .ite h (setCluster_extends h)

theorem endLoad_extends : Extends s₀ (endLoad code s) := by
  unfold endLoad
  split
  · exact h
  · extract_lets s1 s2 mine
    have h1 : Extends s₀ s1 := dropChunks_extends h
    have h2 : Extends s₀ s2 := .ite (emptySlots_extends h1) (.ite (loseSlot_extends h1) h1)
    exact completeAt_extends (h2.update rfl rfl)

theorem wiErr_extends {i : BitVec 32} : Extends s₀ (wiErr d code i s) := .ite h (h.update rfl rfl)

theorem endParked_extends : Extends s₀ (endParked code s) := .ite h (endPassBy_extends h)

theorem releaseEpoch_extends {e : Epoch} : Extends s₀ (releaseEpoch e s) :=
  loseSlot_extends (h.update (by rfl) (by rfl))

theorem refetchFails_extends {adapter : Bool} {number : BitVec 16} {i : BitVec 32} :
    Extends s₀ (refetchFails d adapter number code i s) := by
  have h2 := endParked_extends (wiErr_extends h (d := d) (code := code) (i := i)) (code := code)
  refine .ite (h2.update rfl rfl) ?_
  split
  · exact releaseEpoch_extends h2
  · exact h2

theorem endSlice_extends {lp : LayerPass} : Extends s₀ (endSlice lp code s) := by
  unfold endSlice
  split
  · exact h
  · exact .ite (endLoad_extends h) (refetchFails_extends h)

theorem dropStreamed_extends : Extends s₀ (dropStreamed code s) := h.update rfl rfl

theorem addRefetch_extends {adapter : Bool} : Extends s₀ (addRefetch code adapter n s) := .ite h (h.update rfl rfl)

theorem stopSlice_extends : Extends s₀ (stopSlice code s) := shuttleAbort_extends (setLp_extends h)

theorem weightEnds_extends {adapter part : Bool} {number : BitVec 16} {i : BitVec 32} :
    Extends s₀ (weightEnds d adapter number i part code s) := by
  have h1 := wiErr_extends h (d := d) (code := code) (i := i)
  have hstop {c : Prop} [Decidable c] : Extends s₀ (if c then stopSlice code s else s) := .ite (stopSlice_extends h) h
  exact .ite (.ite (endLoad_extends (wiErr_extends hstop)) (refetchFails_extends hstop))
    (.ite (dieAbort_extends h1) (shuttleAbort_extends h1))

theorem sendRequest_extends {r : ChunkReq} {retry : Bool} : Extends s₀ (sendRequest d r retry s) :=
  .ite (.ite (weightEnds_extends h) (setDie_extends h)) (sendSwitch_extends (setDie_extends h))

theorem newRequest_extends {adapter part : Bool} {number shard : BitVec 16} {i : BitVec 32} {object : BitVec 64}
    {mask : Option (BitVec 16)} : Extends s₀ (newRequest d adapter number i part shard object mask n s) :=
  sendRequest_extends (setDie_extends h)

theorem requestAll_extends {l : List (Bool × BitVec 16 × BitVec 32 × Option (BitVec 16))} :
    Extends s₀ (requestAll d l s) := by
  induction l generalizing s with
  | nil => exact h
  | cons _ _ ih =>
    unfold requestAll
    refine .ite (ih h) ?_
    split
    · exact ih h
    · exact .ite (ih (newRequest_extends h)) h

theorem fetchMore_extends : Extends s₀ (fetchMore d s) := by
  unfold fetchMore
  refine .ite (requestAll_extends h) ?_
  split
  · exact weightEnds_extends h
  · exact h

theorem fetchAll_extends : Extends s₀ (fetchAll s) := h.foldl fun _ h => fetchMore_extends h

/-! #### The end of a pass and of its step -/

theorem completeRun_extends {x : Pass} {sect : List Byte} : Extends s₀ (completeRun x code sect s) :=
  completeAt_extends (took_extends (hostWrite_extends h))

theorem setStep_extends {r : RedStep} : Extends s₀ (setStep r s) := h.update rfl rfl

theorem finishStep_extends {step : BitVec 32} : Extends s₀ (finishStep step s) := by
  unfold finishStep
  split
  · exact h
  split
  · exact completeRun_extends (h.update (by rfl) (by rfl))
  · exact h

theorem checkStep_extends {step : BitVec 32} : Extends s₀ (checkStep step s) := by
  unfold checkStep
  split
  · exact h
  · exact .ite (finishStep_extends (setStep_extends h)) (finishStep_extends h)

theorem redErr_extends {step : BitVec 32} : Extends s₀ (redErr d code step s) := .ite h (h.update rfl rfl)

theorem abortReq_extends {r : RedStep} {x : Option Sketch} : Extends s₀ (abortReq d r x code s) :=
  .ite (redErr_extends h) (sendVc3_extends (redErr_extends h))

theorem passEndsStep_extends {x : Pass} : Extends s₀ (passEndsStep x code s) := by
  unfold passEndsStep
  split
  · exact completeRun_extends h
  · extract_lets t1 s1
    have h1 : Extends s₀ s1 := setStep_extends h
    exact .ite (checkStep_extends h1) (abortReq_extends h1)

theorem endPass_extends : Extends s₀ (endPass code s) := by
  unfold endPass
  split
  · exact h
  · extract_lets e s0 s1
    have h0 : Extends s₀ s0 := dropStreamed_extends h
    have h1 : Extends s₀ s1 := h0.update rfl rfl
    exact .ite (passEndsStep_extends h1) (completeRun_extends h1)

theorem endWork_extends : Extends s₀ (endWork code s) := by
  unfold endWork
  split
  · exact h
  have h1 := setLp_extends h (x := none)
  split
  · exact endSlice_extends h1
  · exact h1
  · exact endPass_extends h1

/-! #### A layer pass that runs again, and how a bound collective ends it -/

theorem mendUnit_extends {u : ClusterId × Nat × Nat} : Extends s₀ (mendUnit u s) := by
  unfold mendUnit
  extract_lets ci region off _ s1 s2
  have h1 : Extends s₀ s1 := .ite h (h.update rfl rfl)
  have h2 : Extends s₀ s2 := regionWrite_extends h1
  refine .ite (h2.update rfl rfl) (.ite ?_ ?_)
  · split
    · exact addRefetch_extends h1
    · exact h1
  · split
    · split
      · exact addRefetch_extends h1
      · exact h1
    · exact h1

theorem rerunLp_extends : Extends s₀ (rerunLp s) := by
  unfold rerunLp
  split
  · exact h
  · exact h.update rfl rfl

theorem parkLp_extends : Extends s₀ (parkLp s) := .ite h (fetchAll_extends (h.update rfl rfl))

theorem rerunMended_extends {us : List (ClusterId × Nat × Nat)} : Extends s₀ (rerunMended us s) := by
  have h1 : Extends s₀ (rerunLp (us.foldl (fun s u => mendUnit u s) s)) :=
    rerunLp_extends (h.foldl fun _ h => mendUnit_extends h)
  exact .ite h1 (parkLp_extends h1)

theorem closeBound_extends : Extends s₀ (closeBound s) := by
  unfold closeBound
  split
  · exact h
  split
  · exact h
  next lp _ _ out _ =>
  extract_lets s0 blame
  have h0 : Extends s₀ s0 := endTasks_extends h
  have hblame : Extends s₀ (blame s0) := by
    unfold blame
    split
    · exact siteError_extends h0
    · split
      · exact h0.update rfl rfl
      · exact .ite (siteError_extends h0) h0
  have hrewritten : Extends s₀ (condemnRewritten lp (blame s0)) := condemnRewritten_extends hblame
  split
  · exact endWork_extends (.ite (noteLimit_extends hrewritten) h0)
  · exact rerunMended_extends hrewritten

theorem abortDown_extends : Extends s₀ (abortDown code s) :=
  (h.foldl fun _ h => send_extends h).foldl fun _ h => send_extends h

theorem abortIngress_extends : Extends s₀ (abortIngress s) := h.update rfl rfl

theorem openAbort_extends : Extends s₀ (openAbort code s) := by
  unfold openAbort
  split
  · exact h
  · exact abortDown_extends (abortIngress_extends (setLp_extends (h.update (by rfl) (by rfl))))

/-! #### Members and leaders of collectives (R361) -/

theorem memberDispose_extends {out : Option (BitVec 16)} : Extends s₀ (memberDispose k out s) := by
  unfold memberDispose
  refine .ite h (.ite ?_ ?_)
  · split
    · exact queueEnds_extends (collErr_extends h)
    · exact nextAttempt_extends h
  · extract_lets s1 c s2
    have h1 : Extends s₀ s1 := putInst_extends h
    have h2 : Extends s₀ s2 := by
      unfold s2
      split
      · exact collErr_extends (.ite (h1.update (by rfl) (by rfl)) h1)
      · exact h1
    refine .ite h2 ?_
    split
    · exact h2
    · exact .ite (closeBound_extends (setLp_extends h2))
        (.ite (setLp_extends h2) (openAbort_extends (setLp_extends h2)))

theorem leaderEnd_extends {out : Option (BitVec 16)} : Extends s₀ (leaderEnd k out s) := by
  unfold leaderEnd
  extract_lets s1 s2
  have h2 : Extends s₀ s2 := collAll_extends (putInst_extends h)
  split
  · exact memberDispose_extends h2
  · exact h2

theorem leaderDispose_extends : Extends s₀ (leaderDispose k s) := leaderEnd_extends h

theorem leaderAck_extends : Extends s₀ (leaderAck k n s) :=
  .ite h (.ite (leaderDispose_extends (putInst_extends h)) (putInst_extends h))

theorem memberAbort_extends : Extends s₀ (memberAbort k code n s) := by
  unfold memberAbort
  extract_lets s0 k1 s1
  have h0 : Extends s₀ s0 := collErr_extends h
  refine .ite h0 (.ite ?_ ?_)
  · exact .ite (leaderAck_extends (putInst_extends h0)) (collCtl_extends (putInst_extends h0))
  · have h1 : Extends s₀ s1 := putInst_extends h0
    split
    · exact .ite (openAbort_extends (setLp_extends h1)) h1
    · exact h1

theorem takeAlready_extends : Extends s₀ (takeAlready k s) := collErr_extends (h.update (by rfl) (by rfl))

theorem leaderAbort_extends : Extends s₀ (leaderAbort k code n s) := by
  unfold leaderAbort
  extract_lets note
  split
  · exact memberAbort_extends (collAll_extends (collErr_extends (putInst_extends h)))
  · exact putInst_extends h
  · exact takeAlready_extends (collAll_extends h)
  · exact h

theorem raiseInst_extends {i : CollId} : Extends s₀ (raiseInst i code n s) := by
  unfold raiseInst
  split
  · exact h
  · exact .ite h (.ite (leaderAbort_extends h) (collCtl_extends h))

theorem leaveInsts_extends : Extends s₀ (leaveInsts s) := by
  refine h.foldl fun x h => ?_
  split
  · exact h
  refine .ite h (.ite (raiseInst_extends h) ?_)
  extract_lets s1
  have h1 : Extends s₀ s1 := .ite (collAll_extends h) (leaderAbort_extends h)
  split
  · exact .ite (leaderEnd_extends h1) h1
  · exact h1

/-! #### Ports, and the frames that a dark port loses -/

theorem goRetrain_extends {wide : Bool} : Extends s₀ (goRetrain p wide s) := setPort_extends h

theorem widenNext_extends : Extends s₀ (widenNext d n s) := by
  induction n generalizing s with
  | zero => exact h
  | succ n ih =>
    unfold widenNext
    refine .ite h ?_
    split
    · exact h
    · exact .ite (goRetrain_extends (setPort_extends h)) (ih (setPort_extends h))

theorem portLink_extends {g : PortLink → PortLink} : Extends s₀ (portLink p g s) := setPort_extends h

theorem portCnt_extends {g : PortCnt → PortCnt} : Extends s₀ (portCnt p g s) := setPort_extends h

theorem linkCode_extends : Extends s₀ (linkCode p code s) := logCode_extends (msix_extends (setPort_extends h))

theorem collFrameLost_extends : Extends s₀ (collFrameLost d k s) :=
  .ite h (.ite (.ite (dieAbort_extends h) h) (raiseInst_extends h))

theorem frameLost_extends : Extends s₀ (frameLost p f s) := by
  unfold frameLost
  extract_lets d hdr s1
  have h1 : Extends s₀ s1 := portCnt_extends h
  split
  · exact h1
  · split
    · exact .ite (abortReq_extends h1) h1
    · exact h1
  · refine .ite h1 (.ite (linkCode_extends h1) ?_)
    split
    · exact sendSwitch_extends h1
    · exact h1
  · split
    · exact collFrameLost_extends h1
    · exact h1

theorem requeue_extends : Extends s₀ (requeue p f s) := by
  unfold requeue
  refine .ite h (.ite (sendOn_extends h) ?_)
  split
  · exact sendSwitch_extends h
  · exact frameLost_extends h

theorem loseFrames_extends {x : PortXfer} : Extends s₀ (loseFrames p x s) :=
  (h.foldl fun _ h => frameLost_extends h).foldl fun _ h => requeue_extends h

theorem goDark_extends : Extends s₀ (goDark p s) :=
  widenNext_extends (portLink_extends (loseFrames_extends (setPort_extends h)))

theorem enterTrain_extends : Extends s₀ (enterTrain p s) := setPort_extends h

theorem enterDetect_extends : Extends s₀ (enterDetect p s) := .ite (enterTrain_extends h) (setPort_extends h)

theorem startPort_extends : Extends s₀ (startPort p s) := .ite (enterDetect_extends h) h

theorem sendLeave_extends : Extends s₀ (sendLeave p s) := .ite h (took_extends (emit_extends (setPort_extends h)))

theorem finishLeave_extends : Extends s₀ (finishLeave p s) := startPort_extends (goDark_extends (sendLeave_extends h))

theorem checkLeave_extends : Extends s₀ (checkLeave p s) := .ite (finishLeave_extends h) h

theorem pullPort_extends : Extends s₀ (pullPort p s) :=
  .ite (goDark_extends (setPort_extends h)) (checkLeave_extends (setPort_extends h))

end

/-! ### SEATED_OPEN (R530) -/

/-- A sled pull sets the mark and reports RAMP_EXCEEDED to the rack, and nothing that follows undoes either. -/
theorem pullSled_stops (s : State) :
    (pullSled s).boot.earlyBreak = true ∧ Out.rack 0x0A06 ∈ (pullSled s).out := by
  unfold pullSled
  extract_lets _ s1 s2 s3
  have h2 : Extends s1 s2 := by
    unfold s2
    split
    · exact .ite (shuttleAbort_extends (.refl s1)) (endPassBy_extends (.refl s1))
    · exact endPassBy_extends (.refl s1)
  have hmark : s3.boot.earlyBreak = true := (leaveInsts_extends h2).earlyBreak
  have hports : Extends s3 ((List.finRange 32).foldl (fun s p => pullPort p s) s3) :=
    (Extends.refl s3).foldl fun _ h => pullPort_extends h
  exact ⟨hports.earlyBreak.trans hmark, hports.out.subset List.mem_cons_self⟩

/-- A sign of removal at a running module pulls the sled. -/
theorem unseat_of_standby {s : State} (hmark : s.boot.earlyBreak = false) (hstandby : s.boot.standby = true) :
    unseat s = pullSled { s with boot := { s.boot with leverOpen := true } } := by
  simp [unseat, hmark, hstandby]

theorem exec_seatedOpen_eq_unseat (s : State) : exec .seatedOpen s = .next (unseat s) := exec_seatedOpen s

theorem exec_earlyBreak_eq_unseat (s : State) : exec .earlyBreak s = .next (unseat s) := exec_earlyBreak s

/-- Settles O55: both signs of removal are `unseat`, and at standby that is a sled pull, which begins the stop. -/
theorem seatedOpenActsAsEarlyBreak : Obligations.SeatedOpenActsAsEarlyBreak := by
  intro s _ hmark
  refine ⟨(exec_seatedOpen_eq_unseat s).trans (exec_earlyBreak_eq_unseat s).symm, fun hstandby => ?_⟩
  refine ⟨unseat s, exec_seatedOpen_eq_unseat s, ?_⟩
  rw [unseat_of_standby hmark hstandby]
  exact pullSled_stops _

end Sys2Proof.Machine

end
